-- ==== Sys2Proof/Word.lean ====
section
/-! DEFINITION. The words of the BD3208: bytes, registers, and the plain numbers that name ports, lanes, queues and cells (00_scope.md, "Conventions"). -/
namespace Sys2Proof

/-- One byte on a wire or in a memory. -/
abbrev Byte := BitVec 8
/-- A 64-bit register word (Table 06.7, every BAR0 register). -/
abbrev W64 := BitVec 64
/-- A 32-bit word. -/
abbrev W32 := BitVec 32
/-- A frame, a record or a payload: its bytes in wire order (R10). -/
abbrev Bytes := List Byte

end Sys2Proof
end

