-- ==== Sys2Proof/Syntax.lean ====
section
/-! DEFINITION. The commands the BD3208 takes: one constructor of `Instr` per row of spec/opcode_table.json, with the operands the row's rule names. A command is one whole, indivisible step (95_what_each_step_holds.md). -/
namespace Sys2Proof

/-- What a receive MAC sees of a frame besides its bytes (Table 11.6): a good FCS, a bad one, or a PCS error block inside. -/
inductive RxCheck | good | badFcs | codeErr
  deriving DecidableEq, Repr

/-- What the ECC and the check word say of one buffer-memory read (R280, R281). -/
inductive Ecc | good | corrected | bad
  deriving DecidableEq, Repr

/-- Why a gallery is taken offline, or an error of it that was corrected (R160). -/
inductive GalCause | store | parity | kat | corrected
  deriving DecidableEq, Repr

/-- A Niano thread: thread `t` of gallery `g`, or thread `t` of the foreman (R175, R205). -/
inductive Thr | gal (g : Fin 64) (t : Fin 16) | fore (t : Fin 4)
  deriving DecidableEq, Repr

/-- A general register g0 to g31 (R175). -/
abbrev Reg := Fin 32
/-- A predicate p0 to p7 (R175). -/
abbrev Prd := Fin 8

/-- The ALU functions of Table 06.8, HASH apart (it has a row of its own). -/
inductive AluFn
  | add | sub | land | lor | lxor | andn | shl | shr | sar | rol | mul | mulhu | smin | smax | umin | umax | clz | popc | bswap
  deriving DecidableEq, Repr

/-- The compare conditions of Table 06.9. -/
inductive Cond | eq | ne | lt | ge | ltu | geu | bs | bc
  deriving DecidableEq, Repr

/-- The PLOG functions of Table 06.9. -/
inductive PFn | land | lor | lxor | andn
  deriving DecidableEq, Repr

/-- What slot B of a bundle may hold: the ALU, move and compare classes of Table 06.1. -/
inductive SOp
  | nop
  | alu (fn : AluFn) (rd ra rb : Reg)
  | hash (rd ra rb : Reg)
  | addi (rd ra : Reg) (imm : BitVec 12)
  | andi (rd ra : Reg) (imm : BitVec 12)
  | ori (rd ra : Reg) (imm : BitVec 12)
  | xori (rd ra : Reg) (imm : BitVec 12)
  | shli (rd ra : Reg) (sh : Fin 64)
  | shri (rd ra : Reg) (sh : Fin 64)
  | sari (rd ra : Reg) (sh : Fin 64)
  | ext (rd ra : Reg) (pos wid1 : Fin 64)
  | ins (rd ra : Reg) (pos wid1 : Fin 64)
  | movi (rd : Reg) (sx : Bool) (imm : BitVec 16)
  | movu (rd : Reg) (imm : BitVec 16)
  | mfs (rd : Reg) (sr : BitVec 12)
  | cmp (c : Cond) (ra rb : Reg) (pt pf : Prd)
  | cmpi (c : Cond) (ra : Reg) (imm : BitVec 8) (pt pf : Prd)
  | plog (fn : PFn) (pa pb pt pf : Prd)
  deriving DecidableEq, Repr

/-- Slot B of the bundle a thread issues: its guard and its operation (R171, R172, R174). -/
structure SlotB where
  guard : Prd
  op : SOp
  deriving DecidableEq, Repr

/-- The foreman thread that issues an order, the register that takes its status (R200), and what the check of its reads from landing cells says (R287). -/
structure OrdBy where
  t : Fin 4
  rd : Reg
  ecc : Ecc
  deriving DecidableEq, Repr

/-- What a monitor-like wire tells Start-up of the part's hardware: each field is a step of Table 17.4 that can fail (R450 to R456). -/
structure StartIn where
  /-- Self-tests and known-answer tests of the public-key engine, AES and SRAM pass. -/
  selfTest : Bool
  /-- Both HBM stacks train. -/
  hbm : Bool
  /-- Galleries whose known-answer test fails. -/
  galBad : List (Fin 64)
  /-- The attic accepts records. -/
  atticOk : Bool
  /-- A buffer-memory check fails during Start-up (R287). -/
  memCheck : Bool
  deriving DecidableEq, Repr

/-- The straps sampled when RESET_N deasserts (R359). -/
structure Straps where
  twinPos : Bool
  roleSel : Fin 4
  deriving DecidableEq, Repr

/-- The reset kinds of PCI Express (Table 17.5). -/
inductive PcieReset | perst | hot | linkDown
  deriving DecidableEq, Repr

/-- A sealed crosscut or shaft message as received: the header fields of Table 14.4 and whether its GCM tag verifies under the session key. -/
structure XcHdr where
  /-- Sender position (crosscut) . -/
  pos : Bool
  claim : Bool
  synced : Bool
  /-- ROLE_EPOCH on the crosscut. -/
  epoch : Nat
  seq : Nat
  auth : Bool
  deriving DecidableEq, Repr

/-- The payload of a crosscut heartbeat (Table 14.6). -/
structure Beat where
  state : Fin 4
  healthOk : Bool
  caution : Bool
  level : Fin 8
  dout : Byte
  tallyNext : Nat
  prevTx : Nat
  rxSeq : Nat
  rxTime : Nat
  imageGen : Nat
  deriving DecidableEq, Repr

/-- The registers of Table 16.4, for a shadow sweep that finds mismatches. -/
inductive Shadow
  | resetCause | mode | lifecycle | tmpLevel (m : Fin 32) | lrCfg | nextSeq | evidLost | srmCfg | srmErased | rootPresent
  | deepAttr (d : Fin 64) | ideRequire | access (t m : Nat) | landing (f : Fin 16) | signer (k : Nat) | twnCfg | twnCtrl
  | roleEpoch | galDispatch | gateCfg
  deriving DecidableEq, Repr

/-- One frame inside an XC_DATA message with its shim of Table 14.11. -/
structure XcFrame where
  decrypt : Bool
  cls : Fin 8
  yellow : Bool
  port : Fin 32
  stream : Option (Fin 1024)
  data : Bytes
  deriving DecidableEq, Repr

/-- One entry of a shaft BLOB message (Table 14.13). -/
structure BlobEntry where
  handle : Nat
  key : BitVec 256
  attr : W64
  expiry : W32
  deriving DecidableEq, Repr

/-- One record of a control image (Table 14.2), for RESYNC_DATA, and one image order, for IMAGE_DELTA: the order's code and its arguments g16 to g23. The content that an argument names in a landing cell travels as `cell` bytes. -/
structure ImageItem where
  code : BitVec 12
  args : List W64
  cell : Bytes
  /-- The sender's attachment, for PROG_LOAD. -/
  att : Bytes
  deriving DecidableEq, Repr

/-- A telemetry measurement of R439 and R449. -/
structure Telemetry where
  mv : List (BitVec 16)
  temp : List (BitVec 16)
  mw : List (BitVec 16)
  deriving DecidableEq, Repr

/-- The commands of the BD3208, in the order of spec/opcode_table.json. -/
inductive Instr
  -- frames, dispatch and the screen
  | clientFrameRx (port : Fin 32) (data : Bytes) (chk : RxCheck) (ts : Nat) (ecc : List (Nat × Nat)) (wrOk : Bool)
  | lineFrameRx (port : Fin 32) (data : Bytes) (chk : RxCheck) (ts : Nat) (ecc : List (Nat × Nat))
  | acacheFetchDone (assoc : Nat) (ecc : Ecc)
  | dispatch (dom : Fin 112) (tag : Fin 65536) (keyOk : Bool) (ecc : Ecc)
  | tagStall
  | threadTakeItem (g : Fin 64) (t : Fin 16)
  | keyFillDone (handle : Fin 1048576) (ecc : Ecc)
  | sealHandover (tag : Fin 65536)
  | openVerified (tag : Fin 65536) (flipA flipB : Bool)
  | galleryFault (g : Fin 64) (cause : GalCause)
  | screenRelease (dom : Fin 112) (wrOk : Bool) (ecc : Ecc)
  | gateVerifyDone (entry : Fin 16384)
  | gateRelease (entry : Fin 16384) (ecc : Ecc) (wrOk : Bool)
  | gateMaxWait (entry : Fin 16384)
  -- the winder
  | egressSelect (e : Fin 64)
  | tgStaleDrop (q : Fin 1024)
  | shaperTick
  | hbmStreamStart (e : Fin 64) (ecc : Ecc)
  | txUnderrun (e : Fin 64) (sent : Nat)
  | pfcRx (port : Fin 64) (pause : Option (BitVec 16)) (en : Byte) (quanta : List (BitVec 16))
  | pauseExpire (port : Fin 32) (cls : Fin 8)
  | pfcRefresh (port : Fin 32) (cls : Fin 8)
  | pauseLong (port : Fin 32) (cls : Fin 8)
  | gateListEntry (e : Fin 64)
  | tgListActive (e : Fin 64)
  | tgStaleState
  -- the line framer
  | tubAssemblerDraw (trib : Fin 64) (ecc : Ecc)
  | tubFlush (trib : Fin 64)
  | tubMaxAge (trib : Fin 64)
  | lineFrameTx (lane : Fin 32)
  | alignCandidate (lane : Fin 32) (pos : Nat) (hdr : Bytes)
  | trackerConfirm (lane : Fin 32) (k : Fin 4) (hdr : Bytes)
  | laneFrameCheck (lane : Fin 32) (frame : Bytes) (skewNs : Nat)
  | tubKeyDerived (rx : Bool) (trib : Fin 64) (epoch : W32)
  | trunkUp (n : Fin 16)
  | tubBlockRx (trib : Fin 64) (trunk : Fin 16) (ts : Nat)
  | oldPointerEnd (n : Fin 16)
  | oldKeyZeroize (n : Fin 16)
  | epochSwitch (n : Fin 16)
  | tribRemapApply (rx : Bool) (trib : Fin 64)
  | mergeWaitExpire (trib : Fin 64) (ecc : Ecc)
  -- the key vault
  | keyExpired (slot : Fin 16384)
  | slotSweep (bad : List (Fin 16384)) (badDeep : List (Fin 64))
  | slotZeroize (slot : Fin 16384)
  | cascadeSweep (deep : Bool) (slot : Fin 16384)
  | deepRemask (d : Fin 64) (ok : Bool)
  | galleryOnline (g : Fin 64) (kat : Bool)
  | stepLimit (g : Fin 64) (t : Fin 16)
  -- Niano: slot A holds the row's instruction, slot B holds b
  | nop (t : Thr) (gd : Prd) (b : SlotB)
  | alu (t : Thr) (gd : Prd) (fn : AluFn) (rd ra rb : Reg) (b : SlotB)
  | hash (t : Thr) (gd : Prd) (rd ra rb : Reg) (b : SlotB)
  | addi (t : Thr) (gd : Prd) (rd ra : Reg) (imm : BitVec 12) (b : SlotB)
  | andi (t : Thr) (gd : Prd) (rd ra : Reg) (imm : BitVec 12) (b : SlotB)
  | ori (t : Thr) (gd : Prd) (rd ra : Reg) (imm : BitVec 12) (b : SlotB)
  | xori (t : Thr) (gd : Prd) (rd ra : Reg) (imm : BitVec 12) (b : SlotB)
  | shli (t : Thr) (gd : Prd) (rd ra : Reg) (sh : Fin 64) (b : SlotB)
  | shri (t : Thr) (gd : Prd) (rd ra : Reg) (sh : Fin 64) (b : SlotB)
  | sari (t : Thr) (gd : Prd) (rd ra : Reg) (sh : Fin 64) (b : SlotB)
  | ext (t : Thr) (gd : Prd) (rd ra : Reg) (pos wid1 : Fin 64) (b : SlotB)
  | ins (t : Thr) (gd : Prd) (rd ra : Reg) (pos wid1 : Fin 64) (b : SlotB)
  | movi (t : Thr) (gd : Prd) (rd : Reg) (sx : Bool) (imm : BitVec 16) (b : SlotB)
  | movu (t : Thr) (gd : Prd) (rd : Reg) (imm : BitVec 16) (b : SlotB)
  | cmp (t : Thr) (gd : Prd) (c : Cond) (ra rb : Reg) (pt pf : Prd) (b : SlotB)
  | cmpi (t : Thr) (gd : Prd) (c : Cond) (ra : Reg) (imm : BitVec 8) (pt pf : Prd) (b : SlotB)
  | plog (t : Thr) (gd : Prd) (fn : PFn) (pa pb pt pf : Prd) (b : SlotB)
  | br (t : Thr) (gd : Prd) (rl : Reg) (target : BitVec 13) (b : SlotB)
  | jr (t : Thr) (gd : Prd) (rd ra : Reg) (b : SlotB)
  | wld (t : Thr) (gd : Prd) (rd ra : Reg) (off : Byte) (size : Fin 4) (sx : Bool) (ecc : Ecc) (b : SlotB)
  | wst (t : Thr) (gd : Prd) (rs ra : Reg) (off : Byte) (size : Fin 4) (b : SlotB)
  | wins (t : Thr) (gd : Prd) (n1 : Fin 32) (ra : Reg) (off : Byte) (b : SlotB)
  | wdel (t : Thr) (gd : Prd) (n1 : Fin 32) (ra : Reg) (off : Byte) (b : SlotB)
  | mfs (t : Thr) (gd : Prd) (rd : Reg) (sr : BitVec 12) (b : SlotB)
  | mts (t : Thr) (gd : Prd) (rs : Reg) (sr : BitVec 12) (b : SlotB)
  | lkp (t : Thr) (gd : Prd) (rd ra : Reg) (tbl : Fin 2) (pt pf : Prd) (ecc : List (Nat × Nat)) (b : SlotB)
  | mtr (t : Thr) (gd : Prd) (rd ra rb : Reg) (b : SlotB)
  | cnt (t : Thr) (gd : Prd) (ra rb : Reg) (b : SlotB)
  | put (t : Thr) (gd : Prd) (ra : Reg) (b : SlotB)
  | sealEnd (t : Thr) (gd : Prd) (b : SlotB)
  | openEnd (t : Thr) (gd : Prd) (b : SlotB)
  | passEnd (t : Thr) (gd : Prd) (b : SlotB)
  | dropEnd (t : Thr) (gd : Prd) (reason : Fin 64) (sub : Byte) (b : SlotB)
  | puntEnd (t : Thr) (gd : Prd) (fn : Fin 16) (b : SlotB)
  | ald (t : Thr) (gd : Prd) (rd ra : Reg) (ecc : Ecc) (b : SlotB)
  | ast (t : Thr) (gd : Prd) (rd ra rb : Reg) (ecc : Ecc) (b : SlotB)
  | aadd (t : Thr) (gd : Prd) (rd ra rb : Reg) (ecc : Ecc) (b : SlotB)
  | aand (t : Thr) (gd : Prd) (rd ra rb : Reg) (ecc : Ecc) (b : SlotB)
  | aor (t : Thr) (gd : Prd) (rd ra rb : Reg) (ecc : Ecc) (b : SlotB)
  | axor (t : Thr) (gd : Prd) (rd ra rb : Reg) (ecc : Ecc) (b : SlotB)
  | aswp (t : Thr) (gd : Prd) (rd ra rb : Reg) (ecc : Ecc) (b : SlotB)
  | acas (t : Thr) (gd : Prd) (rd ra rb : Reg) (ecc : Ecc) (b : SlotB)
  | fence (t : Thr) (gd : Prd) (b : SlotB)
  | syncYield (t : Thr) (gd : Prd) (b : SlotB)
  | waitev (t : Thr) (gd : Prd) (rd rb : Reg) (b : SlotB)
  | ord (t : Thr) (gd : Prd) (code : BitVec 12) (rd : Reg) (ecc : Ecc) (b : SlotB)
  -- look-aside jobs
  | jobGo (fn : Fin 16) (j : Fin 16)
  | jobStart (fn : Fin 16) (j : Fin 16) (keyOk : Bool)
  | jobDone (fn : Fin 16) (j : Fin 16) (ecc : Ecc)
  -- bundles and programs
  | orderRingDoorbell (fn : Fin 16) (tail : BitVec 6)
  | bundleVerifyDone (fn : Fin 16) (ticket : Nat)
  | programStart (t : Fin 4)
  | programEnd (t : Fin 4)
  | programTimeout (t : Fin 4)
  | deferredOrderRun (ticket : Nat)
  -- orders
  | laneRetrain (o : OrdBy) (lane : W64)
  | laneEyeScan (o : OrdBy) (lane cell : W64)
  | eyeScanDone (lane : Fin 73) (points : Nat) (counts : List (BitVec 16))
  | lanePrbs (o : OrdBy) (lane pattern ms : W64)
  | prbsDone (lane : Fin 73) (bits errs : W64)
  | portGroup (o : OrdBy) (group grouping : W64)
  | macCounters (o : OrdBy) (port cell : W64)
  | tribRemap (o : OrdBy) (trib maskLo maskHi : W64)
  | epochChange (o : OrdBy) (trunk : W64)
  | epochRxSet (o : OrdBy) (trunk epoch : W64)
  | tblAdd (o : OrdBy) (table key result : W64)
  | tblDelIf (o : OrdBy) (table key stamp : W64)
  | tblDmaWrite (o : OrdBy) (table cell entries : W64)
  | tblCompare (o : OrdBy) (table cell entries repair : W64)
  | tblRead (o : OrdBy) (table index count cell : W64)
  | progLoad (o : OrdBy) (epoch att : W64)
  | epochSet (o : OrdBy) (epoch : W64)
  | galleryReset (o : OrdBy) (g : W64)
  | stateAccessRead (o : OrdBy) (index words cell : W64)
  | stateAccessWrite (o : OrdBy) (index words cell : W64)
  | pcntRead (o : OrdBy) (first pairs cell : W64)
  | assocWrite (o : OrdBy) (assoc cell : W64)
  | anInstall (o : OrdBy) (assoc an slot pn lowest ssci saltCell : W64)
  | anSelect (o : OrdBy) (assoc sel : W64)
  | anRetire (o : OrdBy) (assoc an : W64)
  | assocRead (o : OrdBy) (assoc cell : W64)
  | assocCounters (o : OrdBy) (assoc cell : W64)
  | keyInstall (o : OrdBy) (slot cell : W64)
  | keyGenerate (o : OrdBy) (slot attr : W64)
  | keyDerive (o : OrdBy) (parent target ctxCell ctxLen attr : W64)
  | keyInvalidate (o : OrdBy) (slot : W64)
  | keyAttr (o : OrdBy) (slot expiry flags : W64)
  | kemPublic (o : OrdBy) (cell : W64)
  | deepImport (o : OrdBy) (d cell attr : W64)
  | cellarPut (o : OrdBy) (cell blobs : W64)
  | cellarDelete (o : OrdBy) (handle : W64)
  | standingSave (o : OrdBy) (slot index : W64)
  | standingDelete (o : OrdBy) (index : W64)
  | mkaDerive (o : OrdBy) (cak cknCell ick kek : W64)
  | mkaSakGen (o : OrdBy) (kek target cell : W64)
  | mkaSakUnwrap (o : OrdBy) (kek target cell : W64)
  | queueCfg (o : OrdBy) (q limits flow sched : W64)
  | meterCfg (o : OrdBy) (meter cir cbs eir ebs : W64)
  | shaperCfg (o : OrdBy) (shaper rate burst : W64)
  | gateList (o : OrdBy) (port cell base : W64)
  | memKeyChange (o : OrdBy) (index : W64)
  | memKeyChanged (index : Fin 256)
  | memScrub (o : OrdBy) (region first count : W64)
  | scrubDone (region : Fin 7) (bad : List Nat)
  | dropNotify (o : OrdBy) (fn rate : W64)
  | gateKeyAdd (o : OrdBy) (keyId cell alg : W64)
  | gateKeyRevoke (o : OrdBy) (keyId : W64)
  | gateFlow (o : OrdBy) (rule sets rate : W64)
  | timeSetStep (o : OrdBy) (time : W64)
  | timeSetOffset (o : OrdBy) (offset : W64)
  | timeSetFrequency (o : OrdBy) (freq : W64)
  | timeSetHoldover (o : OrdBy) (zero : W64)
  | sampleCfg (o : OrdBy) (cell period : W64)
  | twinResync (o : OrdBy)
  | roleMove (o : OrdBy) (target : W64)
  | hewerEnrol (o : OrdBy) (id cell : W64)
  | blobSend (o : OrdBy) (hewers first count : W64)
  | blobSendDone
  | regWrite (o : OrdBy) (off value mask : W64)
  | regRead (o : OrdBy) (off : W64)
  | signerAdd (o : OrdBy) (keyId cell : W64)
  | signerRevoke (o : OrdBy) (keyId : W64)
  | firmwareStage (o : OrdBy) (cell cells : W64)
  | lifecycleEnrolled (o : OrdBy) (cell : W64)
  | lifecycleDeployed (o : OrdBy)
  | lifecycleRetired (o : OrdBy)
  | modeSetTest (o : OrdBy)
  | modeSetService (o : OrdBy)
  | modeSetBanked (o : OrdBy)
  | bankedExitDone
  | profileSave (o : OrdBy)
  | counterInc (o : OrdBy) (n : W64)
  | accessSet (o : OrdBy) (target master perms : W64)
  | tallyRead (o : OrdBy) (area first records cell : W64)
  | levelSet (o : OrdBy) (monitor level : W64)
  -- tables, memory, lanes and time
  | learnCommit (table : Fin 3)
  | patrolScrub (cell : Nat) (ecc : Ecc)
  | coalesceWriteback (cell : Nat) (ecc : Ecc)
  | hbmFault (stack : Fin 2) (cell : Fin 134217728)
  | hbmHotRefresh (stack : Fin 2) (hot : Bool)
  | laneLos (lane : Fin 73)
  | losClear (lane : Fin 73)
  | cdrLock (lane : Fin 73)
  | laneLol (lane : Fin 73)
  | linkTrainingDone (lane : Fin 73) (txPre rxPre inverted : Bool)
  | adaptDone (lane : Fin 73) (inverted : Bool)
  | fecLock (lane : Fin 73) (inverted : Bool)
  | fecAlignLoss (lane : Fin 73)
  | laneTrainFail (lane : Fin 73)
  | trainRetry (lane : Fin 73)
  | lineQualityWindow (lane : Fin 72) (cw corr uncorr sym : Nat) (hist : List Nat)
  | rtcWriteback
  | timeHoldover
  | queueSample
  -- twins and hierarchy
  | hello (pos : Bool) (serial : BitVec 128) (roleSel variant : Byte) (nonce : BitVec 128)
  | helloTimer
  | heartbeat (h : XcHdr) (p : Beat) (arrive : Nat)
  | heartbeatTimer
  | peerSilent
  | roleYield (cause : Fin 8)
  | yieldComplete
  | yieldMsg (h : XcHdr) (cause : Byte)
  | takeover (h : XcHdr)
  | roleInFiltered (asserted : Bool)
  | startWaitExpire
  | doutUpdate (h : XcHdr) (dout : Byte)
  | doutRelease
  | imageDelta (h : XcHdr) (gen : Nat) (item : ImageItem)
  | resyncReq (h : XcHdr)
  | resyncData (h : XcHdr) (item : ImageItem)
  | resyncDone (h : XcHdr) (ok : Bool)
  | xcData (h : XcHdr) (frames : List XcFrame) (ts : Nat) (wrOk : Bool)
  | xcDataClose
  | elimReset (stream : Fin 1024)
  | dinChange (pin : Fin 8) (high : Bool)
  | shaftHello (id : Fin 64) (serial : BitVec 128) (sa : BitVec 48) (nonce : BitVec 128)
  | acceptMsg (seq : Nat) (auth : Bool) (id : Fin 64) (serial : BitVec 128)
  | statusMsg (id : Fin 64) (seq : Nat) (auth : Bool) (level : Fin 8)
  | statusTimer
  | hewerLost (id : Fin 64)
  | overmanLost
  | blob (seq : Nat) (auth : Bool) (entries : List BlobEntry)
  | blobAck (id : Fin 64) (seq : Nat) (auth : Bool) (acks : List (Nat × Nat))
  -- the guard, the lamp room and resets
  | supplyGlitch (rail : Fin 9) (durNs : Nat)
  | islandPowerOff (dom : Fin 80)
  | supplyReset (rail : Fin 9)
  | supplyWarning (rail : Fin 9)
  | cautionExit (minMv : Nat)
  | cautionLong
  | clockFault (clk : Fin 4)
  | clockGlitch
  | tempWarn (sensor : Fin 16)
  | tempHigh (sensor : Fin 16)
  | tempLow (sensor : Fin 17)
  | shieldBreak
  | tamperLoop (loop : Fin 4)
  | shadowSweep (bad : List Shadow)
  | foremanLockstep
  | vbatLow
  | rtcStop
  | pkeKat (ok : Bool)
  | alarmWindowEnd
  | squelchEnd
  | tmpAlarmClear (persist : List (Fin 32))
  | tallyRefill (code : BitVec 16)
  | lampSupplySwitch (toVbat : Bool)
  | lampMonitorTrigger (m : Fin 32)
  | lampLoopPoll (broken : BitVec 4)
  | vbatRootErase
  | powerOnReset (st : Straps)
  | sequencingFault
  | resetNAssert (lowNs : Nat) (st : Straps)
  | watchdog
  | startup (inp : StartIn)
  -- the host interface
  | perstN (k : PcieReset)
  | flr (fn : Fin 16)
  | flrComplete (fn : Fin 16)
  | tokenWrite (fn : Fin 16) (k : Nat) (value : Byte) (ide : Bool)
  | landingWrite (fn : Fin 16) (off : Nat) (data : Bytes) (ide : Bool) (ecc : Ecc)
  | landingRead (fn : Fin 16) (off len : Nat) (ide : Bool) (ecc : Ecc)
  | transmitRingDoorbell (fn : Fin 16) (tail : BitVec 8)
  | transmitEntryRead (fn : Fin 16) (ecc : Ecc)
  | freeRingDoorbell (fn : Fin 16) (tail : BitVec 10)
  | irqModerationExpire (fn : Fin 16) (tx : Bool)
  | msixUnmask (fn : Fin 16) (v : Fin 64)
  | ideFail (stream : Fin 4)
  | query (stream : Fin 4)
  | keyProg (stream : Fin 4) (set : Fin 2) (rx : Bool) (key : BitVec 256)
  | kSetGo (stream : Fin 4) (set : Fin 2) (rx : Bool)
  | kSetStop (stream : Fin 4) (set : Fin 2) (rx : Bool)
  | getVersion
  | getCapabilities (version : Byte)
  | negotiateAlgorithms (ecdsaP384 sha384 secp384r1 aesGcm : Bool)
  | getDigests
  | getCertificate (slot : Byte) (off len : Nat)
  | challenge (slot : Byte) (nonce : BitVec 256)
  | getMeasurements (index : Byte) (signed : Bool) (nonce : BitVec 256)
  | keyExchange (reqSession : BitVec 16) (exch : Bytes) (psk mutAuth : Bool)
  | finish (session : W32) (mac : Bytes)
  | spdmHeartbeat (session : W32)
  | keyUpdate (session : W32) (op : Byte)
  | endSession (session : W32)
  -- I3C, the test port, reads that clear, and the rest
  | setdasa (static : BitVec 7) (dyn : BitVec 7)
  | entdaa (dyn : BitVec 7)
  | setnewda (dyn : BitVec 7)
  | rstdaa
  | getpid
  | getbcr
  | getdcr
  | getstatus
  | getmrl
  | i3cPrivateWrite (data : Bytes)
  | i3cPrivateRead (len : Nat)
  | idcode
  | bypass
  | tapInstruction (ir : Byte)
  | lowWaterRead
  | qsampleMaxRead (q : Fin 1024)
  | mergeDiffMaxRead (trib : Fin 64)
  | railTempMaxRead (temp : Bool) (k : Fin 17)
  | hostRegisterWrite (fn : Fin 16) (bar0 : Bool) (off : Nat) (value : W64) (ide : Bool)
  | screenTimeout (dom : Fin 112)
  | ptpDepartureInstant (e : Fin 64) (ecc : Ecc)
  | telemetryUpdate (m : Telemetry)
  | poisonCleared (cell : Fin 65536)
  | pcieLinkUp (rate width : Fin 16)
  deriving DecidableEq, Repr

end Sys2Proof
end

