-- ==== Sys2Proof/Machine/Bits.lean ====
section
/-! DEFINITION. Bit fields of a register word, byte order, and the descriptors of a register's fields. -/
namespace Sys2Proof.Machine

/-- A bit field of a register word: its lowest bit and its width. -/
structure Fld where
  lo : Nat
  len : Nat
  deriving DecidableEq, Repr

/-- The field types of 00_scope.md ("Conventions"): read only, order write, read-write by the host, write one to clear, read clears, write one to set. -/
inductive FTy | ro | ow | rw | w1c | rc | w1s
  deriving DecidableEq, Repr

/-- One field of a register table: lowest bit, width, type, reset value. -/
structure FieldDesc where
  lo : Nat
  len : Nat
  ty : FTy
  reset : Nat
  deriving DecidableEq, Repr

/-- One register of a register table: its 8-byte word at base + s1·i + s2·j for i below n1 and j below n2. -/
structure RegDesc where
  name : String
  base : Nat
  s1 : Nat
  n1 : Nat
  s2 : Nat
  n2 : Nat
  fields : List FieldDesc
  deriving DecidableEq, Repr

/-- Bits lo to lo + len - 1 of a number. -/
def nbits (n lo len : Nat) : Nat := n / 2 ^ lo % 2 ^ len

/-- A field of a word, as a number. -/
def fget (w : W64) (f : Fld) : Nat := nbits w.toNat f.lo f.len

/-- The word whose bits in the field are set. -/
def fmask (f : Fld) : W64 := BitVec.ofNat 64 ((2 ^ f.len - 1) * 2 ^ f.lo)

/-- The word with a field replaced; the value is cut to the field's width. -/
def fset (w : W64) (f : Fld) (v : Nat) : W64 :=
  (w &&& ~~~ fmask f) ||| BitVec.ofNat 64 (v % 2 ^ f.len * 2 ^ f.lo)

/-- A bit as a number. -/
def b2n (b : Bool) : Nat := if b then 1 else 0

/-- The signed value of the low `len` bits of a number. -/
def signed (len n : Nat) : Int :=
  if n % 2 ^ len < 2 ^ (len - 1) then (n % 2 ^ len : Nat) else (n % 2 ^ len : Nat) - (2 ^ len : Nat)

/-- A signed number cut to `len` bits, two's complement. -/
def unsigned (len : Nat) (i : Int) : Nat := (i % (2 ^ len : Nat)).toNat

/-- The number a byte list spells, first byte most significant (network order, R10). -/
def beNat : Bytes → Nat
  | [] => 0
  | b :: t => b.toNat * 256 ^ t.length + beNat t

/-- The number a byte list spells, first byte least significant. -/
def leNat : Bytes → Nat
  | [] => 0
  | b :: t => b.toNat + 256 * leNat t

/-- `k` bytes of a number, least significant first. -/
def natLe : Nat → Nat → Bytes
  | 0, _ => []
  | k + 1, n => BitVec.ofNat 8 n :: natLe k (n / 256)

/-- `k` bytes of a number, most significant first. -/
def natBe (k n : Nat) : Bytes := (natLe k n).reverse

/-- Exactly `n` bytes of a list from an offset, zeros past its end. -/
def slice : Bytes → Nat → Nat → Bytes
  | _, _, 0 => []
  | b, off, n + 1 => b.getD off 0 :: slice b (off + 1) n

/-- A list with `n` bytes at an offset replaced by `v`, bytes past its end ignored. -/
def overlay (b : Bytes) (off : Nat) (v : Bytes) : Bytes :=
  b.take off ++ (v.take (b.length - off) ++ b.drop (off + v.length))

/-- `n` zero bytes. -/
def zeros (n : Nat) : Bytes := List.replicate n 0

/-- Bytewise exclusive or, to the length of the shorter. -/
def xorB (a b : Bytes) : Bytes := List.zipWith (· ^^^ ·) a b

/-- The first part of `n` rounded up to a whole number of `k`s. -/
def ceilDiv (n k : Nat) : Nat := (n + (k - 1)) / k

/-- Is a bit of a number set. -/
def nbit (n i : Nat) : Bool := n.testBit i

/-- A number with a bit set or cleared. -/
def setNbit (n i : Nat) (v : Bool) : Nat :=
  if n.testBit i then (if v then n else n - 2 ^ i) else (if v then n + 2 ^ i else n)

/-- An ASCII string as bytes. -/
def ascii (t : String) : Bytes := t.toList.map (fun c => BitVec.ofNat 8 c.toNat)

end Sys2Proof.Machine
end

