-- ==== Sys2Proof/Machine/Aes.lean ====
section
/-! DEFINITION. The symmetric algorithms the spec names: AES, GCM and GMAC, CMAC and the KDF of R110, AES key wrap with and without padding, XTS, and SHA-384. -/
namespace Sys2Proof.Machine

/-! AES (FIPS 197) -/

def sboxRow0 : List Nat := [0x63, 0x7c, 0x77, 0x7b, 0xf2, 0x6b, 0x6f, 0xc5, 0x30, 0x01, 0x67, 0x2b, 0xfe, 0xd7, 0xab, 0x76, 0xca, 0x82, 0xc9, 0x7d, 0xfa, 0x59, 0x47, 0xf0, 0xad, 0xd4, 0xa2, 0xaf, 0x9c, 0xa4, 0x72, 0xc0, 0xb7, 0xfd, 0x93, 0x26, 0x36, 0x3f, 0xf7, 0xcc, 0x34, 0xa5, 0xe5, 0xf1, 0x71, 0xd8, 0x31, 0x15, 0x04, 0xc7, 0x23, 0xc3, 0x18, 0x96, 0x05, 0x9a, 0x07, 0x12, 0x80, 0xe2, 0xeb, 0x27, 0xb2, 0x75]
def sboxRow1 : List Nat := [0x09, 0x83, 0x2c, 0x1a, 0x1b, 0x6e, 0x5a, 0xa0, 0x52, 0x3b, 0xd6, 0xb3, 0x29, 0xe3, 0x2f, 0x84, 0x53, 0xd1, 0x00, 0xed, 0x20, 0xfc, 0xb1, 0x5b, 0x6a, 0xcb, 0xbe, 0x39, 0x4a, 0x4c, 0x58, 0xcf, 0xd0, 0xef, 0xaa, 0xfb, 0x43, 0x4d, 0x33, 0x85, 0x45, 0xf9, 0x02, 0x7f, 0x50, 0x3c, 0x9f, 0xa8, 0x51, 0xa3, 0x40, 0x8f, 0x92, 0x9d, 0x38, 0xf5, 0xbc, 0xb6, 0xda, 0x21, 0x10, 0xff, 0xf3, 0xd2]
def sboxRow2 : List Nat := [0xcd, 0x0c, 0x13, 0xec, 0x5f, 0x97, 0x44, 0x17, 0xc4, 0xa7, 0x7e, 0x3d, 0x64, 0x5d, 0x19, 0x73, 0x60, 0x81, 0x4f, 0xdc, 0x22, 0x2a, 0x90, 0x88, 0x46, 0xee, 0xb8, 0x14, 0xde, 0x5e, 0x0b, 0xdb, 0xe0, 0x32, 0x3a, 0x0a, 0x49, 0x06, 0x24, 0x5c, 0xc2, 0xd3, 0xac, 0x62, 0x91, 0x95, 0xe4, 0x79, 0xe7, 0xc8, 0x37, 0x6d, 0x8d, 0xd5, 0x4e, 0xa9, 0x6c, 0x56, 0xf4, 0xea, 0x65, 0x7a, 0xae, 0x08]
def sboxRow3 : List Nat := [0xba, 0x78, 0x25, 0x2e, 0x1c, 0xa6, 0xb4, 0xc6, 0xe8, 0xdd, 0x74, 0x1f, 0x4b, 0xbd, 0x8b, 0x8a, 0x70, 0x3e, 0xb5, 0x66, 0x48, 0x03, 0xf6, 0x0e, 0x61, 0x35, 0x57, 0xb9, 0x86, 0xc1, 0x1d, 0x9e, 0xe1, 0xf8, 0x98, 0x11, 0x69, 0xd9, 0x8e, 0x94, 0x9b, 0x1e, 0x87, 0xe9, 0xce, 0x55, 0x28, 0xdf, 0x8c, 0xa1, 0x89, 0x0d, 0xbf, 0xe6, 0x42, 0x68, 0x41, 0x99, 0x2d, 0x0f, 0xb0, 0x54, 0xbb, 0x16]
/-- The S-box. -/
def sbox : List Nat := sboxRow0 ++ sboxRow1 ++ sboxRow2 ++ sboxRow3

def invSboxRow0 : List Nat := [0x52, 0x09, 0x6a, 0xd5, 0x30, 0x36, 0xa5, 0x38, 0xbf, 0x40, 0xa3, 0x9e, 0x81, 0xf3, 0xd7, 0xfb, 0x7c, 0xe3, 0x39, 0x82, 0x9b, 0x2f, 0xff, 0x87, 0x34, 0x8e, 0x43, 0x44, 0xc4, 0xde, 0xe9, 0xcb, 0x54, 0x7b, 0x94, 0x32, 0xa6, 0xc2, 0x23, 0x3d, 0xee, 0x4c, 0x95, 0x0b, 0x42, 0xfa, 0xc3, 0x4e, 0x08, 0x2e, 0xa1, 0x66, 0x28, 0xd9, 0x24, 0xb2, 0x76, 0x5b, 0xa2, 0x49, 0x6d, 0x8b, 0xd1, 0x25]
def invSboxRow1 : List Nat := [0x72, 0xf8, 0xf6, 0x64, 0x86, 0x68, 0x98, 0x16, 0xd4, 0xa4, 0x5c, 0xcc, 0x5d, 0x65, 0xb6, 0x92, 0x6c, 0x70, 0x48, 0x50, 0xfd, 0xed, 0xb9, 0xda, 0x5e, 0x15, 0x46, 0x57, 0xa7, 0x8d, 0x9d, 0x84, 0x90, 0xd8, 0xab, 0x00, 0x8c, 0xbc, 0xd3, 0x0a, 0xf7, 0xe4, 0x58, 0x05, 0xb8, 0xb3, 0x45, 0x06, 0xd0, 0x2c, 0x1e, 0x8f, 0xca, 0x3f, 0x0f, 0x02, 0xc1, 0xaf, 0xbd, 0x03, 0x01, 0x13, 0x8a, 0x6b]
def invSboxRow2 : List Nat := [0x3a, 0x91, 0x11, 0x41, 0x4f, 0x67, 0xdc, 0xea, 0x97, 0xf2, 0xcf, 0xce, 0xf0, 0xb4, 0xe6, 0x73, 0x96, 0xac, 0x74, 0x22, 0xe7, 0xad, 0x35, 0x85, 0xe2, 0xf9, 0x37, 0xe8, 0x1c, 0x75, 0xdf, 0x6e, 0x47, 0xf1, 0x1a, 0x71, 0x1d, 0x29, 0xc5, 0x89, 0x6f, 0xb7, 0x62, 0x0e, 0xaa, 0x18, 0xbe, 0x1b, 0xfc, 0x56, 0x3e, 0x4b, 0xc6, 0xd2, 0x79, 0x20, 0x9a, 0xdb, 0xc0, 0xfe, 0x78, 0xcd, 0x5a, 0xf4]
def invSboxRow3 : List Nat := [0x1f, 0xdd, 0xa8, 0x33, 0x88, 0x07, 0xc7, 0x31, 0xb1, 0x12, 0x10, 0x59, 0x27, 0x80, 0xec, 0x5f, 0x60, 0x51, 0x7f, 0xa9, 0x19, 0xb5, 0x4a, 0x0d, 0x2d, 0xe5, 0x7a, 0x9f, 0x93, 0xc9, 0x9c, 0xef, 0xa0, 0xe0, 0x3b, 0x4d, 0xae, 0x2a, 0xf5, 0xb0, 0xc8, 0xeb, 0xbb, 0x3c, 0x83, 0x53, 0x99, 0x61, 0x17, 0x2b, 0x04, 0x7e, 0xba, 0x77, 0xd6, 0x26, 0xe1, 0x69, 0x14, 0x63, 0x55, 0x21, 0x0c, 0x7d]
/-- The inverse S-box. -/
def invSbox : List Nat := invSboxRow0 ++ invSboxRow1 ++ invSboxRow2 ++ invSboxRow3

def sboxAt (b : Byte) : Byte := BitVec.ofNat 8 (sbox.getD b.toNat 0)
def invSboxAt (b : Byte) : Byte := BitVec.ofNat 8 (invSbox.getD b.toNat 0)

/-- Doubling in GF(2^8). -/
def xtime (b : Byte) : Byte := if b.toNat < 128 then b <<< 1 else (b <<< 1) ^^^ 0x1B

/-- Multiplication of a byte by a small constant in GF(2^8). -/
def gmul (b : Byte) : Nat → Byte
  | 1 => b
  | 2 => xtime b
  | 3 => xtime b ^^^ b
  | 9 => xtime (xtime (xtime b)) ^^^ b
  | 11 => xtime (xtime (xtime b)) ^^^ xtime b ^^^ b
  | 13 => xtime (xtime (xtime b)) ^^^ xtime (xtime b) ^^^ b
  | 14 => xtime (xtime (xtime b)) ^^^ xtime (xtime b) ^^^ xtime b
  | _ => 0

/-- Byte i of a 16-byte state. -/
def st (s : Bytes) (i : Nat) : Byte := s.getD i 0

/-- The rows of the state rotated: the byte at column c, row r comes from column c + r. -/
def shiftRows (s : Bytes) : Bytes := (List.range 16).map (fun i => st s ((i + 4 * (i % 4)) % 16))
def invShiftRows (s : Bytes) : Bytes := (List.range 16).map (fun i => st s ((i + 16 - 4 * (i % 4)) % 16))

/-- Each column multiplied by the circulant of four constants. -/
def mixWith (a b c d : Nat) (s : Bytes) : Bytes :=
  (List.range 16).map (fun i =>
    let k := i / 4 * 4
    gmul (st s i) a ^^^ gmul (st s (k + (i + 1) % 4)) b ^^^ gmul (st s (k + (i + 2) % 4)) c ^^^ gmul (st s (k + (i + 3) % 4)) d)

/-- The next key word from the word before it and the word nk before: words are 4-byte lists, newest first. -/
def nextWord (nk i : Nat) (rcon : Byte) (ws : List Bytes) : Bytes :=
  let t := ws.headD []
  let u := if i % nk = 0 then xorB ((t.drop 1 ++ t.take 1).map sboxAt) [rcon, 0, 0, 0]
    else if 6 < nk ∧ i % nk = 4 then t.map sboxAt else t
  xorB (ws.getD (nk - 1) []) u

/-- The expanded key, newest word first: `n` words still to make. -/
def expand (nk : Nat) : Nat → Nat → Byte → List Bytes → List Bytes
  | 0, _, _, ws => ws
  | n + 1, i, rcon, ws => expand nk n (i + 1) (if i % nk = 0 then xtime rcon else rcon) (nextWord nk i rcon ws :: ws)

/-- A byte list cut into pieces of n bytes; `k` pieces. -/
def pieces (n : Nat) : Nat → Bytes → List Bytes
  | 0, _ => []
  | k + 1, b => b.take n :: pieces n k (b.drop n)

/-- The round keys of an AES-128 (16-byte) or AES-256 (32-byte) key. -/
def roundKeys (key : Bytes) : List Bytes :=
  let nk := key.length / 4
  let ws := (expand nk (4 * (nk + 7) - nk) nk 1 (pieces 4 nk key).reverse).reverse
  pieces 16 (nk + 7) ws.flatten

def rounds : Bytes → List Bytes → Bytes
  | s, [] => s
  | s, [k] => xorB (shiftRows (s.map sboxAt)) k
  | s, k :: t => rounds (xorB (mixWith 2 3 1 1 (shiftRows (s.map sboxAt))) k) t

/-- The AES block cipher. -/
def aesEnc (key block : Bytes) : Bytes :=
  match roundKeys key with
  | [] => block
  | k :: t => rounds (xorB block k) t

def invRounds : Bytes → List Bytes → Bytes
  | s, [] => s
  | s, [k] => xorB ((invShiftRows s).map invSboxAt) k
  | s, k :: t => invRounds (mixWith 14 11 13 9 (xorB ((invShiftRows s).map invSboxAt) k)) t

/-- The inverse block cipher. -/
def aesDec (key block : Bytes) : Bytes :=
  match (roundKeys key).reverse with
  | [] => block
  | k :: t => invRounds (xorB block k) t

/-! GCM (SP 800-38D) -/

/-- Multiplication in GF(2^128), bits of x from the most significant down: `n` steps. -/
def ghMul (x : Nat) : Nat → Nat → Nat → Nat
  | 0, _, z => z
  | n + 1, v, z => ghMul x n (if v % 2 = 1 then v / 2 ^^^ 0xE1000000000000000000000000000000 else v / 2)
      (if nbit x n then z ^^^ v else z)

/-- GHASH of a list of 16-byte blocks under H. -/
def ghash (h : Nat) : Nat → List Bytes → Nat
  | y, [] => y
  | y, b :: t => ghash h (ghMul (y ^^^ beNat (slice b 0 16)) 128 h 0) t

/-- A byte list as zero-padded 16-byte blocks. -/
def blocks16 (b : Bytes) : List Bytes := pieces 16 (ceilDiv b.length 16) b

/-- CTR keystream blocks from a counter block: `n` blocks. -/
def ctrStream (key : Bytes) (iv : Bytes) : Nat → Nat → Bytes
  | 0, _ => []
  | n + 1, c => aesEnc key (iv ++ natBe 4 c) ++ ctrStream key iv n (c + 1)

/-- The GCM text transform: the same for encryption and decryption. -/
def gcmCrypt (key iv text : Bytes) : Bytes := xorB text (ctrStream key iv (ceilDiv text.length 16) 2)

/-- The 16-byte GCM tag over additional data and ciphertext. -/
def gcmTag (key iv aad ct : Bytes) : Bytes :=
  let h := beNat (aesEnc key (zeros 16))
  let y := ghash h 0 (blocks16 aad ++ blocks16 ct ++ [natBe 8 (8 * aad.length) ++ natBe 8 (8 * ct.length)])
  xorB (natBe 16 y) (aesEnc key (iv ++ natBe 4 1))

/-! CMAC (SP 800-38B) and the KDF of R110 -/

/-- Doubling in GF(2^128) as CMAC defines its subkeys. -/
def cmacDouble (n : Nat) : Nat := if nbit n 127 then (2 * n % 2 ^ 128) ^^^ 0x87 else 2 * n

def cbc (key : Bytes) : Bytes → List Bytes → Bytes
  | x, [] => x
  | x, b :: t => cbc key (aesEnc key (xorB x b)) t

/-- CMAC of a message. -/
def cmac (key m : Bytes) : Bytes :=
  let k1 := cmacDouble (beNat (aesEnc key (zeros 16)))
  let n := if m.length = 0 then 1 else ceilDiv m.length 16
  let last := m.drop (16 * (n - 1))
  let tail := if last.length = 16 then xorB last (natBe 16 k1)
    else xorB (slice (last ++ [0x80]) 0 16) (natBe 16 (cmacDouble k1))
  cbc key (zeros 16) (pieces 16 (n - 1) m ++ [tail])

/-- `n` output blocks of the KDF from block i. -/
def kdfBlocks (key label ctx : Bytes) (bits : Nat) : Nat → Nat → Bytes
  | 0, _ => []
  | n + 1, i => cmac key (natBe 4 i ++ label ++ [0] ++ ctx ++ natBe 4 bits) ++ kdfBlocks key label ctx bits n (i + 1)

/-- The KDF in counter mode with CMAC-AES-256: the leading L bits, L a multiple of 8 (R110). A shorter parent stands in its 256-bit slot with zeros behind it (log entry 128). -/
def kdf (key label ctx : Bytes) (bits : Nat) : Bytes :=
  (kdfBlocks (slice key 0 32) label ctx bits (ceilDiv bits 128) 1).take (bits / 8)

/-! AES key wrap (RFC 3394, RFC 5649) -/

/-- One pass of the wrap over the semiblocks, t counting on. -/
def wrapPass (key : Bytes) : Bytes → Nat → List Bytes → Bytes × List Bytes
  | a, _, [] => (a, [])
  | a, t, r :: rs =>
    let b := aesEnc key (a ++ r)
    let p := wrapPass key (xorB (b.take 8) (natBe 8 t)) (t + 1) rs
    (p.1, b.drop 8 :: p.2)

def wrapPasses (key : Bytes) (n : Nat) : Nat → Nat → Bytes → List Bytes → Bytes × List Bytes
  | 0, _, a, rs => (a, rs)
  | k + 1, t, a, rs =>
    let p := wrapPass key a t rs
    wrapPasses key n k (t + n) p.1 p.2

/-- The wrap function W on an initial value and semiblocks. -/
def wrapW (key a : Bytes) (rs : List Bytes) : Bytes :=
  let p := wrapPasses key rs.length 6 1 a rs
  p.1 ++ p.2.flatten

/-- One pass of the unwrap, semiblocks given last first, t counting down. -/
def unwrapPass (key : Bytes) : Bytes → Nat → List Bytes → Bytes × List Bytes
  | a, _, [] => (a, [])
  | a, t, r :: rs =>
    let b := aesDec key (xorB a (natBe 8 t) ++ r)
    let p := unwrapPass key (b.take 8) (t - 1) rs
    (p.1, b.drop 8 :: p.2)

def unwrapPasses (key : Bytes) (n : Nat) : Nat → Nat → Bytes → List Bytes → Bytes × List Bytes
  | 0, _, a, rs => (a, rs)
  | k + 1, t, a, rs =>
    let p := unwrapPass key a t rs
    unwrapPasses key n k (t - n) p.1 p.2

/-- The unwrap function: the recovered initial value and the plaintext. -/
def unwrapW (key ct : Bytes) : Bytes × Bytes :=
  let n := ct.length / 8 - 1
  let p := unwrapPasses key n 6 (6 * n) (ct.take 8) (pieces 8 n (ct.drop 8)).reverse
  (p.1, p.2.reverse.flatten)

/-- RFC 3394 wrap. -/
def keyWrap (key pt : Bytes) : Bytes := wrapW key (List.replicate 8 0xA6) (pieces 8 (pt.length / 8) pt)

/-- RFC 3394 unwrap; none when the check fails. -/
def keyUnwrap (key ct : Bytes) : Option Bytes :=
  let p := unwrapW key ct
  if p.1 = List.replicate 8 0xA6 then some p.2 else none

/-- RFC 5649 wrap with padding. -/
def keyWrapPad (key pt : Bytes) : Bytes :=
  let aiv : Bytes := [0xA6, 0x59, 0x59, 0xA6] ++ natBe 4 pt.length
  let n := ceilDiv pt.length 8
  if n ≤ 1 then aesEnc key (aiv ++ slice pt 0 8) else wrapW key aiv (pieces 8 n (slice pt 0 (8 * n)))

/-- RFC 5649 unwrap; none when the initial value, the length or the padding is wrong. -/
def keyUnwrapPad (key ct : Bytes) : Option Bytes :=
  let p := if ct.length = 16 then let b := aesDec key ct; (b.take 8, b.drop 8) else unwrapW key ct
  let len := beNat (p.1.drop 4)
  if p.1.take 4 = [0xA6, 0x59, 0x59, 0xA6] ∧ len ≤ p.2.length ∧ p.2.length < len + 8 ∧ (p.2.drop len).all (· == 0)
  then some (p.2.take len) else none

/-! XTS-AES-256 (IEEE 1619), whole blocks -/

/-- The tweak doubled: multiplication by α in GF(2^128), little-endian. -/
def xtsDouble (t : Bytes) : Bytes :=
  let n := leNat t
  natLe 16 (if nbit n 127 then (2 * n % 2 ^ 128) ^^^ 0x87 else 2 * n)

def xtsBlocks (f : Bytes → Bytes) : Bytes → List Bytes → Bytes
  | _, [] => []
  | t, b :: r => xorB (f (xorB b t)) t ++ xtsBlocks f (xtsDouble t) r

/-- One data unit under K1, K2 and a 16-byte tweak. -/
def xtsEnc (k1 k2 tweak text : Bytes) : Bytes := xtsBlocks (aesEnc k1) (aesEnc k2 tweak) (blocks16 text)
def xtsDec (k1 k2 tweak text : Bytes) : Bytes := xtsBlocks (aesDec k1) (aesEnc k2 tweak) (blocks16 text)

/-! SHA-384 (FIPS 180-4) and HMAC -/

/-- The largest x below 2^n, built on the bits already found, whose k-th power is at most m. -/
def rootFrom (k m : Nat) : Nat → Nat → Nat
  | 0, x => x
  | n + 1, x => rootFrom k m n (if (x + 2 ^ n) ^ k ≤ m then x + 2 ^ n else x)
/-- The first 64 bits of the fractional part of the k-th root of p. -/
def rootBits (k p : Nat) : Nat := rootFrom k (p * 2 ^ (64 * k)) 69 0 % 2 ^ 64
/-- The primes below n. -/
def primesBelow (n : Nat) : List Nat := (List.range n).filter (fun p => decide (1 < p) && ((List.range p).drop 2).all (fun d => p % d != 0))
/-- The SHA-512 round constants: cube roots of the first 80 primes. -/
def shaRound : List Nat := (primesBelow 410).map (rootBits 3)
/-- The SHA-384 initial value: square roots of the ninth to the sixteenth prime. -/
def sha384Init : List Nat := ((primesBelow 54).drop 8).map (rootBits 2)
def ror64 (w : BitVec 64) (n : Nat) : BitVec 64 := w.rotateRight n

/-- The message schedule, newest word first: `n` words still to make. -/
def shaSched : Nat → List (BitVec 64) → List (BitVec 64)
  | 0, ws => ws
  | n + 1, ws =>
    let w1 := ws.getD 1 0
    let w14 := ws.getD 14 0
    let s0 := ror64 w14 1 ^^^ ror64 w14 8 ^^^ w14 >>> 7
    let s1 := ror64 w1 19 ^^^ ror64 w1 61 ^^^ w1 >>> 6
    shaSched n ((ws.getD 15 0 + s0 + ws.getD 6 0 + s1) :: ws)

/-- One SHA-512 round on the eight working variables. -/
def shaStep (v : List (BitVec 64)) (k w : BitVec 64) : List (BitVec 64) :=
  match v with
  | [a, b, c, d, e, f, g, h] =>
    let t1 := h + (ror64 e 14 ^^^ ror64 e 18 ^^^ ror64 e 41) + ((e &&& f) ^^^ (~~~e &&& g)) + k + w
    let t2 := (ror64 a 28 ^^^ ror64 a 34 ^^^ ror64 a 39) + ((a &&& b) ^^^ (a &&& c) ^^^ (b &&& c))
    [t1 + t2, a, b, c, d + t1, e, f, g]
  | v => v

def shaRounds (v : List (BitVec 64)) : List (Nat × BitVec 64) → List (BitVec 64)
  | [] => v
  | (k, w) :: t => shaRounds (shaStep v (BitVec.ofNat 64 k) w) t

def shaBlock (h : List (BitVec 64)) (b : Bytes) : List (BitVec 64) :=
  let w0 := (pieces 8 16 b).map (fun p => BitVec.ofNat 64 (beNat p))
  List.zipWith (· + ·) h (shaRounds h (shaRound.zip (shaSched 64 w0.reverse).reverse))

def shaFold : List (BitVec 64) → List Bytes → List (BitVec 64)
  | h, [] => h
  | h, b :: t => shaFold (shaBlock h b) t

/-- SHA-384 of a message: 48 bytes. -/
def sha384 (m : Bytes) : Bytes :=
  let n := ceilDiv (m.length + 17) 128
  let padded := m ++ [0x80] ++ zeros (128 * n - m.length - 17) ++ natBe 16 (8 * m.length)
  ((shaFold (sha384Init.map (BitVec.ofNat 64)) (pieces 128 n padded)).flatMap (fun w => natBe 8 w.toNat)).take 48

/-- HMAC-SHA-384. -/
def hmac384 (key m : Bytes) : Bytes :=
  let k := slice (if 128 < key.length then sha384 key else key) 0 128
  sha384 (k.map (· ^^^ 0x5C) ++ sha384 (k.map (· ^^^ 0x36) ++ m))

end Sys2Proof.Machine
end

