-- ==== Sys2Proof/Config.lean ====
section
/-! DEFINITION. The free values: what the spec leaves open or gives to a random source, a public-key algorithm or the part's hardware, as constants that no proof can evaluate. -/
namespace Sys2Proof.Config

/-- Draw `n` of the part's random source: 512 bits (R111, R116, R281, R64; free value, log entry 5). -/
opaque random (n : Nat) : BitVec 512

/-- An open value that depends on a plain number the step reads (log entry 6). -/
opaque free (n : Nat) : BitVec 64

/-- ECDSA P-384 with SHA-384: does a signature verify under a public key over a message (R214, R324; log entry 7). -/
opaque ecdsaVerify (key msg sig : Bytes) : Bool

/-- ML-DSA-87 in the pure form with a context string (R214; log entry 7). -/
opaque mldsaVerify (key ctx msg sig : Bytes) : Bool

/-- Ed25519 (R324; log entry 7). -/
opaque ed25519Verify (key msg sig : Bytes) : Bool

/-- Does a public key decode to a valid key of its curve: ALG 1 Ed25519, 2 ECDSA P-384 (R326; log entry 7). -/
opaque keyDecodes (alg : Nat) (key : Bytes) : Bool

/-- The ECDSA P-384 signature the identity key makes (R407; log entry 7). -/
opaque identitySign (msg : Bytes) : Bytes

/-- The ML-KEM-1024 encapsulation key of a seed d ∥ z (R111; log entry 7). -/
opaque kemPublic (seed : BitVec 512) : Bytes

/-- ML-KEM-1024 decapsulation under a seed: the shared secret (R112; log entry 7). -/
opaque kemDecap (seed : BitVec 512) (ct : Bytes) : BitVec 256

/-- The ECDHE public share and shared secret of one SPDM key exchange, by draw (R407; log entry 7). -/
opaque ecdhPublic (draw : BitVec 512) : Bytes
opaque ecdhShared (draw : BitVec 512) (peer : Bytes) : Bytes

/-- The certificate chain of slot 0 that the part returns (R407; free values, log entry 8): a chain is never empty, so its first byte stands apart. -/
opaque certFirst : Byte
opaque certRest : Bytes
def certChain : Bytes := certFirst :: certRest

/-- The boot ROM's content (R407, measurement 1; free value, log entry 8). -/
opaque bootRom : Bytes

/-- The verify data of an SPDM key exchange and its FINISH, from its secret and transcript (R407; log entries 7 and 104). -/
opaque spdmMac (requester : Bool) (secret transcript : Bytes) : Bytes

/-- The heartbeat period the part offers in KEY_EXCHANGE_RSP (R407 gives none; log entry 104). -/
opaque heartbeatPeriod : BitVec 8

/-- The I3C provisional id of this part, 48 bits, and its device characteristics (R412 gives none; log entry 106). -/
opaque i3cPid : Nat
opaque i3cDcr : BitVec 8

/-- Do both signatures of a firmware image verify under a Skovward signer of the boot ROM (R451; log entries 7 and 94). -/
opaque firmwareVerifies (image : Bytes) : Bool

end Sys2Proof.Config
end

