-- ==== Sys2Proof/Machine/EventMap.lean ====
section
/-! DEFINITION. The event codes of the spec's event tables, with their severity and evidence flag. -/
namespace Sys2Proof.Machine

namespace Ev
/-- LANE_LOS, WARN. -/
def LANE_LOS : Nat := 0x0101
/-- LANE_LOL, WARN. -/
def LANE_LOL : Nat := 0x0102
/-- LANE_TRAIN_FAIL, ERROR. -/
def LANE_TRAIN_FAIL : Nat := 0x0103
/-- PORT_DOWN, WARN. -/
def PORT_DOWN : Nat := 0x0104
/-- PORT_UP, INFO. -/
def PORT_UP : Nat := 0x0105
/-- REV_DETECT, NOTICE. -/
def REV_DETECT : Nat := 0x0106
/-- POL_CORRECTED, INFO. -/
def POL_CORRECTED : Nat := 0x0107
/-- TX_UNDERRUN, WARN. -/
def TX_UNDERRUN : Nat := 0x0108
/-- EYE_SCAN_DONE, INFO. -/
def EYE_SCAN_DONE : Nat := 0x0109
/-- PRBS_DONE, INFO. -/
def PRBS_DONE : Nat := 0x010A
/-- LANE_LOF, WARN. -/
def LANE_LOF : Nat := 0x0201
/-- LANE_LOM, WARN. -/
def LANE_LOM : Nat := 0x0202
/-- TRUNK_DOWN, ERROR. -/
def TRUNK_DOWN : Nat := 0x0203
/-- TRUNK_UP, INFO. -/
def TRUNK_UP : Nat := 0x0204
/-- TRUNK_MISMATCH, ERROR. -/
def TRUNK_MISMATCH : Nat := 0x0205
/-- SKEW_EXCEEDED, ERROR. -/
def SKEW_EXCEEDED : Nat := 0x0206
/-- RDI_RX, WARN. -/
def RDI_RX : Nat := 0x0207
/-- SWREQ_CHANGE, NOTICE. -/
def SWREQ_CHANGE : Nat := 0x0208
/-- LOD, WARN. -/
def LOD : Nat := 0x0209
/-- EPOCH_SWITCH, INFO. -/
def EPOCH_SWITCH : Nat := 0x020A
/-- EPOCH_REJECT, ERROR. -/
def EPOCH_REJECT : Nat := 0x020B
/-- MERGE_PATH_LOST, NOTICE. -/
def MERGE_PATH_LOST : Nat := 0x020C
/-- MERGE_HOLD_FULL, WARN. -/
def MERGE_HOLD_FULL : Nat := 0x020D
/-- CONTENDED_LEARN, NOTICE. -/
def CONTENDED_LEARN : Nat := 0x0301
/-- STATION_MOVE, INFO. -/
def STATION_MOVE : Nat := 0x0302
/-- TABLE_FULL, WARN. -/
def TABLE_FULL : Nat := 0x0303
/-- STATIC_CONFLICT, NOTICE, security-class. -/
def STATIC_CONFLICT : Nat := 0x0304
/-- TABLE_ECC, ERROR. -/
def TABLE_ECC : Nat := 0x0305
/-- COMPARE_DONE, INFO. -/
def COMPARE_DONE : Nat := 0x0306
/-- GALLERY_FAULT, ERROR. -/
def GALLERY_FAULT : Nat := 0x0401
/-- STEP_LIMIT, WARN. -/
def STEP_LIMIT : Nat := 0x0402
/-- SCREEN_TIMEOUT, ERROR. -/
def SCREEN_TIMEOUT : Nat := 0x0403
/-- EPOCH_ACTIVE, INFO. -/
def EPOCH_ACTIVE : Nat := 0x0404
/-- EPOCH_FREED, INFO. -/
def EPOCH_FREED : Nat := 0x0405
/-- TAG_STALL, NOTICE. -/
def TAG_STALL : Nat := 0x0406
/-- GALLERY_ONLINE, INFO. -/
def GALLERY_ONLINE : Nat := 0x0407
/-- ECC_CORRECTED, INFO. -/
def ECC_CORRECTED : Nat := 0x0408
/-- PROG_FAULT, WARN. -/
def PROG_FAULT : Nat := 0x0409
/-- KEY_CHANGE_REQUEST, NOTICE. -/
def KEY_CHANGE_REQUEST : Nat := 0x0410
/-- KEY_SWITCHED, INFO. -/
def KEY_SWITCHED : Nat := 0x0411
/-- ASSOC_STOPPED, ERROR. -/
def ASSOC_STOPPED : Nat := 0x0412
/-- SA_DRAINED, INFO. -/
def SA_DRAINED : Nat := 0x0413
/-- SLOT_BAD, ERROR, security-class. -/
def SLOT_BAD : Nat := 0x0501
/-- KEY_EXPIRED, NOTICE. -/
def KEY_EXPIRED : Nat := 0x0502
/-- KEK_INVALID, WARN. -/
def KEK_INVALID : Nat := 0x0503
/-- BLOB_BAD, ERROR, security-class. -/
def BLOB_BAD : Nat := 0x0504
/-- CASCADE_DONE, INFO. -/
def CASCADE_DONE : Nat := 0x0505
/-- CACHE_FULL, WARN. -/
def CACHE_FULL : Nat := 0x0506
/-- STANDING_FAIL, ERROR, security-class. -/
def STANDING_FAIL : Nat := 0x0507
/-- VAULT_ERASED, CRITICAL, security-class. -/
def VAULT_ERASED : Nat := 0x0508
/-- DEEP_REBUILT, INFO. -/
def DEEP_REBUILT : Nat := 0x0509
/-- GEN_END, ERROR. -/
def GEN_END : Nat := 0x050A
/-- TG_LIST_ACTIVE, INFO. -/
def TG_LIST_ACTIVE : Nat := 0x0601
/-- TG_GUARD, WARN. -/
def TG_GUARD : Nat := 0x0602
/-- TG_STALE_STATE, ERROR. -/
def TG_STALE_STATE : Nat := 0x0603
/-- RESERVED_FULL, ERROR. -/
def RESERVED_FULL : Nat := 0x0604
/-- PAUSE_LONG, WARN. -/
def PAUSE_LONG : Nat := 0x0605
/-- MEM_CHECK_FAIL, ERROR, security-class. -/
def MEM_CHECK_FAIL : Nat := 0x0610
/-- MEM_KEY_CHANGED, INFO. -/
def MEM_KEY_CHANGED : Nat := 0x0611
/-- SCRUB_DONE, INFO. -/
def SCRUB_DONE : Nat := 0x0612
/-- HBM_FAULT, CRITICAL, security-class. -/
def HBM_FAULT : Nat := 0x0613
/-- MEM_ECC_CORRECTED, INFO. -/
def MEM_ECC_CORRECTED : Nat := 0x0614
/-- GATE_BADSIG, WARN, security-class. -/
def GATE_BADSIG : Nat := 0x0701
/-- GATE_REPLAY, WARN, security-class. -/
def GATE_REPLAY : Nat := 0x0702
/-- GATE_UNSIGNED, NOTICE. -/
def GATE_UNSIGNED : Nat := 0x0703
/-- GATE_RATE, NOTICE. -/
def GATE_RATE : Nat := 0x0704
/-- GATE_KEY_ADDED, NOTICE, security-class. -/
def GATE_KEY_ADDED : Nat := 0x0705
/-- GATE_KEY_REVOKED, NOTICE, security-class. -/
def GATE_KEY_REVOKED : Nat := 0x0706
/-- PKE_FAULT, ERROR, security-class. -/
def PKE_FAULT : Nat := 0x0707
/-- TIME_STEP, NOTICE. -/
def TIME_STEP : Nat := 0x0801
/-- TIME_LOCK, INFO. -/
def TIME_LOCK : Nat := 0x0802
/-- TIME_HOLDOVER, WARN. -/
def TIME_HOLDOVER : Nat := 0x0803
/-- LINE_SD, WARN. -/
def LINE_SD : Nat := 0x0804
/-- LINE_SD_CLEAR, INFO. -/
def LINE_SD_CLEAR : Nat := 0x0805
/-- RCLK_SQUELCH, WARN. -/
def RCLK_SQUELCH : Nat := 0x0806
/-- ROLE_ACTIVE, NOTICE. -/
def ROLE_ACTIVE : Nat := 0x0901
/-- ROLE_YIELD, WARN. -/
def ROLE_YIELD : Nat := 0x0902
/-- PEER_SILENT, WARN. -/
def PEER_SILENT : Nat := 0x0903
/-- PEER_ALIVE, INFO. -/
def PEER_ALIVE : Nat := 0x0904
/-- ROLE_OVERLAP, ERROR, security-class. -/
def ROLE_OVERLAP : Nat := 0x0905
/-- RESYNC_DONE, INFO. -/
def RESYNC_DONE : Nat := 0x0906
/-- RESYNC_FAIL, ERROR. -/
def RESYNC_FAIL : Nat := 0x0907
/-- XC_AUTH_FAIL, WARN, security-class. -/
def XC_AUTH_FAIL : Nat := 0x0908
/-- TWIN_STRAP_CONFLICT, ERROR. -/
def TWIN_STRAP_CONFLICT : Nat := 0x0909
/-- HEWER_UP, INFO. -/
def HEWER_UP : Nat := 0x090A
/-- HEWER_LOST, WARN. -/
def HEWER_LOST : Nat := 0x090B
/-- HEWER_REFUSED, WARN, security-class. -/
def HEWER_REFUSED : Nat := 0x090C
/-- OVERMAN_LOST, WARN. -/
def OVERMAN_LOST : Nat := 0x090D
/-- BLOB_SENT, INFO. -/
def BLOB_SENT : Nat := 0x090E
/-- ROLE_REFUSED, WARN. -/
def ROLE_REFUSED : Nat := 0x0910
/-- MP_ACCEPTED, INFO. -/
def MP_ACCEPTED : Nat := 0x0A01
/-- MP_REFUSED, WARN, security-class. -/
def MP_REFUSED : Nat := 0x0A02
/-- MP_ABORTED, NOTICE. -/
def MP_ABORTED : Nat := 0x0A03
/-- ORDER_DONE, INFO. -/
def ORDER_DONE : Nat := 0x0A04
/-- REG_WRITE_IGNORED, WARN. -/
def REG_WRITE_IGNORED : Nat := 0x0A05
/-- ACCESS_VIOLATION, WARN, security-class. -/
def ACCESS_VIOLATION : Nat := 0x0A06
/-- TOKEN_FAULT, NOTICE. -/
def TOKEN_FAULT : Nat := 0x0A07
/-- FN_RESET, NOTICE. -/
def FN_RESET : Nat := 0x0A08
/-- IDE_FAIL, ERROR, security-class. -/
def IDE_FAIL : Nat := 0x0A09
/-- ACCESS_CHANGED, NOTICE, security-class. -/
def ACCESS_CHANGED : Nat := 0x0A0A
/-- SPDM_SESSION, INFO. -/
def SPDM_SESSION : Nat := 0x0A0B
/-- MODE_CHANGE, INFO. -/
def MODE_CHANGE : Nat := 0x0A0C
/-- LIFECYCLE_CHANGE, NOTICE, security-class. -/
def LIFECYCLE_CHANGE : Nat := 0x0A0D
/-- RESET, NOTICE, security-class. -/
def RESET : Nat := 0x0A0E
/-- STARTUP_FAIL, ERROR, security-class. -/
def STARTUP_FAIL : Nat := 0x0A0F
/-- FW_SELECTED, INFO. -/
def FW_SELECTED : Nat := 0x0A10
/-- PROFILE_SAVED, INFO. -/
def PROFILE_SAVED : Nat := 0x0A11
/-- PROFILE_BAD, ERROR, security-class. -/
def PROFILE_BAD : Nat := 0x0A12
/-- ATTIC_COUNTER_END, ERROR. -/
def ATTIC_COUNTER_END : Nat := 0x0A13
/-- ATTIC_REMAP, NOTICE. -/
def ATTIC_REMAP : Nat := 0x0A14
/-- ATTIC_READONLY, CRITICAL, security-class. -/
def ATTIC_READONLY : Nat := 0x0A15
/-- SUPPLY_DIP, NOTICE. -/
def SUPPLY_DIP : Nat := 0x0B01
/-- CAUTION_LONG, WARN. -/
def CAUTION_LONG : Nat := 0x0B02
/-- SUPPLY_GLITCH, CRITICAL, security-class. -/
def SUPPLY_GLITCH : Nat := 0x0B03
/-- SUPPLY_RESET, ERROR, security-class. -/
def SUPPLY_RESET : Nat := 0x0B04
/-- CLOCK_FAULT, ERROR. -/
def CLOCK_FAULT : Nat := 0x0B05
/-- CLOCK_GLITCH, CRITICAL, security-class. -/
def CLOCK_GLITCH : Nat := 0x0B06
/-- TEMP_WARN, WARN. -/
def TEMP_WARN : Nat := 0x0B07
/-- TEMP_HIGH, ERROR. -/
def TEMP_HIGH : Nat := 0x0B08
/-- TEMP_LOW, ERROR, security-class. -/
def TEMP_LOW : Nat := 0x0B09
/-- SHIELD_BREAK, CRITICAL, security-class. -/
def SHIELD_BREAK : Nat := 0x0B0A
/-- TAMPER_LOOP, CRITICAL, security-class. -/
def TAMPER_LOOP : Nat := 0x0B0B
/-- SHADOW_MISMATCH, CRITICAL, security-class. -/
def SHADOW_MISMATCH : Nat := 0x0B0C
/-- FOREMAN_LOCKSTEP, CRITICAL, security-class. -/
def FOREMAN_LOCKSTEP : Nat := 0x0B0D
/-- DEBUG_REFUSED, WARN, security-class. -/
def DEBUG_REFUSED : Nat := 0x0B0E
/-- VBAT_LOW, WARN. -/
def VBAT_LOW : Nat := 0x0B0F
/-- ALARM, ERROR for L1–L2, CRITICAL for L3–L4, security-class. -/
def ALARM : Nat := 0x0B10
/-- ROOT_ERASED, CRITICAL, security-class. -/
def ROOT_ERASED : Nat := 0x0B11
/-- EVIDENCE_LOST, CRITICAL. -/
def EVIDENCE_LOST : Nat := 0x0B12
/-- TAIL_MOVED, INFO. -/
def TAIL_MOVED : Nat := 0x0B13
/-- LAMP_LOST, ERROR, security-class. -/
def LAMP_LOST : Nat := 0x0B14
/-- TALLY_TORN, WARN. -/
def TALLY_TORN : Nat := 0x0B15
/-- ALARM_CLEARED, NOTICE. -/
def ALARM_CLEARED : Nat := 0x0B16
/-- RTC_STOP, WARN, security-class. -/
def RTC_STOP : Nat := 0x0B17
/-- COUNTER_HALF of a subsystem (R312). -/
def COUNTER_HALF (sub : Nat) : Nat := sub * 0x100 + 0xF0

end Ev

def evRows0 : List (Nat × Nat × Bool) := [
  (0x0101, 2, false), (0x0102, 2, false), (0x0103, 3, false), (0x0104, 2, false), (0x0105, 0, false), (0x0106, 1, false), (0x0107, 0, false), (0x0108, 2, false), (0x0109, 0, false), (0x010A, 0, false), (0x0201, 2, false), (0x0202, 2, false), (0x0203, 3, false), (0x0204, 0, false), (0x0205, 3, false), (0x0206, 3, false), (0x0207, 2, false), (0x0208, 1, false), (0x0209, 2, false), (0x020A, 0, false), (0x020B, 3, false), (0x020C, 1, false), (0x020D, 2, false), (0x0301, 1, false), (0x0302, 0, false), (0x0303, 2, false), (0x0304, 1, true), (0x0305, 3, false), (0x0306, 0, false), (0x0401, 3, false)]
def evRows1 : List (Nat × Nat × Bool) := [
  (0x0402, 2, false), (0x0403, 3, false), (0x0404, 0, false), (0x0405, 0, false), (0x0406, 1, false), (0x0407, 0, false), (0x0408, 0, false), (0x0409, 2, false), (0x0410, 1, false), (0x0411, 0, false), (0x0412, 3, false), (0x0413, 0, false), (0x0501, 3, true), (0x0502, 1, false), (0x0503, 2, false), (0x0504, 3, true), (0x0505, 0, false), (0x0506, 2, false), (0x0507, 3, true), (0x0508, 4, true), (0x0509, 0, false), (0x050A, 3, false), (0x0601, 0, false), (0x0602, 2, false), (0x0603, 3, false), (0x0604, 3, false), (0x0605, 2, false), (0x0610, 3, true), (0x0611, 0, false), (0x0612, 0, false)]
def evRows2 : List (Nat × Nat × Bool) := [
  (0x0613, 4, true), (0x0614, 0, false), (0x0701, 2, true), (0x0702, 2, true), (0x0703, 1, false), (0x0704, 1, false), (0x0705, 1, true), (0x0706, 1, true), (0x0707, 3, true), (0x0801, 1, false), (0x0802, 0, false), (0x0803, 2, false), (0x0804, 2, false), (0x0805, 0, false), (0x0806, 2, false), (0x0901, 1, false), (0x0902, 2, false), (0x0903, 2, false), (0x0904, 0, false), (0x0905, 3, true), (0x0906, 0, false), (0x0907, 3, false), (0x0908, 2, true), (0x0909, 3, false), (0x090A, 0, false), (0x090B, 2, false), (0x090C, 2, true), (0x090D, 2, false), (0x090E, 0, false), (0x0910, 2, false)]
def evRows3 : List (Nat × Nat × Bool) := [
  (0x0A01, 0, false), (0x0A02, 2, true), (0x0A03, 1, false), (0x0A04, 0, false), (0x0A05, 2, false), (0x0A06, 2, true), (0x0A07, 1, false), (0x0A08, 1, false), (0x0A09, 3, true), (0x0A0A, 1, true), (0x0A0B, 0, false), (0x0A0C, 0, false), (0x0A0D, 1, true), (0x0A0E, 1, true), (0x0A0F, 3, true), (0x0A10, 0, false), (0x0A11, 0, false), (0x0A12, 3, true), (0x0A13, 3, false), (0x0A14, 1, false), (0x0A15, 4, true), (0x0B01, 1, false), (0x0B02, 2, false), (0x0B03, 4, true), (0x0B04, 3, true), (0x0B05, 3, false), (0x0B06, 4, true), (0x0B07, 2, false), (0x0B08, 3, false), (0x0B09, 3, true)]
def evRows4 : List (Nat × Nat × Bool) := [
  (0x0B0A, 4, true), (0x0B0B, 4, true), (0x0B0C, 4, true), (0x0B0D, 4, true), (0x0B0E, 2, true), (0x0B0F, 2, false), (0x0B10, 3, true), (0x0B11, 4, true), (0x0B12, 4, false), (0x0B13, 0, false), (0x0B14, 3, true), (0x0B15, 2, false), (0x0B16, 1, false), (0x0B17, 2, true)]
/-- Code, severity (0 INFO to 4 CRITICAL) and evidence flag of every event the tables list. -/
def evRows : List (Nat × Nat × Bool) := evRows0 ++ evRows1 ++ evRows2 ++ evRows3 ++ evRows4

/-- Severity and evidence flag of a code; a code that no table lists (COUNTER_HALF) is INFO and no evidence. -/
def evInfo (code : Nat) : Nat × Bool :=
  match evRows.find? (fun r => r.1 == code) with
  | some r => r.2
  | none => (0, false)

end Sys2Proof.Machine
end

