-- ==== Sys2Proof/Machine/RegMap.lean ====
section
/-! DEFINITION. The register map of PF BAR0: where every register of the spec's register tables lies, its fields, their types and reset values. -/
namespace Sys2Proof.Machine

namespace Reg

/-- HST_ID (Table 00.2). -/
def HST_ID : Nat := 0x0
/-- GAL_PRESENT (Table 00.3). -/
def GAL_PRESENT : Nat := 0x700000
/-- MSC_PORT_CFG (Table 02.11). -/
def MSC_PORT_CFG (i : Nat) : Nat := 0x500000 + 0x100 * i
/-- MSC_PORT_SCI (Table 02.12). -/
def MSC_PORT_SCI (i : Nat) : Nat := 0x500008 + 0x100 * i
/-- MSC_TPID (Table 02.13). -/
def MSC_TPID : Nat := 0x502000
/-- LFR_TRUNK_LANES (Table 03.12). -/
def LFR_TRUNK_LANES (i j : Nat) : Nat := 0x400008 + 0x100 * i + 0x8 * j
/-- LFR_TRUNK_SWREQ (Table 03.12). -/
def LFR_TRUNK_SWREQ (i : Nat) : Nat := 0x400018 + 0x100 * i
/-- LFR_TRUNK_SD (Table 03.12). -/
def LFR_TRUNK_SD (i : Nat) : Nat := 0x400018 + 0x100 * i
/-- LFR_TRUNK_STATUS (Table 03.12). -/
def LFR_TRUNK_STATUS (i : Nat) : Nat := 0x400020 + 0x100 * i
/-- LFR_TRUNK_EPOCH (Table 03.12). -/
def LFR_TRUNK_EPOCH (i : Nat) : Nat := 0x400028 + 0x100 * i
/-- LFR_TRIB_CFG (Table 03.13). -/
def LFR_TRIB_CFG (i j : Nat) : Nat := 0x402000 + 0x2000 * i + 0x40 * j
/-- LFR_TUB_FLUSH (Table 03.14). -/
def LFR_TUB_FLUSH : Nat := 0x406000
/-- SRM_CFG (Table 04.15). -/
def SRM_CFG : Nat := 0x800000
/-- SRM_STATUS (Table 04.16). -/
def SRM_STATUS : Nat := 0x800008
/-- SRM_CNT_MISS (Table 04.17). -/
def SRM_CNT_MISS : Nat := 0x800100
/-- SRM_CNT_FILL (Table 04.17). -/
def SRM_CNT_FILL : Nat := 0x800108
/-- SRM_CNT_EVICT (Table 04.17). -/
def SRM_CNT_EVICT : Nat := 0x800110
/-- SRM_CNT_KEK_INVALID (Table 04.17). -/
def SRM_CNT_KEK_INVALID : Nat := 0x800118
/-- SRM_CNT_BLOB_BAD (Table 04.17). -/
def SRM_CNT_BLOB_BAD : Nat := 0x800120
/-- SRM_CNT_SLOT_BAD (Table 04.17). -/
def SRM_CNT_SLOT_BAD : Nat := 0x800128
/-- GAL_ONLINE (Table 05.14). -/
def GAL_ONLINE : Nat := 0x700008
/-- GAL_CFG (Table 05.15). -/
def GAL_CFG : Nat := 0x700010
/-- GAL_EPOCH (Table 05.16). -/
def GAL_EPOCH : Nat := 0x700018
/-- GAL_EPOCH_INFLIGHT (Table 05.16). -/
def GAL_EPOCH_INFLIGHT (i : Nat) : Nat := 0x700020 + 0x8 * i
/-- GAL_TAGS (Table 05.17). -/
def GAL_TAGS : Nat := 0x700040
/-- GAL_DOM_CFG (Table 05.18). -/
def GAL_DOM_CFG (i : Nat) : Nat := 0x701000 + 0x10 * i
/-- GAL_DOM_STATUS (Table 05.18). -/
def GAL_DOM_STATUS (i : Nat) : Nat := 0x701008 + 0x10 * i
/-- GAL_CNT_DISPATCH (Table 05.19). -/
def GAL_CNT_DISPATCH : Nat := 0x702000
/-- GAL_CNT_STALL (Table 05.19). -/
def GAL_CNT_STALL : Nat := 0x702008
/-- GAL_CNT_AUTH_FAIL (Table 05.19). -/
def GAL_CNT_AUTH_FAIL : Nat := 0x702010
/-- GAL_CNT_STEP_LIMIT (Table 05.19). -/
def GAL_CNT_STEP_LIMIT : Nat := 0x702018
/-- GAL_CNT_SCREEN_TMO (Table 05.19). -/
def GAL_CNT_SCREEN_TMO : Nat := 0x702020
/-- GAL_CNT_FAULT (Table 05.19). -/
def GAL_CNT_FAULT : Nat := 0x702028
/-- GAL_CNT_ECC_CORR (Table 05.19). -/
def GAL_CNT_ECC_CORR : Nat := 0x702030
/-- GAL_CNT_LA_JOB (Table 05.19). -/
def GAL_CNT_LA_JOB : Nat := 0x702038
/-- GAL_CNT_PROG_FAULT (Table 06.19). -/
def GAL_CNT_PROG_FAULT : Nat := 0x702040
/-- TBL_STAMP (Table 08.10). -/
def TBL_STAMP : Nat := 0x600008
/-- TBL_STATUS (Table 08.10). -/
def TBL_STATUS : Nat := 0x600010
/-- TBL_PORT_CFG (Table 08.11). -/
def TBL_PORT_CFG (i : Nat) : Nat := 0x600100 + 0x8 * i
/-- TBL_CNT_LEARN (Table 08.12). -/
def TBL_CNT_LEARN : Nat := 0x601000
/-- TBL_CNT_MOVE (Table 08.12). -/
def TBL_CNT_MOVE : Nat := 0x601008
/-- TBL_CNT_CONTENDED (Table 08.12). -/
def TBL_CNT_CONTENDED : Nat := 0x601010
/-- TBL_CNT_STATIC_CONFLICT (Table 08.12). -/
def TBL_CNT_STATIC_CONFLICT : Nat := 0x601018
/-- TBL_CNT_LEARN_FULL (Table 08.12). -/
def TBL_CNT_LEARN_FULL : Nat := 0x601020
/-- TBL_CNT_LEARN_OVF (Table 08.12). -/
def TBL_CNT_LEARN_OVF : Nat := 0x601028
/-- TBL_CNT_ECC_CORR (Table 08.12). -/
def TBL_CNT_ECC_CORR : Nat := 0x601030
/-- TBL_CNT_ECC_UNCORR (Table 08.12). -/
def TBL_CNT_ECC_UNCORR : Nat := 0x601038
/-- TBL_CNT_ACACHE_MISS (Table 08.12). -/
def TBL_CNT_ACACHE_MISS : Nat := 0x601040
/-- TBL_CFG (Table 08.9). -/
def TBL_CFG : Nat := 0x600000
/-- WND_POOL_STATUS (Table 09.10). -/
def WND_POOL_STATUS : Nat := 0x900000
/-- WND_TG_CFG (Table 09.10). -/
def WND_TG_CFG : Nat := 0x900008
/-- WND_DN_CFG (Table 09.10). -/
def WND_DN_CFG : Nat := 0x900010
/-- WND_PFC_CFG (Table 09.10). -/
def WND_PFC_CFG (i : Nat) : Nat := 0x900100 + 0x8 * i
/-- WND_TG_STATUS (Table 09.10). -/
def WND_TG_STATUS (i : Nat) : Nat := 0x900200 + 0x10 * i
/-- Q_LIMITS (Table 09.11). -/
def Q_LIMITS (i : Nat) : Nat := 0x901000 + 0x80 * i
/-- Q_FLOW (Table 09.11). -/
def Q_FLOW (i : Nat) : Nat := 0x901008 + 0x80 * i
/-- Q_SCHED (Table 09.11). -/
def Q_SCHED (i : Nat) : Nat := 0x901010 + 0x80 * i
/-- Q_STATUS (Table 09.11). -/
def Q_STATUS (i : Nat) : Nat := 0x901018 + 0x80 * i
/-- Q_CNT_TX_FRAMES (Table 09.11). -/
def Q_CNT_TX_FRAMES (i : Nat) : Nat := 0x901020 + 0x80 * i
/-- Q_CNT_TX_BYTES (Table 09.11). -/
def Q_CNT_TX_BYTES (i : Nat) : Nat := 0x901028 + 0x80 * i
/-- Q_CNT_DROP_FULL (Table 09.11). -/
def Q_CNT_DROP_FULL (i : Nat) : Nat := 0x901030 + 0x80 * i
/-- Q_CNT_DROP_YELLOW (Table 09.11). -/
def Q_CNT_DROP_YELLOW (i : Nat) : Nat := 0x901038 + 0x80 * i
/-- Q_CNT_DROP_STALE (Table 09.11). -/
def Q_CNT_DROP_STALE (i : Nat) : Nat := 0x901040 + 0x80 * i
/-- Q_CNT_DROP_MEMCHECK (Table 09.11). -/
def Q_CNT_DROP_MEMCHECK (i : Nat) : Nat := 0x901048 + 0x80 * i
/-- Q_CNT_DROP_OTHER (Table 09.11). -/
def Q_CNT_DROP_OTHER (i : Nat) : Nat := 0x901050 + 0x80 * i
/-- Q_CNT_PAUSED_US (Table 09.11). -/
def Q_CNT_PAUSED_US (i : Nat) : Nat := 0x901058 + 0x80 * i
/-- WND_CNT_DN_SENT (Table 09.12). -/
def WND_CNT_DN_SENT : Nat := 0x900020
/-- WND_CNT_DN_SUPPRESSED (Table 09.12). -/
def WND_CNT_DN_SUPPRESSED : Nat := 0x900028
/-- WND_SHP_CREDIT (Table 09.12). -/
def WND_SHP_CREDIT (i : Nat) : Nat := 0x930000 + 0x8 * i
/-- WND_CNT_PORT_DROP (Table 09.12). -/
def WND_CNT_PORT_DROP (i j : Nat) : Nat := 0x940000 + 0x100 * i + 0x8 * j
/-- MEM_CFG (Table 10.5). -/
def MEM_CFG : Nat := 0xA00000
/-- MEM_STATUS (Table 10.5). -/
def MEM_STATUS : Nat := 0xA00008
/-- MEM_POISON_LAST (Table 10.5). -/
def MEM_POISON_LAST : Nat := 0xA00010
/-- MEM_REGION (Table 10.5). -/
def MEM_REGION (i : Nat) : Nat := 0xA00100 + 0x8 * i
/-- MEM_KEY_STATUS (Table 10.5). -/
def MEM_KEY_STATUS (i : Nat) : Nat := 0xA00200 + 0x8 * i
/-- MEM_START (Table 10.5). -/
def MEM_START (i : Nat) : Nat := 0xA01000 + 0x8 * i
/-- MEM_CNT_ECC_CORR (Table 10.6). -/
def MEM_CNT_ECC_CORR : Nat := 0xA02000
/-- MEM_CNT_CHECK_FAIL (Table 10.6). -/
def MEM_CNT_CHECK_FAIL : Nat := 0xA02008
/-- MEM_CNT_PARTIAL (Table 10.6). -/
def MEM_CNT_PARTIAL : Nat := 0xA02010
/-- MEM_CNT_COALESCED (Table 10.6). -/
def MEM_CNT_COALESCED : Nat := 0xA02018
/-- MEM_CNT_WITHHELD (Table 10.6). -/
def MEM_CNT_WITHHELD : Nat := 0xA02020
/-- MEM_CNT_NO_KEY (Table 10.6). -/
def MEM_CNT_NO_KEY : Nat := 0xA02028
/-- MEM_CNT_SCRUBBED (Table 10.6). -/
def MEM_CNT_SCRUBBED : Nat := 0xA02030
/-- MAC_PORT_CFG (Table 11.10). -/
def MAC_PORT_CFG (i : Nat) : Nat := 0x300000 + 0x1000 * i
/-- MAC_PORT_STATUS (Table 11.10). -/
def MAC_PORT_STATUS (i : Nat) : Nat := 0x300008 + 0x1000 * i
/-- MAC_CNT_RX_FRAMES_OK (Table 11.10). -/
def MAC_CNT_RX_FRAMES_OK (i : Nat) : Nat := 0x300100 + 0x1000 * i
/-- MAC_CNT_RX_OCTETS_OK (Table 11.10). -/
def MAC_CNT_RX_OCTETS_OK (i : Nat) : Nat := 0x300108 + 0x1000 * i
/-- MAC_CNT_RX_UCAST (Table 11.10). -/
def MAC_CNT_RX_UCAST (i : Nat) : Nat := 0x300110 + 0x1000 * i
/-- MAC_CNT_RX_MCAST (Table 11.10). -/
def MAC_CNT_RX_MCAST (i : Nat) : Nat := 0x300118 + 0x1000 * i
/-- MAC_CNT_RX_BCAST (Table 11.10). -/
def MAC_CNT_RX_BCAST (i : Nat) : Nat := 0x300120 + 0x1000 * i
/-- MAC_CNT_RX_PAUSE (Table 11.10). -/
def MAC_CNT_RX_PAUSE (i : Nat) : Nat := 0x300128 + 0x1000 * i
/-- MAC_CNT_RX_PFC (Table 11.10). -/
def MAC_CNT_RX_PFC (i j : Nat) : Nat := 0x300130 + 0x1000 * i + 0x8 * j
/-- MAC_CNT_RX_SIZE (Table 11.10). -/
def MAC_CNT_RX_SIZE (i j : Nat) : Nat := 0x300170 + 0x1000 * i + 0x8 * j
/-- MAC_CNT_RX_FCS_ERR (Table 11.10). -/
def MAC_CNT_RX_FCS_ERR (i : Nat) : Nat := 0x3001C0 + 0x1000 * i
/-- MAC_CNT_RX_RUNT (Table 11.10). -/
def MAC_CNT_RX_RUNT (i : Nat) : Nat := 0x3001C8 + 0x1000 * i
/-- MAC_CNT_RX_FRAGMENT (Table 11.10). -/
def MAC_CNT_RX_FRAGMENT (i : Nat) : Nat := 0x3001D0 + 0x1000 * i
/-- MAC_CNT_RX_OVERSIZE (Table 11.10). -/
def MAC_CNT_RX_OVERSIZE (i : Nat) : Nat := 0x3001D8 + 0x1000 * i
/-- MAC_CNT_RX_JABBER (Table 11.10). -/
def MAC_CNT_RX_JABBER (i : Nat) : Nat := 0x3001E0 + 0x1000 * i
/-- MAC_CNT_RX_CODE_ERR (Table 11.10). -/
def MAC_CNT_RX_CODE_ERR (i : Nat) : Nat := 0x3001E8 + 0x1000 * i
/-- MAC_CNT_RX_CTRL_DISCARD (Table 11.10). -/
def MAC_CNT_RX_CTRL_DISCARD (i : Nat) : Nat := 0x3001F0 + 0x1000 * i
/-- MAC_CNT_TX_FRAMES_OK (Table 11.10). -/
def MAC_CNT_TX_FRAMES_OK (i : Nat) : Nat := 0x300200 + 0x1000 * i
/-- MAC_CNT_TX_OCTETS_OK (Table 11.10). -/
def MAC_CNT_TX_OCTETS_OK (i : Nat) : Nat := 0x300208 + 0x1000 * i
/-- MAC_CNT_TX_UCAST (Table 11.10). -/
def MAC_CNT_TX_UCAST (i : Nat) : Nat := 0x300210 + 0x1000 * i
/-- MAC_CNT_TX_MCAST (Table 11.10). -/
def MAC_CNT_TX_MCAST (i : Nat) : Nat := 0x300218 + 0x1000 * i
/-- MAC_CNT_TX_BCAST (Table 11.10). -/
def MAC_CNT_TX_BCAST (i : Nat) : Nat := 0x300220 + 0x1000 * i
/-- MAC_CNT_TX_PFC (Table 11.10). -/
def MAC_CNT_TX_PFC (i j : Nat) : Nat := 0x300228 + 0x1000 * i + 0x8 * j
/-- MAC_CNT_TX_SIZE (Table 11.10). -/
def MAC_CNT_TX_SIZE (i j : Nat) : Nat := 0x300268 + 0x1000 * i + 0x8 * j
/-- MAC_CNT_TX_UNDERRUN (Table 11.10). -/
def MAC_CNT_TX_UNDERRUN (i : Nat) : Nat := 0x3002B8 + 0x1000 * i
/-- MAC_CNT_TX_FCS_INVERTED (Table 11.10). -/
def MAC_CNT_TX_FCS_INVERTED (i : Nat) : Nat := 0x3002C0 + 0x1000 * i
/-- LAN_LANE_CFG (Table 11.8). -/
def LAN_LANE_CFG (i : Nat) : Nat := 0x200000 + 0x100 * i
/-- LAN_LANE_STATUS (Table 11.8). -/
def LAN_LANE_STATUS (i : Nat) : Nat := 0x200008 + 0x100 * i
/-- LAN_CNT_CW (Table 11.8). -/
def LAN_CNT_CW (i : Nat) : Nat := 0x200040 + 0x100 * i
/-- LAN_CNT_CW_CORR (Table 11.8). -/
def LAN_CNT_CW_CORR (i : Nat) : Nat := 0x200048 + 0x100 * i
/-- LAN_CNT_CW_UNCORR (Table 11.8). -/
def LAN_CNT_CW_UNCORR (i : Nat) : Nat := 0x200050 + 0x100 * i
/-- LAN_CNT_SYM (Table 11.8). -/
def LAN_CNT_SYM (i : Nat) : Nat := 0x200058 + 0x100 * i
/-- LAN_CNT_LOS (Table 11.8). -/
def LAN_CNT_LOS (i : Nat) : Nat := 0x200060 + 0x100 * i
/-- LAN_CNT_LOL (Table 11.8). -/
def LAN_CNT_LOL (i : Nat) : Nat := 0x200068 + 0x100 * i
/-- LAN_CNT_PRBS_BITS (Table 11.8). -/
def LAN_CNT_PRBS_BITS (i : Nat) : Nat := 0x200070 + 0x100 * i
/-- LAN_CNT_PRBS_ERR (Table 11.8). -/
def LAN_CNT_PRBS_ERR (i : Nat) : Nat := 0x200078 + 0x100 * i
/-- LAN_CNT_HIST (Table 11.8). -/
def LAN_CNT_HIST (i j : Nat) : Nat := 0x200080 + 0x100 * i + 0x8 * j
/-- LAN_GRP_CFG (Table 11.9). -/
def LAN_GRP_CFG (i : Nat) : Nat := 0x208000 + 0x8 * i
/-- LAN_GRP_STATUS (Table 11.9). -/
def LAN_GRP_STATUS (i : Nat) : Nat := 0x208040 + 0x8 * i
/-- GATE_CFG (Table 12.7). -/
def GATE_CFG : Nat := 0xB00000
/-- GATE_STATUS (Table 12.7). -/
def GATE_STATUS : Nat := 0xB00008
/-- GATE_CNT_ACCEPT (Table 12.7). -/
def GATE_CNT_ACCEPT : Nat := 0xB00100
/-- GATE_CNT_UNSIGNED (Table 12.7). -/
def GATE_CNT_UNSIGNED : Nat := 0xB00108
/-- GATE_CNT_BADSIG (Table 12.7). -/
def GATE_CNT_BADSIG : Nat := 0xB00110
/-- GATE_CNT_REPLAY (Table 12.7). -/
def GATE_CNT_REPLAY : Nat := 0xB00118
/-- GATE_CNT_RATE (Table 12.7). -/
def GATE_CNT_RATE : Nat := 0xB00120
/-- GATE_CNT_TIMEOUT (Table 12.7). -/
def GATE_CNT_TIMEOUT : Nat := 0xB00128
/-- GATE_CNT_VERIFY (Table 12.7). -/
def GATE_CNT_VERIFY : Nat := 0xB00130
/-- GATE_FLOW_CFG (Table 12.8). -/
def GATE_FLOW_CFG (i : Nat) : Nat := 0xB10000 + 0x40 * i
/-- GATE_FLOW_RATE (Table 12.8). -/
def GATE_FLOW_RATE (i : Nat) : Nat := 0xB10008 + 0x40 * i
/-- GATE_FCNT_ACCEPT (Table 12.8). -/
def GATE_FCNT_ACCEPT (i : Nat) : Nat := 0xB10010 + 0x40 * i
/-- GATE_FCNT_UNSIGNED (Table 12.8). -/
def GATE_FCNT_UNSIGNED (i : Nat) : Nat := 0xB10018 + 0x40 * i
/-- GATE_FCNT_BADSIG (Table 12.8). -/
def GATE_FCNT_BADSIG (i : Nat) : Nat := 0xB10020 + 0x40 * i
/-- GATE_FCNT_REPLAY (Table 12.8). -/
def GATE_FCNT_REPLAY (i : Nat) : Nat := 0xB10028 + 0x40 * i
/-- GATE_FCNT_RATE (Table 12.8). -/
def GATE_FCNT_RATE (i : Nat) : Nat := 0xB10030 + 0x40 * i
/-- TIM_NOW (Table 13.5). -/
def TIM_NOW : Nat := 0xC00000
/-- TIM_STATUS (Table 13.5). -/
def TIM_STATUS : Nat := 0xC00008
/-- TIM_CFG (Table 13.5). -/
def TIM_CFG : Nat := 0xC00010
/-- TIM_RCLK (Table 13.5). -/
def TIM_RCLK : Nat := 0xC00018
/-- TIM_XC (Table 13.5). -/
def TIM_XC : Nat := 0xC00020
/-- TIM_MERGE_DIFF (Table 13.5). -/
def TIM_MERGE_DIFF (i : Nat) : Nat := 0xC01000 + 0x8 * i
/-- TIM_LANE_LQ (Table 13.5). -/
def TIM_LANE_LQ (i : Nat) : Nat := 0xC02000 + 0x8 * i
/-- TIM_QSAMPLE (Table 13.5). -/
def TIM_QSAMPLE (i : Nat) : Nat := 0xC04000 + 0x10 * i
/-- TIM_QSAMPLE_MAX (Table 13.5). -/
def TIM_QSAMPLE_MAX (i : Nat) : Nat := 0xC04008 + 0x10 * i
/-- TIM_CNT_PTP_CORR (Table 13.6). -/
def TIM_CNT_PTP_CORR : Nat := 0xC00100
/-- TIM_CNT_PTP_UNCORR (Table 13.6). -/
def TIM_CNT_PTP_UNCORR : Nat := 0xC00108
/-- TIM_CNT_PTP_LATE (Table 13.6). -/
def TIM_CNT_PTP_LATE : Nat := 0xC00110
/-- TWN_CFG (Table 14.15). -/
def TWN_CFG : Nat := 0xD00000
/-- TWN_STATUS (Table 14.15). -/
def TWN_STATUS : Nat := 0xD00008
/-- TWN_DOUT (Table 14.15). -/
def TWN_DOUT : Nat := 0xD00010
/-- TWN_DOUT_SRC (Table 14.15). -/
def TWN_DOUT_SRC : Nat := 0xD00018
/-- TWN_SHAFT_CFG (Table 14.15). -/
def TWN_SHAFT_CFG : Nat := 0xD00020
/-- TWN_SHAFT_MAC (Table 14.15). -/
def TWN_SHAFT_MAC : Nat := 0xD00028
/-- TWN_SHAFT_PEER (Table 14.15). -/
def TWN_SHAFT_PEER : Nat := 0xD00030
/-- TWN_XC_BIND (Table 14.15). -/
def TWN_XC_BIND (i : Nat) : Nat := 0xD00100 + 0x8 * i
/-- TWN_HEWER_STATUS (Table 14.15). -/
def TWN_HEWER_STATUS (i : Nat) : Nat := 0xD01000 + 0x8 * i
/-- TWN_ELIM_CFG (Table 14.15). -/
def TWN_ELIM_CFG (i : Nat) : Nat := 0xD02000 + 0x8 * i
/-- TWN_CNT_HB_MISS (Table 14.15). -/
def TWN_CNT_HB_MISS : Nat := 0xD04000
/-- TWN_CNT_SWITCH (Table 14.15). -/
def TWN_CNT_SWITCH : Nat := 0xD04008
/-- TWN_CNT_OVERLAP (Table 14.15). -/
def TWN_CNT_OVERLAP : Nat := 0xD04010
/-- TWN_CNT_XC_AUTH_FAIL (Table 14.15). -/
def TWN_CNT_XC_AUTH_FAIL : Nat := 0xD04018
/-- TWN_CNT_XC_DROP (Table 14.15). -/
def TWN_CNT_XC_DROP : Nat := 0xD04020
/-- TWN_CNT_ELIM_DUP (Table 14.15). -/
def TWN_CNT_ELIM_DUP : Nat := 0xD04028
/-- HST_SERIAL (Table 15.15). -/
def HST_SERIAL (i : Nat) : Nat := 0x8 + 0x8 * i
/-- HST_LINK_STATUS (Table 15.15). -/
def HST_LINK_STATUS : Nat := 0x18
/-- HST_IDE_CFG (Table 15.15). -/
def HST_IDE_CFG : Nat := 0x20
/-- HST_FN_CELLS (Table 15.15). -/
def HST_FN_CELLS (i : Nat) : Nat := 0x100 + 0x8 * i
/-- HST_CNT_ACCESS_VIOL (Table 15.15). -/
def HST_CNT_ACCESS_VIOL : Nat := 0x200
/-- HST_CNT_OW_IGNORED (Table 15.15). -/
def HST_CNT_OW_IGNORED : Nat := 0x208
/-- HST_CNT_IDE_FAIL (Table 15.15). -/
def HST_CNT_IDE_FAIL : Nat := 0x210
/-- TMP_STATUS (Table 16.10). -/
def TMP_STATUS : Nat := 0xE00000
/-- TMP_ALARM (Table 16.10). -/
def TMP_ALARM : Nat := 0xE00008
/-- TMP_LAST_DIP (Table 16.10). -/
def TMP_LAST_DIP : Nat := 0xE00010
/-- TMP_LEVEL (Table 16.10). -/
def TMP_LEVEL (i : Nat) : Nat := 0xE00100 + 0x8 * i
/-- TMP_RAIL (Table 16.10). -/
def TMP_RAIL (i : Nat) : Nat := 0xE00200 + 0x8 * i
/-- TMP_TEMP (Table 16.10). -/
def TMP_TEMP (i : Nat) : Nat := 0xE00300 + 0x8 * i
/-- TMP_CNT_CAUTION (Table 16.10). -/
def TMP_CNT_CAUTION : Nat := 0xE00400
/-- TMP_CNT_TRIGGER (Table 16.10). -/
def TMP_CNT_TRIGGER : Nat := 0xE00408
/-- LR_STATUS (Table 16.11). -/
def LR_STATUS : Nat := 0xE02000
/-- LR_RTC (Table 16.11). -/
def LR_RTC : Nat := 0xE02008
/-- LR_CFG (Table 16.11). -/
def LR_CFG : Nat := 0xE02010
/-- TLY_STATUS (Table 16.12). -/
def TLY_STATUS : Nat := 0xE04000
/-- TLY_FILL (Table 16.12). -/
def TLY_FILL : Nat := 0xE04008
/-- TLY_EVID_LOST (Table 16.12). -/
def TLY_EVID_LOST : Nat := 0xE04010
/-- TLY_CFG (Table 16.12). -/
def TLY_CFG : Nat := 0xE04018
/-- TLY_CNT_APPENDED (Table 16.12). -/
def TLY_CNT_APPENDED : Nat := 0xE04100
/-- TLY_CNT_RING_DISCARD (Table 16.12). -/
def TLY_CNT_RING_DISCARD : Nat := 0xE04108
/-- TLY_CNT_SUPPRESSED (Table 16.12). -/
def TLY_CNT_SUPPRESSED : Nat := 0xE04110
/-- TLY_CNT_TORN (Table 16.12). -/
def TLY_CNT_TORN : Nat := 0xE04118
/-- PWR_STATUS (Table 17.9). -/
def PWR_STATUS : Nat := 0x100000
/-- PWR_RESET_CAUSE (Table 17.9). -/
def PWR_RESET_CAUSE : Nat := 0x100008
/-- PWR_CFG (Table 17.9). -/
def PWR_CFG : Nat := 0x100010
/-- PWR_FW (Table 17.9). -/
def PWR_FW : Nat := 0x100018
/-- PWR_ATTIC (Table 17.9). -/
def PWR_ATTIC : Nat := 0x100020
/-- PWR_COUNTER (Table 17.9). -/
def PWR_COUNTER (i : Nat) : Nat := 0x100100 + 0x8 * i
/-- PWR_DOM (Table 17.9). -/
def PWR_DOM (i : Nat) : Nat := 0x100400 + 0x8 * i
/-- PWR_DIN (Table 18.9). -/
def PWR_DIN : Nat := 0x100030
/-- LFR_TRUNK_CFG (Table 03.11). -/
def LFR_TRUNK_CFG (i : Nat) : Nat := 0x400000 + 0x100 * i
/-- LFR_TRUNK_RXCFG (Table 03.11). -/
def LFR_TRUNK_RXCFG (i : Nat) : Nat := 0x400030 + 0x100 * i
/-- LFR_TRIB_SLOTS_LO (Table 03.13). -/
def LFR_TRIB_SLOTS_LO (i j : Nat) : Nat := 0x402008 + 0x2000 * i + 0x40 * j
/-- LFR_TRIB_SLOTS_HI (Table 03.13). -/
def LFR_TRIB_SLOTS_HI (i j : Nat) : Nat := 0x402010 + 0x2000 * i + 0x40 * j
/-- MSC_CNT (Table 02.10). -/
def MSC_CNT (i j : Nat) : Nat := 0x500040 + 0x100 * i + 0x8 * j

end Reg

namespace Fd

def HST_ID_STEPPING : Fld := ⟨0, 8⟩
def HST_ID_VARIANT : Fld := ⟨8, 4⟩
def HST_ID_DEVICE : Fld := ⟨16, 16⟩
def GAL_PRESENT_PRESENT : Fld := ⟨0, 64⟩
def MSC_PORT_CFG_MACSEC_EN : Fld := ⟨0, 1⟩
def MSC_PORT_CFG_INCL_SCI : Fld := ⟨1, 1⟩
def MSC_PORT_CFG_CLEAR_TAGS : Fld := ⟨2, 2⟩
def MSC_PORT_CFG_MKA_FN : Fld := ⟨4, 4⟩
def MSC_PORT_SCI_SCI : Fld := ⟨0, 64⟩
def MSC_TPID_TPID0 : Fld := ⟨0, 16⟩
def MSC_TPID_TPID1 : Fld := ⟨16, 16⟩
def MSC_TPID_TPID2 : Fld := ⟨32, 16⟩
def MSC_TPID_TPID3 : Fld := ⟨48, 16⟩
def LFR_TRUNK_LANES_LANE : Fld := ⟨0, 64⟩
def LFR_TRUNK_SWREQ_TX_SWREQ : Fld := ⟨0, 16⟩
def LFR_TRUNK_SD_SD_LEVEL : Fld := ⟨32, 8⟩
def LFR_TRUNK_STATUS_UP : Fld := ⟨0, 1⟩
def LFR_TRUNK_STATUS_RX_SWREQ : Fld := ⟨8, 16⟩
def LFR_TRUNK_EPOCH_EPOCH_TX : Fld := ⟨0, 32⟩
def LFR_TRUNK_EPOCH_EPOCH_RX : Fld := ⟨32, 32⟩
def LFR_TRIB_CFG_EN : Fld := ⟨0, 1⟩
def LFR_TRIB_CFG_TRUNK : Fld := ⟨1, 4⟩
def LFR_TRIB_CFG_MERGE_TRUNK : Fld := ⟨5, 4⟩
def LFR_TRIB_CFG_MERGE : Fld := ⟨9, 1⟩
def LFR_TRIB_CFG_TUB_SIZE : Fld := ⟨10, 2⟩
def LFR_TRIB_CFG_CLIENT : Fld := ⟨12, 5⟩
def LFR_TRIB_CFG_ASSOC : Fld := ⟨17, 20⟩
def LFR_TRIB_CFG_MERGE_WAIT : Fld := ⟨37, 9⟩
def LFR_TRIB_CFG_CTRL_FN : Fld := ⟨46, 4⟩
def LFR_TUB_FLUSH_FLUSH : Fld := ⟨0, 16⟩
def LFR_TUB_FLUSH_MAX_AGE : Fld := ⟨16, 16⟩
def SRM_CFG_PIN_TOP : Fld := ⟨0, 14⟩
def SRM_CFG_SWEEP : Fld := ⟨16, 8⟩
def SRM_CFG_FILL_EN : Fld := ⟨24, 1⟩
def SRM_STATUS_PINNED_USED : Fld := ⟨0, 15⟩
def SRM_STATUS_CACHED_FREE : Fld := ⟨16, 15⟩
def SRM_STATUS_ROOT_PRESENT : Fld := ⟨31, 1⟩
def SRM_STATUS_ERASED : Fld := ⟨32, 1⟩
def SRM_STATUS_ORPHANS : Fld := ⟨33, 15⟩
def SRM_CNT_MISS_COUNT : Fld := ⟨0, 40⟩
def SRM_CNT_FILL_COUNT : Fld := ⟨0, 40⟩
def SRM_CNT_EVICT_COUNT : Fld := ⟨0, 40⟩
def SRM_CNT_KEK_INVALID_COUNT : Fld := ⟨0, 40⟩
def SRM_CNT_BLOB_BAD_COUNT : Fld := ⟨0, 40⟩
def SRM_CNT_SLOT_BAD_COUNT : Fld := ⟨0, 40⟩
def GAL_ONLINE_ONLINE : Fld := ⟨0, 64⟩
def GAL_CFG_STEP_MAX : Fld := ⟨0, 16⟩
def GAL_CFG_SCREEN_TMO : Fld := ⟨16, 10⟩
def GAL_CFG_LA_SHARE : Fld := ⟨26, 6⟩
def GAL_EPOCH_DISPATCH : Fld := ⟨0, 2⟩
def GAL_EPOCH_LOADED : Fld := ⟨4, 4⟩
def GAL_EPOCH_INFLIGHT_COUNT : Fld := ⟨0, 17⟩
def GAL_TAGS_FREE : Fld := ⟨0, 17⟩
def GAL_TAGS_LOW_WATER : Fld := ⟨32, 17⟩
def GAL_DOM_CFG_TAG_MAX : Fld := ⟨0, 17⟩
def GAL_DOM_CFG_BACKLOG_MAX : Fld := ⟨17, 15⟩
def GAL_DOM_CFG_BACKLOG_XOFF : Fld := ⟨32, 15⟩
def GAL_DOM_CFG_BACKLOG_XON : Fld := ⟨47, 15⟩
def GAL_DOM_STATUS_TAGS_HELD : Fld := ⟨0, 17⟩
def GAL_DOM_STATUS_BACKLOG : Fld := ⟨17, 15⟩
def GAL_DOM_STATUS_PAUSED : Fld := ⟨32, 1⟩
def GAL_CNT_DISPATCH_COUNT : Fld := ⟨0, 40⟩
def GAL_CNT_STALL_COUNT : Fld := ⟨0, 40⟩
def GAL_CNT_AUTH_FAIL_COUNT : Fld := ⟨0, 40⟩
def GAL_CNT_STEP_LIMIT_COUNT : Fld := ⟨0, 40⟩
def GAL_CNT_SCREEN_TMO_COUNT : Fld := ⟨0, 40⟩
def GAL_CNT_FAULT_COUNT : Fld := ⟨0, 40⟩
def GAL_CNT_ECC_CORR_COUNT : Fld := ⟨0, 40⟩
def GAL_CNT_LA_JOB_COUNT : Fld := ⟨0, 40⟩
def GAL_CNT_PROG_FAULT_COUNT : Fld := ⟨0, 40⟩
def TBL_STAMP_NOW : Fld := ⟨0, 48⟩
def TBL_STATUS_PEER_USED : Fld := ⟨0, 19⟩
def TBL_STATUS_SCI_USED : Fld := ⟨19, 17⟩
def TBL_STATUS_LEARN_Q : Fld := ⟨36, 13⟩
def TBL_PORT_CFG_LEARN : Fld := ⟨0, 1⟩
def TBL_PORT_CFG_DEF_VALID : Fld := ⟨1, 1⟩
def TBL_PORT_CFG_DEF_ASSOC : Fld := ⟨2, 20⟩
def TBL_PORT_CFG_DEF_TRIB : Fld := ⟨22, 6⟩
def TBL_PORT_CFG_DEF_CLASS : Fld := ⟨28, 3⟩
def TBL_PORT_CFG_PCP_CLASS : Fld := ⟨31, 1⟩
def TBL_PORT_CFG_DEF_METER : Fld := ⟨32, 16⟩
def TBL_PORT_CFG_DEF_METER_VALID : Fld := ⟨48, 1⟩
def TBL_PORT_CFG_BIND_LINE : Fld := ⟨49, 5⟩
def TBL_PORT_CFG_BIND_EN : Fld := ⟨54, 1⟩
def TBL_CNT_LEARN_COUNT : Fld := ⟨0, 40⟩
def TBL_CNT_MOVE_COUNT : Fld := ⟨0, 40⟩
def TBL_CNT_CONTENDED_COUNT : Fld := ⟨0, 40⟩
def TBL_CNT_STATIC_CONFLICT_COUNT : Fld := ⟨0, 40⟩
def TBL_CNT_LEARN_FULL_COUNT : Fld := ⟨0, 40⟩
def TBL_CNT_LEARN_OVF_COUNT : Fld := ⟨0, 40⟩
def TBL_CNT_ECC_CORR_COUNT : Fld := ⟨0, 40⟩
def TBL_CNT_ECC_UNCORR_COUNT : Fld := ⟨0, 40⟩
def TBL_CNT_ACACHE_MISS_COUNT : Fld := ⟨0, 40⟩
def TBL_CFG_MOVE_HOLD : Fld := ⟨0, 10⟩
def TBL_CFG_LEARN_EN : Fld := ⟨10, 1⟩
def TBL_CFG_UDF0_OFF : Fld := ⟨11, 8⟩
def TBL_CFG_UDF1_OFF : Fld := ⟨19, 8⟩
def WND_POOL_STATUS_SRAM_USED : Fld := ⟨0, 16⟩
def WND_POOL_STATUS_RSV_USED : Fld := ⟨16, 16⟩
def WND_POOL_STATUS_HBM_USED : Fld := ⟨32, 32⟩
def WND_TG_CFG_DRIFT_PPB : Fld := ⟨0, 16⟩
def WND_TG_CFG_HO_CAP : Fld := ⟨16, 16⟩
def WND_TG_CFG_HO_MAX : Fld := ⟨32, 16⟩
def WND_TG_CFG_STALE_CYCLES : Fld := ⟨48, 8⟩
def WND_DN_CFG_FN : Fld := ⟨0, 4⟩
def WND_DN_CFG_EN : Fld := ⟨4, 1⟩
def WND_DN_CFG_RATE : Fld := ⟨5, 20⟩
def WND_DN_CFG_REASON_MASK : Fld := ⟨32, 32⟩
def WND_PFC_CFG_TX_EN : Fld := ⟨0, 8⟩
def WND_PFC_CFG_RX_EN : Fld := ⟨8, 8⟩
def WND_PFC_CFG_QUANTA : Fld := ⟨16, 16⟩
def WND_PFC_CFG_PAUSE_RX : Fld := ⟨32, 1⟩
def WND_TG_STATUS_ACTIVE : Fld := ⟨0, 1⟩
def WND_TG_STATUS_PENDING : Fld := ⟨1, 1⟩
def WND_TG_STATUS_GUARD : Fld := ⟨2, 1⟩
def WND_TG_STATUS_STALE : Fld := ⟨3, 1⟩
def WND_TG_STATUS_ENTRY : Fld := ⟨4, 8⟩
def WND_TG_STATUS_GUARD_NS : Fld := ⟨32, 32⟩
def Q_LIMITS_LIMIT : Fld := ⟨0, 20⟩
def Q_LIMITS_YELLOW_MAX : Fld := ⟨20, 20⟩
def Q_LIMITS_MKEY : Fld := ⟨40, 8⟩
def Q_LIMITS_SPILL_EN : Fld := ⟨48, 1⟩
def Q_FLOW_XOFF : Fld := ⟨0, 20⟩
def Q_FLOW_XON : Fld := ⟨20, 20⟩
def Q_FLOW_PFC_EN : Fld := ⟨40, 1⟩
def Q_SCHED_WEIGHT : Fld := ⟨0, 8⟩
def Q_SCHED_IDLE_SLOPE : Fld := ⟨8, 32⟩
def Q_STATUS_DEPTH : Fld := ⟨0, 32⟩
def Q_STATUS_FRAMES : Fld := ⟨32, 20⟩
def Q_STATUS_SPILLED : Fld := ⟨52, 1⟩
def Q_STATUS_PAUSED : Fld := ⟨53, 1⟩
def Q_STATUS_XOFF : Fld := ⟨54, 1⟩
def Q_CNT_TX_FRAMES_COUNT : Fld := ⟨0, 40⟩
def Q_CNT_TX_BYTES_COUNT : Fld := ⟨0, 40⟩
def Q_CNT_DROP_FULL_COUNT : Fld := ⟨0, 40⟩
def Q_CNT_DROP_YELLOW_COUNT : Fld := ⟨0, 40⟩
def Q_CNT_DROP_STALE_COUNT : Fld := ⟨0, 40⟩
def Q_CNT_DROP_MEMCHECK_COUNT : Fld := ⟨0, 40⟩
def Q_CNT_DROP_OTHER_COUNT : Fld := ⟨0, 40⟩
def Q_CNT_PAUSED_US_COUNT : Fld := ⟨0, 40⟩
def WND_CNT_DN_SENT_COUNT : Fld := ⟨0, 40⟩
def WND_CNT_DN_SUPPRESSED_COUNT : Fld := ⟨0, 40⟩
def WND_SHP_CREDIT_CREDIT : Fld := ⟨0, 48⟩
def WND_CNT_PORT_DROP_COUNT : Fld := ⟨0, 40⟩
def MEM_CFG_SCRUB_PERIOD : Fld := ⟨0, 8⟩
def MEM_CFG_REKEY_RATE : Fld := ⟨8, 8⟩
def MEM_CFG_COALESCE : Fld := ⟨16, 8⟩
def MEM_STATUS_STACK0_OK : Fld := ⟨0, 1⟩
def MEM_STATUS_STACK1_OK : Fld := ⟨1, 1⟩
def MEM_STATUS_KEYS_PRESENT : Fld := ⟨2, 1⟩
def MEM_STATUS_REKEY_ACTIVE : Fld := ⟨3, 1⟩
def MEM_STATUS_REKEY_INDEX : Fld := ⟨4, 8⟩
def MEM_POISON_LAST_CELL : Fld := ⟨0, 27⟩
def MEM_REGION_MKEY : Fld := ⟨0, 8⟩
def MEM_KEY_STATUS_KGEN : Fld := ⟨0, 8⟩
def MEM_KEY_STATUS_CHANGING : Fld := ⟨8, 1⟩
def MEM_START_START : Fld := ⟨0, 14⟩
def MEM_CNT_ECC_CORR_COUNT : Fld := ⟨0, 40⟩
def MEM_CNT_CHECK_FAIL_COUNT : Fld := ⟨0, 40⟩
def MEM_CNT_PARTIAL_COUNT : Fld := ⟨0, 40⟩
def MEM_CNT_COALESCED_COUNT : Fld := ⟨0, 40⟩
def MEM_CNT_WITHHELD_COUNT : Fld := ⟨0, 40⟩
def MEM_CNT_NO_KEY_COUNT : Fld := ⟨0, 40⟩
def MEM_CNT_SCRUBBED_COUNT : Fld := ⟨0, 40⟩
def MAC_PORT_CFG_MAX_LEN : Fld := ⟨0, 14⟩
def MAC_PORT_STATUS_UP : Fld := ⟨0, 1⟩
def MAC_PORT_STATUS_LOCAL_FAULT : Fld := ⟨1, 1⟩
def MAC_PORT_STATUS_REMOTE_FAULT : Fld := ⟨2, 1⟩
def MAC_PORT_STATUS_EFF_MAX : Fld := ⟨16, 14⟩
def MAC_CNT_RX_FRAMES_OK_COUNT : Fld := ⟨0, 40⟩
def MAC_CNT_RX_OCTETS_OK_COUNT : Fld := ⟨0, 40⟩
def MAC_CNT_RX_UCAST_COUNT : Fld := ⟨0, 40⟩
def MAC_CNT_RX_MCAST_COUNT : Fld := ⟨0, 40⟩
def MAC_CNT_RX_BCAST_COUNT : Fld := ⟨0, 40⟩
def MAC_CNT_RX_PAUSE_COUNT : Fld := ⟨0, 40⟩
def MAC_CNT_RX_PFC_COUNT : Fld := ⟨0, 40⟩
def MAC_CNT_RX_SIZE_COUNT : Fld := ⟨0, 40⟩
def MAC_CNT_RX_FCS_ERR_COUNT : Fld := ⟨0, 40⟩
def MAC_CNT_RX_RUNT_COUNT : Fld := ⟨0, 40⟩
def MAC_CNT_RX_FRAGMENT_COUNT : Fld := ⟨0, 40⟩
def MAC_CNT_RX_OVERSIZE_COUNT : Fld := ⟨0, 40⟩
def MAC_CNT_RX_JABBER_COUNT : Fld := ⟨0, 40⟩
def MAC_CNT_RX_CODE_ERR_COUNT : Fld := ⟨0, 40⟩
def MAC_CNT_RX_CTRL_DISCARD_COUNT : Fld := ⟨0, 40⟩
def MAC_CNT_TX_FRAMES_OK_COUNT : Fld := ⟨0, 40⟩
def MAC_CNT_TX_OCTETS_OK_COUNT : Fld := ⟨0, 40⟩
def MAC_CNT_TX_UCAST_COUNT : Fld := ⟨0, 40⟩
def MAC_CNT_TX_MCAST_COUNT : Fld := ⟨0, 40⟩
def MAC_CNT_TX_BCAST_COUNT : Fld := ⟨0, 40⟩
def MAC_CNT_TX_PFC_COUNT : Fld := ⟨0, 40⟩
def MAC_CNT_TX_SIZE_COUNT : Fld := ⟨0, 40⟩
def MAC_CNT_TX_UNDERRUN_COUNT : Fld := ⟨0, 40⟩
def MAC_CNT_TX_FCS_INVERTED_COUNT : Fld := ⟨0, 40⟩
def LAN_LANE_CFG_TX_INVERT : Fld := ⟨0, 1⟩
def LAN_LANE_CFG_RX_POL_AUTO : Fld := ⟨1, 1⟩
def LAN_LANE_CFG_RX_INVERT : Fld := ⟨2, 1⟩
def LAN_LANE_CFG_TX_PRECODE : Fld := ⟨3, 2⟩
def LAN_LANE_CFG_RX_PRECODE : Fld := ⟨5, 2⟩
def LAN_LANE_CFG_TRAIN_EN : Fld := ⟨7, 1⟩
def LAN_LANE_STATUS_SIGNAL : Fld := ⟨0, 1⟩
def LAN_LANE_STATUS_CDR_LOCK : Fld := ⟨1, 1⟩
def LAN_LANE_STATUS_FEC_LOCK : Fld := ⟨2, 1⟩
def LAN_LANE_STATUS_RX_INVERTED : Fld := ⟨3, 1⟩
def LAN_LANE_STATUS_TX_PRECODING : Fld := ⟨4, 1⟩
def LAN_LANE_STATUS_RX_PRECODING : Fld := ⟨5, 1⟩
def LAN_LANE_STATUS_STATE : Fld := ⟨6, 3⟩
def LAN_CNT_CW_COUNT : Fld := ⟨0, 40⟩
def LAN_CNT_CW_CORR_COUNT : Fld := ⟨0, 40⟩
def LAN_CNT_CW_UNCORR_COUNT : Fld := ⟨0, 40⟩
def LAN_CNT_SYM_COUNT : Fld := ⟨0, 40⟩
def LAN_CNT_LOS_COUNT : Fld := ⟨0, 40⟩
def LAN_CNT_LOL_COUNT : Fld := ⟨0, 40⟩
def LAN_CNT_PRBS_BITS_COUNT : Fld := ⟨0, 40⟩
def LAN_CNT_PRBS_ERR_COUNT : Fld := ⟨0, 40⟩
def LAN_CNT_HIST_COUNT : Fld := ⟨0, 40⟩
def LAN_GRP_CFG_GROUPING : Fld := ⟨0, 3⟩
def LAN_GRP_CFG_RATE : Fld := ⟨3, 1⟩
def LAN_GRP_CFG_TX_REVERSE : Fld := ⟨4, 1⟩
def LAN_GRP_CFG_RX_REVERSE : Fld := ⟨5, 1⟩
def LAN_GRP_CFG_AUTO_REV : Fld := ⟨6, 1⟩
def LAN_GRP_STATUS_REV_DETECT : Fld := ⟨0, 1⟩
def LAN_GRP_STATUS_LANES_UP : Fld := ⟨1, 8⟩
def GATE_CFG_MAX_WAIT : Fld := ⟨0, 10⟩
def GATE_CFG_RESERVE : Fld := ⟨10, 6⟩
def GATE_STATUS_QUEUED : Fld := ⟨0, 15⟩
def GATE_STATUS_KEYS : Fld := ⟨15, 13⟩
def GATE_STATUS_FLOWS : Fld := ⟨28, 11⟩
def GATE_STATUS_PKE_OK : Fld := ⟨39, 1⟩
def GATE_CNT_ACCEPT_COUNT : Fld := ⟨0, 40⟩
def GATE_CNT_UNSIGNED_COUNT : Fld := ⟨0, 40⟩
def GATE_CNT_BADSIG_COUNT : Fld := ⟨0, 40⟩
def GATE_CNT_REPLAY_COUNT : Fld := ⟨0, 40⟩
def GATE_CNT_RATE_COUNT : Fld := ⟨0, 40⟩
def GATE_CNT_TIMEOUT_COUNT : Fld := ⟨0, 40⟩
def GATE_CNT_VERIFY_COUNT : Fld := ⟨0, 40⟩
def GATE_FLOW_CFG_RULE : Fld := ⟨0, 13⟩
def GATE_FLOW_CFG_VALID : Fld := ⟨13, 1⟩
def GATE_FLOW_CFG_STRIP : Fld := ⟨14, 1⟩
def GATE_FLOW_CFG_BURST : Fld := ⟨16, 16⟩
def GATE_FLOW_CFG_SETS : Fld := ⟨32, 32⟩
def GATE_FLOW_RATE_RATE : Fld := ⟨0, 20⟩
def GATE_FCNT_ACCEPT_COUNT : Fld := ⟨0, 40⟩
def GATE_FCNT_UNSIGNED_COUNT : Fld := ⟨0, 40⟩
def GATE_FCNT_BADSIG_COUNT : Fld := ⟨0, 40⟩
def GATE_FCNT_REPLAY_COUNT : Fld := ⟨0, 40⟩
def GATE_FCNT_RATE_COUNT : Fld := ⟨0, 40⟩
def TIM_NOW_NS : Fld := ⟨0, 64⟩
def TIM_STATUS_STATE : Fld := ⟨0, 2⟩
def TIM_CFG_PTP_LEAD : Fld := ⟨0, 6⟩
def TIM_CFG_LOCK_TMO : Fld := ⟨6, 6⟩
def TIM_RCLK_SRC0 : Fld := ⟨0, 8⟩
def TIM_RCLK_DIV0 : Fld := ⟨8, 1⟩
def TIM_RCLK_SRC1 : Fld := ⟨16, 8⟩
def TIM_RCLK_DIV1 : Fld := ⟨24, 1⟩
def TIM_XC_RTT : Fld := ⟨0, 32⟩
def TIM_XC_OFFSET : Fld := ⟨32, 32⟩
def TIM_MERGE_DIFF_LAST : Fld := ⟨0, 32⟩
def TIM_MERGE_DIFF_MAX : Fld := ⟨32, 32⟩
def TIM_LANE_LQ_SER : Fld := ⟨0, 32⟩
def TIM_LANE_LQ_DEGRADED : Fld := ⟨32, 1⟩
def TIM_LANE_LQ_TIM_LANE_SD : Fld := ⟨33, 8⟩
def TIM_QSAMPLE_DEPTH : Fld := ⟨0, 32⟩
def TIM_QSAMPLE_DELAY : Fld := ⟨32, 32⟩
def TIM_QSAMPLE_MAX_DEPTH : Fld := ⟨0, 32⟩
def TIM_QSAMPLE_MAX_DELAY : Fld := ⟨32, 32⟩
def TIM_CNT_PTP_CORR_COUNT : Fld := ⟨0, 40⟩
def TIM_CNT_PTP_UNCORR_COUNT : Fld := ⟨0, 40⟩
def TIM_CNT_PTP_LATE_COUNT : Fld := ⟨0, 40⟩
def TWN_CFG_TWIN_EN : Fld := ⟨0, 1⟩
def TWN_CFG_MIRROR_EN : Fld := ⟨1, 1⟩
def TWN_CFG_MIRROR_LO : Fld := ⟨2, 20⟩
def TWN_CFG_MIRROR_HI : Fld := ⟨22, 20⟩
def TWN_CFG_START_WAIT : Fld := ⟨42, 10⟩
def TWN_STATUS_POSITION : Fld := ⟨0, 1⟩
def TWN_STATUS_ROLE_SEL : Fld := ⟨1, 2⟩
def TWN_STATUS_CTRL : Fld := ⟨3, 2⟩
def TWN_STATUS_PEER : Fld := ⟨5, 2⟩
def TWN_STATUS_SYNCED : Fld := ⟨7, 1⟩
def TWN_STATUS_ROLE_IN : Fld := ⟨8, 1⟩
def TWN_STATUS_ROLE_OUT : Fld := ⟨9, 1⟩
def TWN_STATUS_RESYNC_ACTIVE : Fld := ⟨10, 1⟩
def TWN_STATUS_ROLE_EPOCH : Fld := ⟨32, 32⟩
def TWN_DOUT_VALUE : Fld := ⟨0, 8⟩
def TWN_DOUT_DRIVEN : Fld := ⟨8, 8⟩
def TWN_DOUT_BUS : Fld := ⟨16, 8⟩
def TWN_DOUT_SRC_SRC : Fld := ⟨0, 64⟩
def TWN_SHAFT_CFG_HEWER_ID : Fld := ⟨0, 6⟩
def TWN_SHAFT_CFG_EN : Fld := ⟨6, 1⟩
def TWN_SHAFT_MAC_ADDR : Fld := ⟨0, 48⟩
def TWN_SHAFT_PEER_ADDR : Fld := ⟨0, 48⟩
def TWN_XC_BIND_REPL : Fld := ⟨0, 1⟩
def TWN_XC_BIND_PROXY : Fld := ⟨1, 1⟩
def TWN_XC_BIND_PEER_PORT : Fld := ⟨2, 5⟩
def TWN_HEWER_STATUS_ENROLLED : Fld := ⟨0, 1⟩
def TWN_HEWER_STATUS_UP : Fld := ⟨1, 1⟩
def TWN_HEWER_STATUS_LEVEL : Fld := ⟨2, 3⟩
def TWN_ELIM_CFG_RULE : Fld := ⟨0, 13⟩
def TWN_ELIM_CFG_VALID : Fld := ⟨13, 1⟩
def TWN_ELIM_CFG_HISTORY : Fld := ⟨14, 7⟩
def TWN_ELIM_CFG_RESET_MS : Fld := ⟨21, 16⟩
def TWN_ELIM_CFG_STRIP : Fld := ⟨37, 1⟩
def TWN_CNT_HB_MISS_COUNT : Fld := ⟨0, 40⟩
def TWN_CNT_SWITCH_COUNT : Fld := ⟨0, 40⟩
def TWN_CNT_OVERLAP_COUNT : Fld := ⟨0, 40⟩
def TWN_CNT_XC_AUTH_FAIL_COUNT : Fld := ⟨0, 40⟩
def TWN_CNT_XC_DROP_COUNT : Fld := ⟨0, 40⟩
def TWN_CNT_ELIM_DUP_COUNT : Fld := ⟨0, 40⟩
def HST_SERIAL_SERIAL : Fld := ⟨0, 64⟩
def HST_LINK_STATUS_UP : Fld := ⟨0, 1⟩
def HST_LINK_STATUS_RATE : Fld := ⟨1, 3⟩
def HST_LINK_STATUS_WIDTH : Fld := ⟨4, 4⟩
def HST_LINK_STATUS_FLIT : Fld := ⟨8, 1⟩
def HST_IDE_CFG_REQUIRE : Fld := ⟨0, 1⟩
def HST_IDE_CFG_SECURE : Fld := ⟨1, 4⟩
def HST_FN_CELLS_CELL_BASE : Fld := ⟨0, 16⟩
def HST_FN_CELLS_CELL_COUNT : Fld := ⟨16, 15⟩
def HST_CNT_ACCESS_VIOL_COUNT : Fld := ⟨0, 40⟩
def HST_CNT_OW_IGNORED_COUNT : Fld := ⟨0, 40⟩
def HST_CNT_IDE_FAIL_COUNT : Fld := ⟨0, 40⟩
def TMP_STATUS_LEVEL : Fld := ⟨0, 3⟩
def TMP_STATUS_CAUTION : Fld := ⟨3, 1⟩
def TMP_STATUS_SQUELCH : Fld := ⟨4, 1⟩
def TMP_STATUS_LAST_MONITOR : Fld := ⟨8, 6⟩
def TMP_ALARM_L1 : Fld := ⟨0, 1⟩
def TMP_LAST_DIP_RAIL : Fld := ⟨0, 4⟩
def TMP_LAST_DIP_MIN_MV : Fld := ⟨16, 16⟩
def TMP_LAST_DIP_DURATION : Fld := ⟨32, 32⟩
def TMP_LEVEL_LEVEL : Fld := ⟨0, 3⟩
def TMP_LEVEL_FLOOR : Fld := ⟨4, 3⟩
def TMP_LEVEL_EFFECTIVE : Fld := ⟨8, 3⟩
def TMP_RAIL_MV : Fld := ⟨0, 16⟩
def TMP_RAIL_MIN_MV : Fld := ⟨16, 16⟩
def TMP_RAIL_MAX_MV : Fld := ⟨32, 16⟩
def TMP_TEMP_TEMP : Fld := ⟨0, 16⟩
def TMP_TEMP_MAX : Fld := ⟨16, 16⟩
def TMP_CNT_CAUTION_COUNT : Fld := ⟨0, 40⟩
def TMP_CNT_TRIGGER_COUNT : Fld := ⟨0, 40⟩
def LR_STATUS_VBAT_OK : Fld := ⟨0, 1⟩
def LR_STATUS_RTC_RUN : Fld := ⟨1, 1⟩
def LR_STATUS_TAIL_USED : Fld := ⟨2, 7⟩
def LR_STATUS_TAIL_LOST : Fld := ⟨9, 16⟩
def LR_STATUS_LAMP_LOST : Fld := ⟨25, 1⟩
def LR_RTC_NS : Fld := ⟨0, 64⟩
def LR_CFG_LOOP_EN : Fld := ⟨0, 4⟩
def LR_CFG_POLL : Fld := ⟨4, 8⟩
def TLY_STATUS_NEXT_SEQ : Fld := ⟨0, 48⟩
def TLY_FILL_EVID_USED : Fld := ⟨0, 15⟩
def TLY_FILL_RING_USED : Fld := ⟨16, 17⟩
def TLY_EVID_LOST_COUNT : Fld := ⟨0, 32⟩
def TLY_CFG_BURST : Fld := ⟨0, 8⟩
def TLY_CFG_REFILL : Fld := ⟨8, 16⟩
def TLY_CNT_APPENDED_COUNT : Fld := ⟨0, 40⟩
def TLY_CNT_RING_DISCARD_COUNT : Fld := ⟨0, 40⟩
def TLY_CNT_SUPPRESSED_COUNT : Fld := ⟨0, 40⟩
def TLY_CNT_TORN_COUNT : Fld := ⟨0, 40⟩
def PWR_STATUS_MODE : Fld := ⟨0, 3⟩
def PWR_STATUS_LIFECYCLE : Fld := ⟨3, 2⟩
def PWR_STATUS_AUTOSTARTED : Fld := ⟨5, 1⟩
def PWR_STATUS_PROFILE_COPY : Fld := ⟨6, 1⟩
def PWR_STATUS_FW_IMAGE : Fld := ⟨7, 1⟩
def PWR_RESET_CAUSE_CAUSE : Fld := ⟨0, 4⟩
def PWR_RESET_CAUSE_RAIL : Fld := ⟨4, 4⟩
def PWR_RESET_CAUSE_PREV_MODE : Fld := ⟨8, 3⟩
def PWR_RESET_CAUSE_COUNT : Fld := ⟨16, 16⟩
def PWR_CFG_AUTOSTART : Fld := ⟨0, 1⟩
def PWR_CFG_PROFILE_ASSOC : Fld := ⟨1, 14⟩
def PWR_FW_VERSION_A : Fld := ⟨0, 32⟩
def PWR_FW_VERSION_B : Fld := ⟨32, 32⟩
def PWR_ATTIC_SPARES_USED : Fld := ⟨0, 9⟩
def PWR_ATTIC_READONLY : Fld := ⟨16, 6⟩
def PWR_COUNTER_VALUE : Fld := ⟨0, 32⟩
def PWR_DOM_MW : Fld := ⟨0, 16⟩
def PWR_DOM_STATE : Fld := ⟨16, 2⟩
def PWR_DIN_LEVEL : Fld := ⟨0, 8⟩
def PWR_DIN_CHANGED : Fld := ⟨8, 8⟩
def LFR_TRUNK_CFG_EN : Fld := ⟨0, 1⟩
def LFR_TRUNK_CFG_WIDTH : Fld := ⟨1, 3⟩
def LFR_TRUNK_CFG_RATE : Fld := ⟨4, 1⟩
def LFR_TRUNK_CFG_TSEL : Fld := ⟨5, 3⟩
def LFR_TRUNK_CFG_DERIVE : Fld := ⟨8, 1⟩
def LFR_TRUNK_CFG_AUTO_EPOCH : Fld := ⟨9, 1⟩
def LFR_TRUNK_CFG_BASE_SLOT : Fld := ⟨10, 14⟩
def LFR_TRUNK_CFG_PEER_TRUNK : Fld := ⟨24, 4⟩
def LFR_TRUNK_CFG_PEER_TSEL : Fld := ⟨28, 3⟩
def LFR_TRUNK_CFG_PEER_TWIN : Fld := ⟨31, 1⟩
def LFR_TRUNK_RXCFG_EN : Fld := ⟨0, 1⟩
def LFR_TRUNK_RXCFG_WIDTH : Fld := ⟨1, 3⟩
def LFR_TRUNK_RXCFG_RATE : Fld := ⟨4, 1⟩
def LFR_TRUNK_RXCFG_TSEL : Fld := ⟨5, 3⟩
def LFR_TRUNK_RXCFG_DERIVE : Fld := ⟨8, 1⟩
def LFR_TRUNK_RXCFG_AUTO_EPOCH : Fld := ⟨9, 1⟩
def LFR_TRUNK_RXCFG_BASE_SLOT : Fld := ⟨10, 14⟩
def LFR_TRUNK_RXCFG_PEER_TRUNK : Fld := ⟨24, 4⟩
def LFR_TRUNK_RXCFG_PEER_TSEL : Fld := ⟨28, 3⟩
def LFR_TRUNK_RXCFG_PEER_TWIN : Fld := ⟨31, 1⟩
def LFR_TRIB_SLOTS_LO_SLOTS : Fld := ⟨0, 64⟩
def LFR_TRIB_SLOTS_HI_SLOTS : Fld := ⟨0, 64⟩
def MSC_CNT_COUNT : Fld := ⟨0, 40⟩

end Fd

def regDescs0 : List RegDesc := [
  ⟨"HST_ID", 0x0, 0x0, 1, 0x0, 1, [⟨0, 8, .ro, 0xA1⟩, ⟨8, 4, .ro, 0x0⟩, ⟨16, 16, .ro, 0x3208⟩]⟩,
  ⟨"GAL_PRESENT", 0x700000, 0x0, 1, 0x0, 1, [⟨0, 64, .ro, 0x0⟩]⟩,
  ⟨"MSC_PORT_CFG", 0x500000, 0x100, 32, 0x0, 1, [⟨0, 1, .ow, 0x0⟩, ⟨1, 1, .ow, 0x1⟩, ⟨2, 2, .ow, 0x0⟩, ⟨4, 4, .ow, 0x0⟩]⟩,
  ⟨"MSC_PORT_SCI", 0x500008, 0x100, 32, 0x0, 1, [⟨0, 64, .ow, 0x0⟩]⟩,
  ⟨"MSC_TPID", 0x502000, 0x0, 1, 0x0, 1, [⟨0, 16, .ow, 0x8100⟩, ⟨16, 16, .ow, 0x88A8⟩, ⟨32, 16, .ow, 0x9100⟩, ⟨48, 16, .ow, 0x0⟩]⟩,
  ⟨"LFR_TRUNK_LANES", 0x400008, 0x100, 16, 0x8, 2, [⟨0, 64, .ow, 0x0⟩]⟩,
  ⟨"LFR_TRUNK_SWREQ", 0x400018, 0x100, 16, 0x0, 1, [⟨0, 16, .ow, 0x0⟩, ⟨32, 8, .ow, 0x40⟩]⟩,
  ⟨"LFR_TRUNK_STATUS", 0x400020, 0x100, 16, 0x0, 1, [⟨0, 1, .ro, 0x0⟩, ⟨8, 16, .ro, 0x0⟩]⟩,
  ⟨"LFR_TRUNK_EPOCH", 0x400028, 0x100, 16, 0x0, 1, [⟨0, 32, .ro, 0x0⟩, ⟨32, 32, .ow, 0x0⟩]⟩,
  ⟨"LFR_TRIB_CFG", 0x402000, 0x2000, 2, 0x40, 64, [⟨0, 1, .ow, 0x0⟩, ⟨1, 4, .ow, 0x0⟩, ⟨5, 4, .ow, 0x0⟩, ⟨9, 1, .ow, 0x0⟩, ⟨10, 2, .ow, 0x0⟩, ⟨12, 5, .ow, 0x0⟩, ⟨17, 20, .ow, 0x0⟩, ⟨37, 9, .ow, 0x32⟩, ⟨46, 4, .ow, 0x0⟩]⟩,
  ⟨"LFR_TUB_FLUSH", 0x406000, 0x0, 1, 0x0, 1, [⟨0, 16, .ow, 0x32⟩, ⟨16, 16, .ow, 0x320⟩]⟩,
  ⟨"SRM_CFG", 0x800000, 0x0, 1, 0x0, 1, [⟨0, 14, .ow, 0x1000⟩, ⟨16, 8, .ow, 0x1⟩, ⟨24, 1, .ow, 0x1⟩]⟩,
  ⟨"SRM_STATUS", 0x800008, 0x0, 1, 0x0, 1, [⟨0, 15, .ro, 0x0⟩, ⟨16, 15, .ro, 0x0⟩, ⟨31, 1, .ro, 0x0⟩, ⟨32, 1, .ro, 0x0⟩, ⟨33, 15, .ro, 0x0⟩]⟩,
  ⟨"SRM_CNT_MISS", 0x800100, 0x0, 1, 0x0, 1, [⟨0, 40, .ro, 0x0⟩]⟩,
  ⟨"SRM_CNT_FILL", 0x800108, 0x0, 1, 0x0, 1, [⟨0, 40, .ro, 0x0⟩]⟩,
  ⟨"SRM_CNT_EVICT", 0x800110, 0x0, 1, 0x0, 1, [⟨0, 40, .ro, 0x0⟩]⟩,
  ⟨"SRM_CNT_KEK_INVALID", 0x800118, 0x0, 1, 0x0, 1, [⟨0, 40, .ro, 0x0⟩]⟩,
  ⟨"SRM_CNT_BLOB_BAD", 0x800120, 0x0, 1, 0x0, 1, [⟨0, 40, .ro, 0x0⟩]⟩,
  ⟨"SRM_CNT_SLOT_BAD", 0x800128, 0x0, 1, 0x0, 1, [⟨0, 40, .ro, 0x0⟩]⟩,
  ⟨"GAL_ONLINE", 0x700008, 0x0, 1, 0x0, 1, [⟨0, 64, .ro, 0x0⟩]⟩,
  ⟨"GAL_CFG", 0x700010, 0x0, 1, 0x0, 1, [⟨0, 16, .ow, 0x100⟩, ⟨16, 10, .ow, 0x64⟩, ⟨26, 6, .ow, 0x1⟩]⟩,
  ⟨"GAL_EPOCH", 0x700018, 0x0, 1, 0x0, 1, [⟨0, 2, .ow, 0x0⟩, ⟨4, 4, .ro, 0x0⟩]⟩,
  ⟨"GAL_EPOCH_INFLIGHT", 0x700020, 0x8, 4, 0x0, 1, [⟨0, 17, .ro, 0x0⟩]⟩,
  ⟨"GAL_TAGS", 0x700040, 0x0, 1, 0x0, 1, [⟨0, 17, .ro, 0x10000⟩, ⟨32, 17, .rc, 0x10000⟩]⟩]

def regDescs1 : List RegDesc := [
  ⟨"GAL_DOM_CFG", 0x701000, 0x10, 112, 0x0, 1, [⟨0, 17, .ow, 0x2000⟩, ⟨17, 15, .ow, 0x80⟩, ⟨32, 15, .ow, 0x40⟩, ⟨47, 15, .ow, 0x20⟩]⟩,
  ⟨"GAL_DOM_STATUS", 0x701008, 0x10, 112, 0x0, 1, [⟨0, 17, .ro, 0x0⟩, ⟨17, 15, .ro, 0x0⟩, ⟨32, 1, .ro, 0x0⟩]⟩,
  ⟨"GAL_CNT_DISPATCH", 0x702000, 0x0, 1, 0x0, 1, [⟨0, 40, .ro, 0x0⟩]⟩,
  ⟨"GAL_CNT_STALL", 0x702008, 0x0, 1, 0x0, 1, [⟨0, 40, .ro, 0x0⟩]⟩,
  ⟨"GAL_CNT_AUTH_FAIL", 0x702010, 0x0, 1, 0x0, 1, [⟨0, 40, .ro, 0x0⟩]⟩,
  ⟨"GAL_CNT_STEP_LIMIT", 0x702018, 0x0, 1, 0x0, 1, [⟨0, 40, .ro, 0x0⟩]⟩,
  ⟨"GAL_CNT_SCREEN_TMO", 0x702020, 0x0, 1, 0x0, 1, [⟨0, 40, .ro, 0x0⟩]⟩,
  ⟨"GAL_CNT_FAULT", 0x702028, 0x0, 1, 0x0, 1, [⟨0, 40, .ro, 0x0⟩]⟩,
  ⟨"GAL_CNT_ECC_CORR", 0x702030, 0x0, 1, 0x0, 1, [⟨0, 40, .ro, 0x0⟩]⟩,
  ⟨"GAL_CNT_LA_JOB", 0x702038, 0x0, 1, 0x0, 1, [⟨0, 40, .ro, 0x0⟩]⟩,
  ⟨"GAL_CNT_PROG_FAULT", 0x702040, 0x0, 1, 0x0, 1, [⟨0, 40, .ro, 0x0⟩]⟩,
  ⟨"TBL_STAMP", 0x600008, 0x0, 1, 0x0, 1, [⟨0, 48, .ro, 0x0⟩]⟩,
  ⟨"TBL_STATUS", 0x600010, 0x0, 1, 0x0, 1, [⟨0, 19, .ro, 0x0⟩, ⟨19, 17, .ro, 0x0⟩, ⟨36, 13, .ro, 0x0⟩]⟩,
  ⟨"TBL_PORT_CFG", 0x600100, 0x8, 64, 0x0, 1, [⟨0, 1, .ow, 0x0⟩, ⟨1, 1, .ow, 0x0⟩, ⟨2, 20, .ow, 0x0⟩, ⟨22, 6, .ow, 0x0⟩, ⟨28, 3, .ow, 0x0⟩, ⟨31, 1, .ow, 0x1⟩, ⟨32, 16, .ow, 0x0⟩, ⟨48, 1, .ow, 0x0⟩, ⟨49, 5, .ow, 0x0⟩, ⟨54, 1, .ow, 0x0⟩]⟩,
  ⟨"TBL_CNT_LEARN", 0x601000, 0x0, 1, 0x0, 1, [⟨0, 40, .ro, 0x0⟩]⟩,
  ⟨"TBL_CNT_MOVE", 0x601008, 0x0, 1, 0x0, 1, [⟨0, 40, .ro, 0x0⟩]⟩,
  ⟨"TBL_CNT_CONTENDED", 0x601010, 0x0, 1, 0x0, 1, [⟨0, 40, .ro, 0x0⟩]⟩,
  ⟨"TBL_CNT_STATIC_CONFLICT", 0x601018, 0x0, 1, 0x0, 1, [⟨0, 40, .ro, 0x0⟩]⟩,
  ⟨"TBL_CNT_LEARN_FULL", 0x601020, 0x0, 1, 0x0, 1, [⟨0, 40, .ro, 0x0⟩]⟩,
  ⟨"TBL_CNT_LEARN_OVF", 0x601028, 0x0, 1, 0x0, 1, [⟨0, 40, .ro, 0x0⟩]⟩,
  ⟨"TBL_CNT_ECC_CORR", 0x601030, 0x0, 1, 0x0, 1, [⟨0, 40, .ro, 0x0⟩]⟩,
  ⟨"TBL_CNT_ECC_UNCORR", 0x601038, 0x0, 1, 0x0, 1, [⟨0, 40, .ro, 0x0⟩]⟩,
  ⟨"TBL_CNT_ACACHE_MISS", 0x601040, 0x0, 1, 0x0, 1, [⟨0, 40, .ro, 0x0⟩]⟩,
  ⟨"TBL_CFG", 0x600000, 0x0, 1, 0x0, 1, [⟨0, 10, .ow, 0x64⟩, ⟨10, 1, .ow, 0x1⟩, ⟨11, 8, .ow, 0xE⟩, ⟨19, 8, .ow, 0x16⟩]⟩]

def regDescs2 : List RegDesc := [
  ⟨"WND_POOL_STATUS", 0x900000, 0x0, 1, 0x0, 1, [⟨0, 16, .ro, 0x0⟩, ⟨16, 16, .ro, 0x0⟩, ⟨32, 32, .ro, 0x0⟩]⟩,
  ⟨"WND_TG_CFG", 0x900008, 0x0, 1, 0x0, 1, [⟨0, 16, .ow, 0x64⟩, ⟨16, 16, .ow, 0xA⟩, ⟨32, 16, .ow, 0x64⟩, ⟨48, 8, .ow, 0x4⟩]⟩,
  ⟨"WND_DN_CFG", 0x900010, 0x0, 1, 0x0, 1, [⟨0, 4, .ow, 0x0⟩, ⟨4, 1, .ow, 0x0⟩, ⟨5, 20, .ow, 0x0⟩, ⟨32, 32, .ow, 0x3FFFFE⟩]⟩,
  ⟨"WND_PFC_CFG", 0x900100, 0x8, 32, 0x0, 1, [⟨0, 8, .ow, 0x0⟩, ⟨8, 8, .ow, 0x0⟩, ⟨16, 16, .ow, 0xFFFF⟩, ⟨32, 1, .ow, 0x0⟩]⟩,
  ⟨"WND_TG_STATUS", 0x900200, 0x10, 64, 0x0, 1, [⟨0, 1, .ro, 0x0⟩, ⟨1, 1, .ro, 0x0⟩, ⟨2, 1, .ro, 0x0⟩, ⟨3, 1, .ro, 0x0⟩, ⟨4, 8, .ro, 0x0⟩, ⟨32, 32, .ro, 0x0⟩]⟩,
  ⟨"Q_LIMITS", 0x901000, 0x80, 1024, 0x0, 1, [⟨0, 20, .ow, 0x200⟩, ⟨20, 20, .ow, 0x180⟩, ⟨40, 8, .ow, 0x0⟩, ⟨48, 1, .ow, 0x1⟩]⟩,
  ⟨"Q_FLOW", 0x901008, 0x80, 1024, 0x0, 1, [⟨0, 20, .ow, 0x100⟩, ⟨20, 20, .ow, 0xC0⟩, ⟨40, 1, .ow, 0x0⟩]⟩,
  ⟨"Q_SCHED", 0x901010, 0x80, 1024, 0x0, 1, [⟨0, 8, .ow, 0x1⟩, ⟨8, 32, .ow, 0x0⟩]⟩,
  ⟨"Q_STATUS", 0x901018, 0x80, 1024, 0x0, 1, [⟨0, 32, .ro, 0x0⟩, ⟨32, 20, .ro, 0x0⟩, ⟨52, 1, .ro, 0x0⟩, ⟨53, 1, .ro, 0x0⟩, ⟨54, 1, .ro, 0x0⟩]⟩,
  ⟨"Q_CNT_TX_FRAMES", 0x901020, 0x80, 1024, 0x0, 1, [⟨0, 40, .ro, 0x0⟩]⟩,
  ⟨"Q_CNT_TX_BYTES", 0x901028, 0x80, 1024, 0x0, 1, [⟨0, 40, .ro, 0x0⟩]⟩,
  ⟨"Q_CNT_DROP_FULL", 0x901030, 0x80, 1024, 0x0, 1, [⟨0, 40, .ro, 0x0⟩]⟩,
  ⟨"Q_CNT_DROP_YELLOW", 0x901038, 0x80, 1024, 0x0, 1, [⟨0, 40, .ro, 0x0⟩]⟩,
  ⟨"Q_CNT_DROP_STALE", 0x901040, 0x80, 1024, 0x0, 1, [⟨0, 40, .ro, 0x0⟩]⟩,
  ⟨"Q_CNT_DROP_MEMCHECK", 0x901048, 0x80, 1024, 0x0, 1, [⟨0, 40, .ro, 0x0⟩]⟩,
  ⟨"Q_CNT_DROP_OTHER", 0x901050, 0x80, 1024, 0x0, 1, [⟨0, 40, .ro, 0x0⟩]⟩,
  ⟨"Q_CNT_PAUSED_US", 0x901058, 0x80, 1024, 0x0, 1, [⟨0, 40, .ro, 0x0⟩]⟩,
  ⟨"WND_CNT_DN_SENT", 0x900020, 0x0, 1, 0x0, 1, [⟨0, 40, .ro, 0x0⟩]⟩,
  ⟨"WND_CNT_DN_SUPPRESSED", 0x900028, 0x0, 1, 0x0, 1, [⟨0, 40, .ro, 0x0⟩]⟩,
  ⟨"WND_SHP_CREDIT", 0x930000, 0x8, 1088, 0x0, 1, [⟨0, 48, .ro, 0x0⟩]⟩,
  ⟨"WND_CNT_PORT_DROP", 0x940000, 0x100, 64, 0x8, 24, [⟨0, 40, .ro, 0x0⟩]⟩,
  ⟨"MEM_CFG", 0xA00000, 0x0, 1, 0x0, 1, [⟨0, 8, .ow, 0x18⟩, ⟨8, 8, .ow, 0x8⟩, ⟨16, 8, .ow, 0x14⟩]⟩,
  ⟨"MEM_STATUS", 0xA00008, 0x0, 1, 0x0, 1, [⟨0, 1, .ro, 0x0⟩, ⟨1, 1, .ro, 0x0⟩, ⟨2, 1, .ro, 0x0⟩, ⟨3, 1, .ro, 0x0⟩, ⟨4, 8, .ro, 0x0⟩]⟩,
  ⟨"MEM_POISON_LAST", 0xA00010, 0x0, 1, 0x0, 1, [⟨0, 27, .ro, 0x0⟩]⟩]

def regDescs3 : List RegDesc := [
  ⟨"MEM_REGION", 0xA00100, 0x8, 6, 0x0, 1, [⟨0, 8, .ow, 0x0⟩]⟩,
  ⟨"MEM_KEY_STATUS", 0xA00200, 0x8, 256, 0x0, 1, [⟨0, 8, .ro, 0x0⟩, ⟨8, 1, .ro, 0x0⟩]⟩,
  ⟨"MEM_START", 0xA01000, 0x8, 64, 0x0, 1, [⟨0, 14, .ow, 0x800⟩]⟩,
  ⟨"MEM_CNT_ECC_CORR", 0xA02000, 0x0, 1, 0x0, 1, [⟨0, 40, .ro, 0x0⟩]⟩,
  ⟨"MEM_CNT_CHECK_FAIL", 0xA02008, 0x0, 1, 0x0, 1, [⟨0, 40, .ro, 0x0⟩]⟩,
  ⟨"MEM_CNT_PARTIAL", 0xA02010, 0x0, 1, 0x0, 1, [⟨0, 40, .ro, 0x0⟩]⟩,
  ⟨"MEM_CNT_COALESCED", 0xA02018, 0x0, 1, 0x0, 1, [⟨0, 40, .ro, 0x0⟩]⟩,
  ⟨"MEM_CNT_WITHHELD", 0xA02020, 0x0, 1, 0x0, 1, [⟨0, 40, .ro, 0x0⟩]⟩,
  ⟨"MEM_CNT_NO_KEY", 0xA02028, 0x0, 1, 0x0, 1, [⟨0, 40, .ro, 0x0⟩]⟩,
  ⟨"MEM_CNT_SCRUBBED", 0xA02030, 0x0, 1, 0x0, 1, [⟨0, 40, .ro, 0x0⟩]⟩,
  ⟨"MAC_PORT_CFG", 0x300000, 0x1000, 66, 0x0, 1, [⟨0, 14, .ow, 0x5EE⟩]⟩,
  ⟨"MAC_PORT_STATUS", 0x300008, 0x1000, 66, 0x0, 1, [⟨0, 1, .ro, 0x0⟩, ⟨1, 1, .ro, 0x0⟩, ⟨2, 1, .ro, 0x0⟩, ⟨16, 14, .ro, 0x0⟩]⟩,
  ⟨"MAC_CNT_RX_FRAMES_OK", 0x300100, 0x1000, 66, 0x0, 1, [⟨0, 40, .ro, 0x0⟩]⟩,
  ⟨"MAC_CNT_RX_OCTETS_OK", 0x300108, 0x1000, 66, 0x0, 1, [⟨0, 40, .ro, 0x0⟩]⟩,
  ⟨"MAC_CNT_RX_UCAST", 0x300110, 0x1000, 66, 0x0, 1, [⟨0, 40, .ro, 0x0⟩]⟩,
  ⟨"MAC_CNT_RX_MCAST", 0x300118, 0x1000, 66, 0x0, 1, [⟨0, 40, .ro, 0x0⟩]⟩,
  ⟨"MAC_CNT_RX_BCAST", 0x300120, 0x1000, 66, 0x0, 1, [⟨0, 40, .ro, 0x0⟩]⟩,
  ⟨"MAC_CNT_RX_PAUSE", 0x300128, 0x1000, 66, 0x0, 1, [⟨0, 40, .ro, 0x0⟩]⟩,
  ⟨"MAC_CNT_RX_PFC", 0x300130, 0x1000, 66, 0x8, 8, [⟨0, 40, .ro, 0x0⟩]⟩,
  ⟨"MAC_CNT_RX_SIZE", 0x300170, 0x1000, 66, 0x8, 10, [⟨0, 40, .ro, 0x0⟩]⟩,
  ⟨"MAC_CNT_RX_FCS_ERR", 0x3001C0, 0x1000, 66, 0x0, 1, [⟨0, 40, .ro, 0x0⟩]⟩,
  ⟨"MAC_CNT_RX_RUNT", 0x3001C8, 0x1000, 66, 0x0, 1, [⟨0, 40, .ro, 0x0⟩]⟩,
  ⟨"MAC_CNT_RX_FRAGMENT", 0x3001D0, 0x1000, 66, 0x0, 1, [⟨0, 40, .ro, 0x0⟩]⟩,
  ⟨"MAC_CNT_RX_OVERSIZE", 0x3001D8, 0x1000, 66, 0x0, 1, [⟨0, 40, .ro, 0x0⟩]⟩]

def regDescs4 : List RegDesc := [
  ⟨"MAC_CNT_RX_JABBER", 0x3001E0, 0x1000, 66, 0x0, 1, [⟨0, 40, .ro, 0x0⟩]⟩,
  ⟨"MAC_CNT_RX_CODE_ERR", 0x3001E8, 0x1000, 66, 0x0, 1, [⟨0, 40, .ro, 0x0⟩]⟩,
  ⟨"MAC_CNT_RX_CTRL_DISCARD", 0x3001F0, 0x1000, 66, 0x0, 1, [⟨0, 40, .ro, 0x0⟩]⟩,
  ⟨"MAC_CNT_TX_FRAMES_OK", 0x300200, 0x1000, 66, 0x0, 1, [⟨0, 40, .ro, 0x0⟩]⟩,
  ⟨"MAC_CNT_TX_OCTETS_OK", 0x300208, 0x1000, 66, 0x0, 1, [⟨0, 40, .ro, 0x0⟩]⟩,
  ⟨"MAC_CNT_TX_UCAST", 0x300210, 0x1000, 66, 0x0, 1, [⟨0, 40, .ro, 0x0⟩]⟩,
  ⟨"MAC_CNT_TX_MCAST", 0x300218, 0x1000, 66, 0x0, 1, [⟨0, 40, .ro, 0x0⟩]⟩,
  ⟨"MAC_CNT_TX_BCAST", 0x300220, 0x1000, 66, 0x0, 1, [⟨0, 40, .ro, 0x0⟩]⟩,
  ⟨"MAC_CNT_TX_PFC", 0x300228, 0x1000, 66, 0x8, 8, [⟨0, 40, .ro, 0x0⟩]⟩,
  ⟨"MAC_CNT_TX_SIZE", 0x300268, 0x1000, 66, 0x8, 10, [⟨0, 40, .ro, 0x0⟩]⟩,
  ⟨"MAC_CNT_TX_UNDERRUN", 0x3002B8, 0x1000, 66, 0x0, 1, [⟨0, 40, .ro, 0x0⟩]⟩,
  ⟨"MAC_CNT_TX_FCS_INVERTED", 0x3002C0, 0x1000, 66, 0x0, 1, [⟨0, 40, .ro, 0x0⟩]⟩,
  ⟨"LAN_LANE_CFG", 0x200000, 0x100, 73, 0x0, 1, [⟨0, 1, .ow, 0x0⟩, ⟨1, 1, .ow, 0x1⟩, ⟨2, 1, .ow, 0x0⟩, ⟨3, 2, .ow, 0x2⟩, ⟨5, 2, .ow, 0x2⟩, ⟨7, 1, .ow, 0x1⟩]⟩,
  ⟨"LAN_LANE_STATUS", 0x200008, 0x100, 73, 0x0, 1, [⟨0, 1, .ro, 0x0⟩, ⟨1, 1, .ro, 0x0⟩, ⟨2, 1, .ro, 0x0⟩, ⟨3, 1, .ro, 0x0⟩, ⟨4, 1, .ro, 0x0⟩, ⟨5, 1, .ro, 0x0⟩, ⟨6, 3, .ro, 0x0⟩]⟩,
  ⟨"LAN_CNT_CW", 0x200040, 0x100, 73, 0x0, 1, [⟨0, 40, .ro, 0x0⟩]⟩,
  ⟨"LAN_CNT_CW_CORR", 0x200048, 0x100, 73, 0x0, 1, [⟨0, 40, .ro, 0x0⟩]⟩,
  ⟨"LAN_CNT_CW_UNCORR", 0x200050, 0x100, 73, 0x0, 1, [⟨0, 40, .ro, 0x0⟩]⟩,
  ⟨"LAN_CNT_SYM", 0x200058, 0x100, 73, 0x0, 1, [⟨0, 40, .ro, 0x0⟩]⟩,
  ⟨"LAN_CNT_LOS", 0x200060, 0x100, 73, 0x0, 1, [⟨0, 40, .ro, 0x0⟩]⟩,
  ⟨"LAN_CNT_LOL", 0x200068, 0x100, 73, 0x0, 1, [⟨0, 40, .ro, 0x0⟩]⟩,
  ⟨"LAN_CNT_PRBS_BITS", 0x200070, 0x100, 73, 0x0, 1, [⟨0, 40, .ro, 0x0⟩]⟩,
  ⟨"LAN_CNT_PRBS_ERR", 0x200078, 0x100, 73, 0x0, 1, [⟨0, 40, .ro, 0x0⟩]⟩,
  ⟨"LAN_CNT_HIST", 0x200080, 0x100, 73, 0x8, 15, [⟨0, 40, .ro, 0x0⟩]⟩,
  ⟨"LAN_GRP_CFG", 0x208000, 0x8, 8, 0x0, 1, [⟨0, 3, .ow, 0x0⟩, ⟨3, 1, .ow, 0x1⟩, ⟨4, 1, .ow, 0x0⟩, ⟨5, 1, .ow, 0x0⟩, ⟨6, 1, .ow, 0x1⟩]⟩]

def regDescs5 : List RegDesc := [
  ⟨"LAN_GRP_STATUS", 0x208040, 0x8, 8, 0x0, 1, [⟨0, 1, .ro, 0x0⟩, ⟨1, 8, .ro, 0x0⟩]⟩,
  ⟨"GATE_CFG", 0xB00000, 0x0, 1, 0x0, 1, [⟨0, 10, .ow, 0xA⟩, ⟨10, 6, .ow, 0x14⟩]⟩,
  ⟨"GATE_STATUS", 0xB00008, 0x0, 1, 0x0, 1, [⟨0, 15, .ro, 0x0⟩, ⟨15, 13, .ro, 0x0⟩, ⟨28, 11, .ro, 0x0⟩, ⟨39, 1, .ro, 0x0⟩]⟩,
  ⟨"GATE_CNT_ACCEPT", 0xB00100, 0x0, 1, 0x0, 1, [⟨0, 40, .ro, 0x0⟩]⟩,
  ⟨"GATE_CNT_UNSIGNED", 0xB00108, 0x0, 1, 0x0, 1, [⟨0, 40, .ro, 0x0⟩]⟩,
  ⟨"GATE_CNT_BADSIG", 0xB00110, 0x0, 1, 0x0, 1, [⟨0, 40, .ro, 0x0⟩]⟩,
  ⟨"GATE_CNT_REPLAY", 0xB00118, 0x0, 1, 0x0, 1, [⟨0, 40, .ro, 0x0⟩]⟩,
  ⟨"GATE_CNT_RATE", 0xB00120, 0x0, 1, 0x0, 1, [⟨0, 40, .ro, 0x0⟩]⟩,
  ⟨"GATE_CNT_TIMEOUT", 0xB00128, 0x0, 1, 0x0, 1, [⟨0, 40, .ro, 0x0⟩]⟩,
  ⟨"GATE_CNT_VERIFY", 0xB00130, 0x0, 1, 0x0, 1, [⟨0, 40, .ro, 0x0⟩]⟩,
  ⟨"GATE_FLOW_CFG", 0xB10000, 0x40, 1024, 0x0, 1, [⟨0, 13, .ow, 0x0⟩, ⟨13, 1, .ow, 0x0⟩, ⟨14, 1, .ow, 0x0⟩, ⟨16, 16, .ow, 0x0⟩, ⟨32, 32, .ow, 0x0⟩]⟩,
  ⟨"GATE_FLOW_RATE", 0xB10008, 0x40, 1024, 0x0, 1, [⟨0, 20, .ow, 0x0⟩]⟩,
  ⟨"GATE_FCNT_ACCEPT", 0xB10010, 0x40, 1024, 0x0, 1, [⟨0, 40, .ro, 0x0⟩]⟩,
  ⟨"GATE_FCNT_UNSIGNED", 0xB10018, 0x40, 1024, 0x0, 1, [⟨0, 40, .ro, 0x0⟩]⟩,
  ⟨"GATE_FCNT_BADSIG", 0xB10020, 0x40, 1024, 0x0, 1, [⟨0, 40, .ro, 0x0⟩]⟩,
  ⟨"GATE_FCNT_REPLAY", 0xB10028, 0x40, 1024, 0x0, 1, [⟨0, 40, .ro, 0x0⟩]⟩,
  ⟨"GATE_FCNT_RATE", 0xB10030, 0x40, 1024, 0x0, 1, [⟨0, 40, .ro, 0x0⟩]⟩,
  ⟨"TIM_NOW", 0xC00000, 0x0, 1, 0x0, 1, [⟨0, 64, .ro, 0x0⟩]⟩,
  ⟨"TIM_STATUS", 0xC00008, 0x0, 1, 0x0, 1, [⟨0, 2, .ro, 0x0⟩]⟩,
  ⟨"TIM_CFG", 0xC00010, 0x0, 1, 0x0, 1, [⟨0, 6, .ow, 0x4⟩, ⟨6, 6, .ow, 0x2⟩]⟩,
  ⟨"TIM_RCLK", 0xC00018, 0x0, 1, 0x0, 1, [⟨0, 8, .ow, 0xFF⟩, ⟨8, 1, .ow, 0x0⟩, ⟨16, 8, .ow, 0xFF⟩, ⟨24, 1, .ow, 0x0⟩]⟩,
  ⟨"TIM_XC", 0xC00020, 0x0, 1, 0x0, 1, [⟨0, 32, .ro, 0x0⟩, ⟨32, 32, .ro, 0x0⟩]⟩,
  ⟨"TIM_MERGE_DIFF", 0xC01000, 0x8, 64, 0x0, 1, [⟨0, 32, .ro, 0x0⟩, ⟨32, 32, .rc, 0x0⟩]⟩,
  ⟨"TIM_LANE_LQ", 0xC02000, 0x8, 72, 0x0, 1, [⟨0, 32, .ro, 0x0⟩, ⟨32, 1, .ro, 0x0⟩, ⟨33, 8, .ow, 0x40⟩]⟩]

def regDescs6 : List RegDesc := [
  ⟨"TIM_QSAMPLE", 0xC04000, 0x10, 1024, 0x0, 1, [⟨0, 32, .ro, 0x0⟩, ⟨32, 32, .ro, 0x0⟩]⟩,
  ⟨"TIM_QSAMPLE_MAX", 0xC04008, 0x10, 1024, 0x0, 1, [⟨0, 32, .rc, 0x0⟩, ⟨32, 32, .rc, 0x0⟩]⟩,
  ⟨"TIM_CNT_PTP_CORR", 0xC00100, 0x0, 1, 0x0, 1, [⟨0, 40, .ro, 0x0⟩]⟩,
  ⟨"TIM_CNT_PTP_UNCORR", 0xC00108, 0x0, 1, 0x0, 1, [⟨0, 40, .ro, 0x0⟩]⟩,
  ⟨"TIM_CNT_PTP_LATE", 0xC00110, 0x0, 1, 0x0, 1, [⟨0, 40, .ro, 0x0⟩]⟩,
  ⟨"TWN_CFG", 0xD00000, 0x0, 1, 0x0, 1, [⟨0, 1, .ow, 0x0⟩, ⟨1, 1, .ow, 0x0⟩, ⟨2, 20, .ow, 0x0⟩, ⟨22, 20, .ow, 0x0⟩, ⟨42, 10, .ow, 0x64⟩]⟩,
  ⟨"TWN_STATUS", 0xD00008, 0x0, 1, 0x0, 1, [⟨0, 1, .ro, 0x0⟩, ⟨1, 2, .ro, 0x0⟩, ⟨3, 2, .ro, 0x0⟩, ⟨5, 2, .ro, 0x0⟩, ⟨7, 1, .ro, 0x0⟩, ⟨8, 1, .ro, 0x0⟩, ⟨9, 1, .ro, 0x0⟩, ⟨10, 1, .ro, 0x0⟩, ⟨32, 32, .ro, 0x0⟩]⟩,
  ⟨"TWN_DOUT", 0xD00010, 0x0, 1, 0x0, 1, [⟨0, 8, .ow, 0x0⟩, ⟨8, 8, .ro, 0x0⟩, ⟨16, 8, .ro, 0x0⟩]⟩,
  ⟨"TWN_DOUT_SRC", 0xD00018, 0x0, 1, 0x0, 1, [⟨0, 64, .ow, 0x0⟩]⟩,
  ⟨"TWN_SHAFT_CFG", 0xD00020, 0x0, 1, 0x0, 1, [⟨0, 6, .ow, 0x0⟩, ⟨6, 1, .ow, 0x0⟩]⟩,
  ⟨"TWN_SHAFT_MAC", 0xD00028, 0x0, 1, 0x0, 1, [⟨0, 48, .ow, 0x0⟩]⟩,
  ⟨"TWN_SHAFT_PEER", 0xD00030, 0x0, 1, 0x0, 1, [⟨0, 48, .ow, 0x0⟩]⟩,
  ⟨"TWN_XC_BIND", 0xD00100, 0x8, 32, 0x0, 1, [⟨0, 1, .ow, 0x0⟩, ⟨1, 1, .ow, 0x0⟩, ⟨2, 5, .ow, 0x0⟩]⟩,
  ⟨"TWN_HEWER_STATUS", 0xD01000, 0x8, 64, 0x0, 1, [⟨0, 1, .ro, 0x0⟩, ⟨1, 1, .ro, 0x0⟩, ⟨2, 3, .ro, 0x0⟩]⟩,
  ⟨"TWN_ELIM_CFG", 0xD02000, 0x8, 1024, 0x0, 1, [⟨0, 13, .ow, 0x0⟩, ⟨13, 1, .ow, 0x0⟩, ⟨14, 7, .ow, 0x20⟩, ⟨21, 16, .ow, 0x7D0⟩, ⟨37, 1, .ow, 0x0⟩]⟩,
  ⟨"TWN_CNT_HB_MISS", 0xD04000, 0x0, 1, 0x0, 1, [⟨0, 40, .ro, 0x0⟩]⟩,
  ⟨"TWN_CNT_SWITCH", 0xD04008, 0x0, 1, 0x0, 1, [⟨0, 40, .ro, 0x0⟩]⟩,
  ⟨"TWN_CNT_OVERLAP", 0xD04010, 0x0, 1, 0x0, 1, [⟨0, 40, .ro, 0x0⟩]⟩,
  ⟨"TWN_CNT_XC_AUTH_FAIL", 0xD04018, 0x0, 1, 0x0, 1, [⟨0, 40, .ro, 0x0⟩]⟩,
  ⟨"TWN_CNT_XC_DROP", 0xD04020, 0x0, 1, 0x0, 1, [⟨0, 40, .ro, 0x0⟩]⟩,
  ⟨"TWN_CNT_ELIM_DUP", 0xD04028, 0x0, 1, 0x0, 1, [⟨0, 40, .ro, 0x0⟩]⟩,
  ⟨"HST_SERIAL", 0x8, 0x8, 2, 0x0, 1, [⟨0, 64, .ro, 0x0⟩]⟩,
  ⟨"HST_LINK_STATUS", 0x18, 0x0, 1, 0x0, 1, [⟨0, 1, .ro, 0x0⟩, ⟨1, 3, .ro, 0x0⟩, ⟨4, 4, .ro, 0x0⟩, ⟨8, 1, .ro, 0x0⟩]⟩,
  ⟨"HST_IDE_CFG", 0x20, 0x0, 1, 0x0, 1, [⟨0, 1, .ow, 0x0⟩, ⟨1, 4, .ro, 0x0⟩]⟩]

def regDescs7 : List RegDesc := [
  ⟨"HST_FN_CELLS", 0x100, 0x8, 16, 0x0, 1, [⟨0, 16, .ro, 0x0⟩, ⟨16, 15, .ro, 0x0⟩]⟩,
  ⟨"HST_CNT_ACCESS_VIOL", 0x200, 0x0, 1, 0x0, 1, [⟨0, 40, .ro, 0x0⟩]⟩,
  ⟨"HST_CNT_OW_IGNORED", 0x208, 0x0, 1, 0x0, 1, [⟨0, 40, .ro, 0x0⟩]⟩,
  ⟨"HST_CNT_IDE_FAIL", 0x210, 0x0, 1, 0x0, 1, [⟨0, 40, .ro, 0x0⟩]⟩,
  ⟨"TMP_STATUS", 0xE00000, 0x0, 1, 0x0, 1, [⟨0, 3, .ro, 0x0⟩, ⟨3, 1, .ro, 0x0⟩, ⟨4, 1, .ro, 0x0⟩, ⟨8, 6, .ro, 0x0⟩]⟩,
  ⟨"TMP_ALARM", 0xE00008, 0x0, 1, 0x0, 1, [⟨0, 1, .w1c, 0x0⟩]⟩,
  ⟨"TMP_LAST_DIP", 0xE00010, 0x0, 1, 0x0, 1, [⟨0, 4, .ro, 0x0⟩, ⟨16, 16, .ro, 0x0⟩, ⟨32, 32, .ro, 0x0⟩]⟩,
  ⟨"TMP_LEVEL", 0xE00100, 0x8, 32, 0x0, 1, [⟨0, 3, .ow, 0x0⟩, ⟨4, 3, .ro, 0x0⟩, ⟨8, 3, .ro, 0x0⟩]⟩,
  ⟨"TMP_RAIL", 0xE00200, 0x8, 9, 0x0, 1, [⟨0, 16, .ro, 0x0⟩, ⟨16, 16, .rc, 0x0⟩, ⟨32, 16, .rc, 0x0⟩]⟩,
  ⟨"TMP_TEMP", 0xE00300, 0x8, 17, 0x0, 1, [⟨0, 16, .ro, 0x0⟩, ⟨16, 16, .rc, 0x0⟩]⟩,
  ⟨"TMP_CNT_CAUTION", 0xE00400, 0x0, 1, 0x0, 1, [⟨0, 40, .ro, 0x0⟩]⟩,
  ⟨"TMP_CNT_TRIGGER", 0xE00408, 0x0, 1, 0x0, 1, [⟨0, 40, .ro, 0x0⟩]⟩,
  ⟨"LR_STATUS", 0xE02000, 0x0, 1, 0x0, 1, [⟨0, 1, .ro, 0x0⟩, ⟨1, 1, .ro, 0x0⟩, ⟨2, 7, .ro, 0x0⟩, ⟨9, 16, .ro, 0x0⟩, ⟨25, 1, .ro, 0x0⟩]⟩,
  ⟨"LR_RTC", 0xE02008, 0x0, 1, 0x0, 1, [⟨0, 64, .ro, 0x0⟩]⟩,
  ⟨"LR_CFG", 0xE02010, 0x0, 1, 0x0, 1, [⟨0, 4, .ow, 0x0⟩, ⟨4, 8, .ow, 0x1⟩]⟩,
  ⟨"TLY_STATUS", 0xE04000, 0x0, 1, 0x0, 1, [⟨0, 48, .ro, 0x0⟩]⟩,
  ⟨"TLY_FILL", 0xE04008, 0x0, 1, 0x0, 1, [⟨0, 15, .ro, 0x0⟩, ⟨16, 17, .ro, 0x0⟩]⟩,
  ⟨"TLY_EVID_LOST", 0xE04010, 0x0, 1, 0x0, 1, [⟨0, 32, .ro, 0x0⟩]⟩,
  ⟨"TLY_CFG", 0xE04018, 0x0, 1, 0x0, 1, [⟨0, 8, .ow, 0x10⟩, ⟨8, 16, .ow, 0x64⟩]⟩,
  ⟨"TLY_CNT_APPENDED", 0xE04100, 0x0, 1, 0x0, 1, [⟨0, 40, .ro, 0x0⟩]⟩,
  ⟨"TLY_CNT_RING_DISCARD", 0xE04108, 0x0, 1, 0x0, 1, [⟨0, 40, .ro, 0x0⟩]⟩,
  ⟨"TLY_CNT_SUPPRESSED", 0xE04110, 0x0, 1, 0x0, 1, [⟨0, 40, .ro, 0x0⟩]⟩,
  ⟨"TLY_CNT_TORN", 0xE04118, 0x0, 1, 0x0, 1, [⟨0, 40, .ro, 0x0⟩]⟩,
  ⟨"PWR_STATUS", 0x100000, 0x0, 1, 0x0, 1, [⟨0, 3, .ro, 0x0⟩, ⟨3, 2, .ro, 0x0⟩, ⟨5, 1, .ro, 0x0⟩, ⟨6, 1, .ro, 0x0⟩, ⟨7, 1, .ro, 0x0⟩]⟩]

def regDescs8 : List RegDesc := [
  ⟨"PWR_RESET_CAUSE", 0x100008, 0x0, 1, 0x0, 1, [⟨0, 4, .ro, 0x0⟩, ⟨4, 4, .ro, 0x0⟩, ⟨8, 3, .ro, 0x0⟩, ⟨16, 16, .ro, 0x0⟩]⟩,
  ⟨"PWR_CFG", 0x100010, 0x0, 1, 0x0, 1, [⟨0, 1, .ow, 0x0⟩, ⟨1, 14, .ow, 0x0⟩]⟩,
  ⟨"PWR_FW", 0x100018, 0x0, 1, 0x0, 1, [⟨0, 32, .ro, 0x0⟩, ⟨32, 32, .ro, 0x0⟩]⟩,
  ⟨"PWR_ATTIC", 0x100020, 0x0, 1, 0x0, 1, [⟨0, 9, .ro, 0x0⟩, ⟨16, 6, .ro, 0x0⟩]⟩,
  ⟨"PWR_COUNTER", 0x100100, 0x8, 32, 0x0, 1, [⟨0, 32, .ro, 0x0⟩]⟩,
  ⟨"PWR_DOM", 0x100400, 0x8, 80, 0x0, 1, [⟨0, 16, .ro, 0x0⟩, ⟨16, 2, .ro, 0x0⟩]⟩,
  ⟨"PWR_DIN", 0x100030, 0x0, 1, 0x0, 1, [⟨0, 8, .ro, 0xFF⟩, ⟨8, 8, .w1c, 0x0⟩]⟩,
  ⟨"LFR_TRUNK_CFG", 0x400000, 0x100, 16, 0x0, 1, [⟨0, 1, .ow, 0x0⟩, ⟨1, 3, .ow, 0x0⟩, ⟨4, 1, .ow, 0x1⟩, ⟨5, 3, .ow, 0x0⟩, ⟨8, 1, .ow, 0x1⟩, ⟨9, 1, .ow, 0x1⟩, ⟨10, 14, .ow, 0x0⟩, ⟨24, 4, .ow, 0x0⟩, ⟨28, 3, .ow, 0x0⟩, ⟨31, 1, .ow, 0x0⟩]⟩,
  ⟨"LFR_TRUNK_RXCFG", 0x400030, 0x100, 16, 0x0, 1, [⟨0, 1, .ow, 0x0⟩, ⟨1, 3, .ow, 0x0⟩, ⟨4, 1, .ow, 0x1⟩, ⟨5, 3, .ow, 0x0⟩, ⟨8, 1, .ow, 0x1⟩, ⟨9, 1, .ow, 0x1⟩, ⟨10, 14, .ow, 0x0⟩, ⟨24, 4, .ow, 0x0⟩, ⟨28, 3, .ow, 0x0⟩, ⟨31, 1, .ow, 0x0⟩]⟩,
  ⟨"LFR_TRIB_SLOTS_LO", 0x402008, 0x2000, 2, 0x40, 64, [⟨0, 64, .ow, 0x0⟩]⟩,
  ⟨"LFR_TRIB_SLOTS_HI", 0x402010, 0x2000, 2, 0x40, 64, [⟨0, 64, .ow, 0x0⟩]⟩,
  ⟨"MSC_CNT", 0x500040, 0x100, 32, 0x8, 7, [⟨0, 40, .ro, 0x0⟩]⟩]

/-- Every register of PF BAR0 that the spec's tables describe, at its 8-byte word. -/
def regDescs : List RegDesc :=
  regDescs0 ++ regDescs1 ++ regDescs2 ++ regDescs3 ++ regDescs4 ++ regDescs5 ++ regDescs6 ++ regDescs7 ++ regDescs8

end Sys2Proof.Machine
end

