-- ==== Sys2Proof/Machine/Table.lean ====
section
/-! DEFINITION. Sparse tables keyed by numbers: every array of the machine that is too long to write out. One canonical form: keys strictly rising, and no entry equal to what an unlisted key reads as. -/
namespace Sys2Proof.Machine

/-- A sparse table. What an unlisted key reads as is a function `d` given to each operation. -/
abbrev Table (α : Type) := List (Nat × α)

/-- The entry at a key. -/
def tget {α : Type} (d : Nat → α) : Table α → Nat → α
  | [], k => d k
  | e :: t, k => if e.1 = k then e.2 else tget d t k

/-- The table without a key. -/
def tdel {α : Type} : Table α → Nat → Table α
  | [], _ => []
  | e :: t, k => if e.1 = k then tdel t k else e :: tdel t k

/-- The table with an entry put before the first larger key. -/
def tins {α : Type} : Table α → Nat → α → Table α
  | [], k, v => [(k, v)]
  | e :: t, k, v => if k ≤ e.1 then (k, v) :: e :: t else e :: tins t k v

/-- The table with an entry written; an entry equal to the unlisted value is not stored. -/
def tput {α : Type} [DecidableEq α] (d : Nat → α) (t : Table α) (k : Nat) (v : α) : Table α :=
  if v = d k then tdel t k else tins (tdel t k) k v

/-- Every key of the table lies above `n`, rising. -/
def tsorted {α : Type} : Option Nat → Table α → Bool
  | _, [] => true
  | lo, e :: t => (match lo with | none => true | some n => decide (n < e.1)) && tsorted (some e.1) t

/-- The canonical form: keys rising, no stored entry equal to the unlisted value. -/
def Table.wf {α : Type} [DecidableEq α] (d : Nat → α) (t : Table α) : Bool :=
  tsorted none t && t.all (fun e => decide (e.2 ≠ d e.1))

/-- The entries whose value has a property, dropped. -/
def tdrop {α : Type} (p : Nat → α → Bool) (t : Table α) : Table α := t.filter (fun e => !p e.1 e.2)

/-- Every stored entry changed by a function; entries that come to equal the unlisted value leave. -/
def tmap {α : Type} [DecidableEq α] (d : Nat → α) (f : Nat → α → α) : Table α → Table α
  | [] => []
  | e :: t => if f e.1 e.2 = d e.1 then tmap d f t else (e.1, f e.1 e.2) :: tmap d f t

/-- The entry at a key of a table without a default: absent keys hold nothing. -/
def tfind {α : Type} : Table α → Nat → Option α
  | [], _ => none
  | e :: t, k => if e.1 = k then some e.2 else tfind t k

/-- The table with an entry put at a key. -/
def tset {α : Type} (t : Table α) (k : Nat) (v : α) : Table α := tins (tdel t k) k v

end Sys2Proof.Machine
end

