-- ==== Sys2Proof/Machine/Registers.lean ====
section
/-! DEFINITION. Finding a register of PF BAR0 by its offset, and what it reads at reset. -/
namespace Sys2Proof.Machine

/-- Does the 8-byte word at an offset belong to a register of the map. -/
def RegDesc.covers (d : RegDesc) (off : Nat) : Bool :=
  if off < d.base then false
  else if d.s1 = 0 then off == d.base
  else decide ((off - d.base) / d.s1 < d.n1) &&
    (if d.s2 = 0 then (off - d.base) % d.s1 == 0
     else decide ((off - d.base) % d.s1 / d.s2 < d.n2) && (off - d.base) % d.s1 % d.s2 == 0)

/-- The register at an 8-byte offset of PF BAR0, if the tables name one. -/
def descAt (off : Nat) : Option RegDesc := regDescs.find? (fun d => d.covers off)

/-- The reset word of a register from its fields. -/
def fieldsReset : List FieldDesc → Nat
  | [] => 0
  | f :: t => f.reset % 2 ^ f.len * 2 ^ f.lo + fieldsReset t

/-- What every word of PF BAR0 reads at reset. MEM_REGION takes the keys of Table 10.1, which are 0xFF less the region number. -/
def regReset (off : Nat) : W64 :=
  if Reg.MEM_REGION 0 ≤ off ∧ off ≤ Reg.MEM_REGION 5 then BitVec.ofNat 64 (0xFF - (off - Reg.MEM_REGION 0) / 8)
  else match descAt off with
    | some d => BitVec.ofNat 64 (fieldsReset d.fields)
    | none => 0

/-- The bits of a register that have a field type. -/
def typeMask (t : FTy) : List FieldDesc → W64
  | [] => 0
  | f :: r => (if f.ty = t then fmask ⟨f.lo, f.len⟩ else 0) ||| typeMask t r

/-- What a word of a user page reads at reset: 0, but for the mask bit of an MSI-X table entry, which PCI Express sets at reset. -/
def pageReset (key : Nat) : W64 :=
  if 0x9000 ≤ key % 0x10000 ∧ key % 0x10000 < 0x9400 ∧ key % 16 = 8 then BitVec.ofNat 64 (2 ^ 32) else 0

end Sys2Proof.Machine
end

