-- ==== Sys2Proof/Machine/Types.lean ====
section
/-! DEFINITION. The record types the state is made of, chapter by chapter of the spec. -/
namespace Sys2Proof.Machine

/-! Guard, lamp room, tally (chapter 16) -/

/-- One tally record as its fields (Table 16.6). `mark` is its VALID byte, `slot` the place it lies in its area. -/
structure TRec where
  seq : Nat
  time : Nat
  code : Nat
  sev : Nat
  evid : Bool
  level : Nat
  srcKind : Nat
  srcIdx : Nat
  suppressed : Nat
  st : Nat
  data : Bytes
  mark : Byte
  slot : Nat
  deriving DecidableEq, Repr

/-- The open collection window of R421: the codes fired so far, oldest first, how many fired, and the islands marked erased by power-off. -/
structure AlarmWin where
  start : Nat
  level : Nat
  codes : List Nat
  fired : Nat
  erased : Nat
  readBack : Nat
  galOff : Nat
  islOff : Nat
  deriving DecidableEq, Repr

/-- An order that is issued, held or waiting: its code, arguments g16 to g23, who takes its answer (a foreman thread below 4 with its register rd; 4 + ticket for a deferred order; nobody above), the host function, the source as R222 numbers it, the signer's flags and mask as they stood at acceptance, the signer and SEQ, whether its bundle is that of R447, the attachments of its bundle, and the cell content an image order brings with it. -/
structure OrdReq where
  code : Nat
  args : List W64
  t : Nat
  rd : Nat
  fn : Nat
  src : Nat
  admin : Bool
  testOk : Bool
  mask : Nat
  signer : Nat
  seq : Nat
  blank : Bool
  atts : List Bytes
  cell : Option Bytes
  /-- What the check of its reads from landing cells says (R287). -/
  ecc : Ecc
  deriving DecidableEq, Repr

/-- Work the caution state holds in arrival order (R418, R137). -/
inductive Held
  | order (o : OrdReq)
  | fill (handle : Nat) (ecc : Ecc)
  | remask (d : Nat) (ok : Bool)
  | expire (slot : Nat)
  | withdraw (slot : Nat)
  | sweep (deep : Bool) (slot : Nat)
  | tubKey (rx : Bool) (trib epoch : Nat)
  | oldKeys (trunk : Nat)
  | bundleSeq (ticket : Nat)
  | gateFloor (entry seqNo : Nat) (ecc : Ecc) (wrOk : Bool)
  | epochTx (trunk : Nat)
  | rxEpoch (trunk : Nat) (epoch : Nat)
  deriving DecidableEq, Repr

/-- The guard (R416 to R424): the caution state's rail, minimum and start; held work; the level of the last L3 or L4; the open window. -/
structure Guard where
  dipRail : Nat
  dipStart : Nat
  cautionLong : Bool
  held : List Held
  halted : Nat
  win : Option AlarmWin
  /-- Tokens of an event code's bucket that no entry lists (R435). -/
  bucketBase : Nat
  buckets : Table Nat
  /-- Records of a code suppressed since the last one written (R435). -/
  suppressed : Table Nat
  /-- When a monitor last took an L2 response (Table 16.3). -/
  l2At : Nat
  deriving DecidableEq, Repr

/-- The lamp room, PD0 (R425 to R430). -/
structure Lamp where
  root : Option (BitVec 256)
  rtc : Nat
  /-- Time since the last RTC step, and the RTC's fraction of a ns, both in ps. -/
  phase : Nat
  frac : Nat
  /-- Levels of the lamp room's own monitors, by monitor id (R425). -/
  levels : Table Nat
  cfg : W64
  tail : List TRec
  tailSeq : Nat
  tailLost : Nat
  lampLost : Bool
  onVbat : Bool
  vbatOk : Bool
  rtcRun : Bool
  /-- The lamp room has held power since its integrity word was written (R429). -/
  alive : Bool
  deriving DecidableEq, Repr

/-! Key vault (chapter 04) -/

/-- A traffic slot: the three attribute words, the key, the check word, the use count of R119, the clock bit and the pool of R125. -/
structure TSlot where
  w0 : W64
  w1 : W64
  w2 : W64
  key : BitVec 256
  check : BitVec 32
  uses : Nat
  refd : Bool
  alloc : Bool
  deriving DecidableEq, Repr

/-- A deep slot: its attribute word, its key as the two shares of R111, share = key xor mask, and its check word (R116). -/
structure DSlot where
  w : W64
  share : BitVec 512
  mask : BitVec 512
  check : BitVec 32
  deriving DecidableEq, Repr

/-- A cascade sweep that has not completed (R129). -/
structure Sweep where
  deep : Bool
  slot : Nat
  gen : Nat
  /-- Children withdrawn at a fetch before the sweep came to them. -/
  early : Nat
  deriving DecidableEq, Repr

/-- The strongroom and the keys held outside its slots (R109 to R138). -/
structure Vault where
  slots : Table TSlot
  deep : Table DSlot
  /-- The memory check key (R281) and the strongroom's per-boot check key (R116). -/
  checkKey : BitVec 256
  bootKey : BitVec 256
  checkPresent : Bool
  memKeys : Table (BitVec 512)
  prevKeys : Table (BitVec 512)
  memPresent : Bool
  identity : Bool
  clockHand : Nat
  fills : List Nat
  sweeps : List Sweep
  cacheFullAt : Option Nat
  deriving DecidableEq, Repr

/-! Association records (R42, R107) -/

/-- An AN entry (Table 02.4) or a key-pointer entry (R107): `nextPn` is NEXT_PN or the SEQ field, `epoch` the pointer's epoch count. -/
structure AnEnt where
  slot : Nat
  valid : Bool
  retiring : Bool
  ssci : Nat
  salt : Nat
  inflight : Nat
  nextPn : Nat
  lowestPn : Nat
  dupMap : Nat
  epoch : Nat
  /-- Sequence numbers accepted in the merge window of R103, as a bit map below `nextPn`. -/
  seen : Nat
  /-- KEY_CHANGE_REQUEST has been raised for this SA (R55). -/
  warned : Bool
  map : W32
  deriving DecidableEq, Repr

/-- An association record with its key map and its SC and SA counters (R42, R65, R107). -/
structure ARec where
  sci : Nat
  limit : Nat
  ctrl : W32
  window : Nat
  warn : Nat
  maxLag : Nat
  ans : List AnEnt
  counters : Table Nat
  memBad : Bool
  deriving DecidableEq, Repr

/-! Classifier (chapter 08) -/

/-- A flow rule (R230). -/
structure Rule where
  value : Nat
  mask : Nat
  res : W64
  lock : Bool
  deriving DecidableEq, Repr

/-- A peer entry (R236). -/
structure Peer where
  key : Nat
  res : W64
  hit : Nat
  learned : Nat
  lock : Bool
  contendedAt : Option Nat
  deriving DecidableEq, Repr

/-- An SCI table entry (R234). -/
structure SciEnt where
  port : Nat
  sci : Nat
  res : W64
  lock : Bool
  deriving DecidableEq, Repr

/-- A queued learn event (R239). -/
structure Learn where
  key : Nat
  loc : Nat
  res : W64
  deriving DecidableEq, Repr

/-- The classifier (R229 to R247). -/
structure Classifier where
  rules : Table Rule
  peers : Table Peer
  scis : Table SciEnt
  learnQ : List Learn
  /-- Association records in the cache, oldest first, and those being fetched (R235). -/
  cached : List Nat
  fetching : List Nat
  deriving DecidableEq, Repr

/-! Work items (chapters 01, 05, 06) -/

/-- The key a dispatched item holds (R143, R118). -/
structure KeyUse where
  slot : Nat
  key : BitVec 256
  len256 : Bool
  deriving DecidableEq, Repr

/-- Where a dispatched item stands. -/
inductive IState
  | queued | running (t : Nat) | sealing | opening
  | done            -- handed over by the cipher unit or ended by PASS
  | punted
  | dropped (reason sub : Nat)
  | waiting         -- in the backlog or the park area, not dispatched
  deriving DecidableEq, Repr

/-- A work item: a frame or a tub, with its descriptor (Table 06.2). -/
structure Item where
  dom : Nat
  port : Nat
  data : Bytes
  len : Nat
  cls : Nat
  color : Nat
  assoc : Option Nat
  queue : Nat
  epoch : Nat
  an : Nat
  pn : Nat
  tag : Nat
  rule : Nat
  flags : Nat
  ts : Nat
  trib : Nat
  fn : Nat
  res : W64
  gal : Nat
  st : IState
  key : Option KeyUse
  /-- The drop reason a SEAL takes when the item was dispatched without a key (R486). -/
  noKey : Option Nat
  counted : Bool
  /-- The header window's first bytes came from data offsets below this (R176). -/
  loaded : Nat
  salt : Nat
  ssci : Nat
  /-- Line frames: where the SecTAG lies, its TCI and AN byte, and its 32-bit PN. -/
  tagOff : Nat
  tci : Byte
  pn32 : Nat
  sci : Nat
  /-- SCI entry's TX association for learning (R239). -/
  txAssoc : W64
  at_ : Nat
  /-- Departure instant of a PTP event message and the correction written (R349). -/
  ptpAt : Option Nat
  /-- CTRL of the association record as it stood at dispatch. -/
  ctrl : W32
  /-- The egress the frame is bound to: a d.port value, or 64 + t for transmit tributary t. -/
  target : Nat
  /-- The first 128 bytes as received, once OPEN began (R274). -/
  rx : Bytes
  passed : Bool
  /-- TIME_SET steps when the item came in. -/
  inAt : Nat
  /-- MSC_PORT_CFG of its line port and MSC_TPID as they stood at classification (R66). -/
  mscCfg : W64
  tpid : W64
  /-- Parked: the memory key and generation of its sectors. -/
  mkey : Nat
  kgen : Nat
  /-- Tubs: the epoch count, the clear header of Table 03.6, and the receive trunk it came on. -/
  kepoch : Nat
  hdr : Bytes
  path : Nat
  /-- The screen declared it dropped while its gallery still works on it: the reason and subcode counted then (R155). -/
  gone : Option (Nat × Nat)
  /-- Sealed: the gallery whose cipher unit still writes its last bytes, and `up` when it ends (R150). -/
  sealBy : Option (Nat × Nat)
  /-- Parked: its cells. -/
  cells : List Nat
  deriving DecidableEq, Repr

/-- A hardware thread of a gallery or of the foreman (R175, R178, R205). -/
structure Thread where
  regs : Table W64
  preds : Nat
  pc : Nat
  steps : Nat
  fcode : Nat
  fpc : Nat
  farg : W64
  tag : Option Nat
  win : Bytes
  wlen : Nat
  deriving DecidableEq, Repr

/-- A frame-program image (Table 07.1): its six entry points and its bundles, each two words. -/
structure Image where
  entries : List Nat
  code : List (Nat × Nat)
  build : Nat
  deriving DecidableEq, Repr

/-- A look-aside job that runs (R166). -/
structure Job where
  fn : Nat
  j : Nat
  key : BitVec 512
  slot : Nat
  len256 : Bool
  gal : Nat
  silent : Bool
  deriving DecidableEq, Repr

/-- What a work context of a cipher unit works on (R149): an item by its tag, a look-aside job, or the rest of an item the screen already has: the slot its key came from and `up` when it ends (R150). -/
inductive Work | item (tag : Nat) | job (fn j : Nat) | rest (slot until_ : Nat)
  deriving DecidableEq, Repr

/-- A work context and its key register; a key stays there until the next one is loaded. -/
structure CipherCtx where
  work : Option Work
  key : BitVec 512
  deriving DecidableEq, Repr

/-- The galleries, the dispatcher and the screen (chapter 05). -/
structure Galleries where
  items : Table (Option Item)
  /-- Items of each domain waiting for dispatch, oldest first. -/
  backlog : Table (List Item)
  /-- Items parked on a key miss, oldest first (R22). -/
  parked : List Item
  /-- Tags of each domain in dispatch order (R153). -/
  tags : Table (List Nat)
  /-- Domains whose backlog has asserted PFC (R142). -/
  paused : List Nat
  threads : Table Thread
  /-- Items waiting in a gallery's thread queue, by tag (R144). -/
  queues : Table (List Nat)
  images : Table (Option Image)
  /-- Program state memory and its poisoned words (R197, R198). -/
  state : Table W64
  poison : List Nat
  /-- Program counter bank: packets at 2k, bytes at 2k + 1 (R191). -/
  pcnt : Table Nat
  rotate : Nat
  restoring : List Nat
  draining : List Nat
  /-- `up` since when the tag pool is empty, and when TAG_STALL was last raised (R145). -/
  stallAt : Option Nat
  stallRaised : Option Nat
  jobs : List Job
  jobRotate : Nat
  /-- The four work contexts of each cipher unit, context k of gallery g at 4g + k, and the work that waits for one, oldest first (R149). -/
  ctxs : Table CipherCtx
  unitQ : Table (List Work)
  /-- `up` when each gallery last started (CYCLE, Table 06.4). -/
  started : Table Nat
  deriving DecidableEq, Repr

/-! Programs and orders (chapter 07) -/

/-- A signer record (R215) with its last accepted SEQ (R216). -/
structure Signer where
  keyId : Nat
  admin : Bool
  test : Bool
  firmware : Bool
  orderMask : Nat
  fnMask : Nat
  ec : Bytes
  ml : Bytes
  lastSeq : Nat
  deriving DecidableEq, Repr

/-- One program of a bundle: its code and its attachment (Table 07.5). -/
structure Prog where
  code : List (Nat × Nat)
  att : Bytes
  deriving DecidableEq, Repr

/-- A submitted bundle, through verification, acceptance and running (R217 to R220). -/
structure Bundle where
  ticket : Nat
  fn : Nat
  first : Nat
  cells : Nat
  result : Nat
  limit : Nat
  signer : Nat
  seq : Nat
  target : Nat
  stopOnFail : Bool
  /-- The one bundle of R447, whose signer is the record it carries. -/
  blank : Bool
  progs : List Prog
  raw : Bytes
  sigOff : Nat
  deriving DecidableEq, Repr

/-- A foreman thread's running program (R218, R219). -/
structure Running where
  b : Bundle
  idx : Nat
  /-- The first status other than OK among its programs, and how many have run (Table 15.6). -/
  worst : Option Nat
  ran : Nat
  /-- Part time at the program's start, and `up` then; time in the caution state so far, and since when it waits there (R219). -/
  start : Nat
  upAt : Nat
  grace : Nat
  waitFrom : Option Nat
  orders : Nat
  lastOrder : Nat
  lastStatus : Nat
  /-- The submitting function was reset; the program ends at its next order boundary (R221). -/
  aborted : Bool
  status : Option Nat
  /-- Signer flags and masks as they stood at acceptance. -/
  admin : Bool
  testOk : Bool
  orderMask : Nat
  /-- The landing cells it has used (Table 15.5). -/
  used : List Nat
  deriving DecidableEq, Repr

/-- A deferred order (R223); `silent` once its function has been reset. -/
structure Deferred where
  ticket : Nat
  req : OrdReq
  silent : Bool
  deriving DecidableEq, Repr

/-- A resource some activity holds (R225). -/
inductive Res
  | lane (l : Nat) | group (g : Nat) | txTrunk (n : Nat) | rxTrunk (n : Nat) | record (a : Nat) | slot (n : Nat) | deep (d : Nat)
  | handle (h : Nat) | standing (i : Nat) | store | gallery (g : Nat) | region (r : Nat) | memKey (k : Nat) | image | role | mode
  | queue (q : Nat) | gateList (e : Nat) | profile | hewer (h : Nat)
  deriving DecidableEq, Repr

/-- A claim: the resource, and its holder as R222 names it (order code, function, thread, source, SEQ low bits). -/
structure Claim where
  res : Res
  code : Nat
  fn : Nat
  t : Nat
  src : Nat
  seq : Nat
  deriving DecidableEq, Repr

/-- The foreman (R205, R217 to R225). -/
structure Foreman where
  threads : Table Thread
  scratch : Table Byte
  verify : List Bundle
  accepted : List Bundle
  running : Table (Option Running)
  deferred : List Deferred
  nextTicket : Nat
  claims : List Claim
  /-- Orders that have not completed: the thread of each waits (R200). -/
  waits : List OrdReq
  event : Nat
  stopped : Bool
  pkeOk : Bool
  /-- Tickets of bundles that waited to verify or to start when their signer was revoked (R227). -/
  revoked : List Nat
  /-- `up` when the foreman last started (CYCLE, Table 06.4). -/
  started : Nat
  deriving DecidableEq, Repr

/-! Time (chapter 13) -/

/-- Part time and the counters SYSCLK drives (R344, R238, R435). `up` is the free-running clock since power came on, in ns; `frac` and `slew` are in 2^-16 · 10^-9 ns, `freq` in 2^-16 ppb. `stampBase` is `up` when the tables were last cleared, `lastSteer` `up` at the last order of mode 1 or 2 and `holdAt` `up` when holdover began. -/
structure TimeSt where
  now : Nat
  up : Nat
  frac : Nat
  freq : Int
  slew : Int
  stampBase : Nat
  lastSteer : Nat
  holdAt : Nat
  /-- `up` when part time last returned to lock (R269). -/
  lockAt : Nat
  /-- TIME_SET steps since the device reset. -/
  steps : Nat
  /-- SAMPLE_CFG: the queue set and its period in microseconds (R352). -/
  sampleSet : List Nat
  samplePeriod : Nat
  /-- `up` at the start of the present sampling period; the set and period that take over at the next. -/
  sampleAt : Nat
  sampleNext : Option (List Nat × Nat)
  /-- `up` when part time was last written into the RTC. -/
  rtcAt : Nat
  /-- Syncs that wait for their Follow_Up, per egress, oldest first: key bytes and residence in 2^-16 ns (R348). -/
  syncs : Table (List (Bytes × Nat))
  /-- Lanes whose quality windows run bad or good in a row (R354): key = 2 · lane + (1 for good). -/
  runs : Table Nat
  deriving DecidableEq, Repr

/-- A lane of the LAN block: when its present bring-up, its wait of 10 ms or its test began (no bound runs: none), the lane configuration in force since bring-up began (R318), part time at the start of its eye scan and whether the lane left UP during it (R309), whether it came out of Banked with its settings kept (R307), and the precoding that its last training or adaptation asked for (R301). -/
structure LaneRun where
  at_ : Option Nat
  cfg : W64
  scanAt : Nat
  scanLost : Bool
  kept : Bool
  txPre : Bool
  rxPre : Bool
  deriving DecidableEq, Repr

/-! Attic and power (chapter 17) -/

/-- A firmware image: its VERSION, its body, and whether its two signatures verify (R451). -/
structure FwImg where
  version : Nat
  body : Bytes
  sigOk : Bool
  deriving DecidableEq, Repr

/-! The winder (chapter 09) -/

/-- A frame waiting in a queue. `hbm` lists the cells it takes in the HBM queue region (none: SRAM). -/
structure QFrame where
  data : Bytes
  port : Nat
  cls : Nat
  yellow : Bool
  resv : Bool
  flags : Nat
  ts : Nat
  assoc : Option Nat
  hbm : Bool
  mkey : Nat
  kgen : Nat
  /-- Part time when the frame joined its queue. -/
  at_ : Nat
  ptpAt : Option Nat
  /-- The frame is a CONTROL message to a tributary (R89). -/
  control : Bool
  /-- The first 128 bytes as received, for a frame that was opened or unpacked (R274); else empty. -/
  rx : Bytes
  /-- Which residence time the client MAC writes (Table 13.2): 0 none, 1 from the line timestamp in `ts`, 2 from the shim's TSTAMP in `ts`, 3 from a tub without TSTAMP. -/
  tsKind : Nat
  /-- TIME_SET steps when the frame came in. -/
  inAt : Nat
  /-- The gallery whose cipher unit still writes its last bytes, and `up` when it ends (R150). -/
  sealBy : Option (Nat × Nat)
  /-- Its sealing failed after its first bytes were queued: it ends with an inverted FCS (R150). -/
  cut : Bool
  /-- Stored in HBM: its cells. -/
  cells : List Nat
  deriving DecidableEq, Repr

/-- One queue: its frames oldest first, DWRR deficit, credit of R261 (2^-8 byte), since when its head waits, the time its pause ends. -/
structure Queue where
  frames : List QFrame
  deficit : Nat
  credit : Int
  headAt : Nat
  pausedUntil : Option Nat
  pausedAt : Nat
  /-- PAUSE_LONG has been raised in this pause. -/
  pausedLong : Bool
  xoff : Bool
  /-- What the credit gained below 2^-8 byte, in 10^-6 of it, and the ns of ended pauses not yet counted (R261, Table 09.11). -/
  creditFrac : Nat
  pausedNs : Nat
  deriving DecidableEq, Repr

/-- A meter (R256 to R258): parameters (kbit/s, bytes) and bucket levels in 10^-6 bit. -/
structure Meter where
  enable : Bool
  aware : Bool
  cir : Nat
  cbs : Nat
  eir : Nat
  ebs : Nat
  tc : Nat
  te : Nat
  last : Nat
  deriving DecidableEq, Repr

/-- A shaper (R262): rate in kbit/s, burst in bytes, credit in 2^-8 byte and the fraction below it in millionths. -/
structure Shaper where
  rate : Nat
  burst : Nat
  credit : Int
  frac : Nat
  deriving DecidableEq, Repr

/-- A gate control list (R265): its cycle in ns, its base and its entries (open gates, SCHED mask, interval). -/
structure GList where
  cycle : Nat
  base : Nat
  entries : List (Nat × Nat × Nat)
  deriving DecidableEq, Repr

/-- An egress: the list in force, the list waiting with its takeover instant (none takes the place of the list when it is removed), the entry whose gate states apply, the instants of part time until which a TIME_SET step holds that entry (R275) and at which length-aware starts resume after holdover (R269), whether its list is stale, the frame picked last with its queue and whether it transmits or is still read from HBM (R286), the class whose DWRR turn it is. -/
structure Egress where
  list : Option GList
  next : Option (Option GList × Nat)
  entry : Nat
  holdTill : Option Nat
  resumeAt : Option Nat
  stale : Bool
  /-- The frame in transmission and its queue. -/
  busy : Option QFrame
  busyQ : Nat
  /-- The queue whose head frame was chosen and is being read from HBM (R286). -/
  fetch : Option Nat
  round : Nat
  deriving DecidableEq, Repr

/-- The winder (R250 to R277). -/
structure Winder where
  queues : Table Queue
  meters : Table Meter
  shapers : Table Shaper
  egress : Table Egress
  /-- Tokens of drop notifications, in 10^-9, and when they were last refilled (R274). -/
  dnTokens : Nat
  dnLast : Nat
  lastTick : Nat
  /-- `up` at the last PFC frame with QUANTA of priority c of client port p, at 8p + c (R270). -/
  pfcAt : Table Nat
  deriving DecidableEq, Repr

/-! Buffer memory (chapter 10) -/

/-- A sector's side-band (Table 10.2): memory key index, generation, POISON, WRITTEN. -/
structure Sector where
  mkey : Nat
  kgen : Nat
  poison : Bool
  written : Bool
  deriving DecidableEq, Repr

/-- An open sector of the coalescing unit (R285): its cell, the offsets written, when it opened. -/
structure OpenSec where
  cell : Nat
  offs : List Nat
  at_ : Nat
  deriving DecidableEq, Repr

/-- A MEM_SCRUB that runs (R292). -/
structure Scrub where
  region : Nat
  first : Nat
  count : Nat
  req : OrdReq
  deriving DecidableEq, Repr

/-- Buffer memory: the bytes of regions 1 and 5 (cellar and landing), side-bands, walks, withheld sectors (R278 to R294). -/
structure Mem where
  bytes : List Host.Cell
  /-- Sectors written since the zeroing of R293; an unlisted sector is as that zeroing left it. -/
  side : Table (Option Sector)
  /-- Generation under which a key's unlisted sectors stand since its last walk. -/
  walked : Table Nat
  opens : List OpenSec
  /-- Re-key walks that run: the key and when the walk has rewritten its last sector, in `up` (R283). -/
  walks : List (Nat × Nat)
  withheld : List Nat
  scrubs : List Scrub
  /-- Stacks above 85 °C, whose refresh rate is doubled, as a bit map (R290). -/
  hot : Nat
  noKey : Bool
  deriving DecidableEq, Repr

/-! Command gate (chapter 12) -/

/-- An operator key (R326) with its replay window (R333). -/
structure GKey where
  alg : Nat
  sets : Nat
  key : Bytes
  n : Nat
  map : Nat
  deriving DecidableEq, Repr

/-- A gate-queue entry (R334): the frame, its rule, flow and queue, and its seal's fields; `verified` none while the engine works. -/
structure GEntry where
  flow : Nat
  rule : Nat
  frame : QFrame
  queue : Nat
  keyId : Nat
  counter : Nat
  alg : Nat
  sig : Bytes
  msg : Bytes
  verified : Option Bool
  seqNo : Nat
  at_ : Nat
  /-- When MAX_WAIT ends, and GATE_CFG.RESERVE, both as they stood when the frame entered (R343). -/
  due : Nat
  reserve : Nat
  deriving DecidableEq, Repr

/-- The command gate (R321 to R343). Tokens of a flow are in millionths. -/
structure Gate where
  keys : Table (Option GKey)
  entries : Table (Option GEntry)
  tokens : Table Nat
  tokenAt : Table Nat
  nextSeq : Nat
  /-- Seals released within their key's window: key id, counter, signature (R338). -/
  released : List (Nat × Nat × Bytes)
  deriving DecidableEq, Repr

/-- A profile copy (R455, R456). -/
structure Profile where
  gen : Nat
  ok : Bool
  regs : Table W64
  access : Table Byte
  rules : Table Rule
  scis : Table SciEnt
  peers : Table Peer
  images : Table (Option Image)
  gateKeys : Table (Option GKey)
  assoc : Table ARec
  /-- The winder's own parameters: meters, shapers and gate lists by egress. -/
  meters : Table Meter
  shapers : Table Shaper
  lists : Table GList
  deriving DecidableEq, Repr

/-- The attic (R431, R457 to R459). -/
structure Attic where
  lifecycle : Nat
  fwA : FwImg
  fwB : FwImg
  evid : List TRec
  ring : List TRec
  nextSeq : Nat
  evidLost : Nat
  counters : Table Nat
  nonce : BitVec 256
  owned : Bool
  signers : List Signer
  standing : Table Bytes
  /-- Gate floors by key id (R335). -/
  floors : Table Nat
  rxEpochs : Table Nat
  prof0 : Option Profile
  prof1 : Option Profile
  resets : Nat
  wear : Table Nat
  spares : Nat
  readonly : Nat
  deriving DecidableEq, Repr

/-! Host interface (chapter 15) -/

/-- A selective IDE stream (R405): its keys by 2·set + rx, whether it is Secure, and the key sets in use. -/
structure IdeStream where
  keys : Table (BitVec 256)
  go : List Nat
  secure : Bool
  deriving DecidableEq, Repr

/-- An SPDM session (R407): its id, whether FINISH established it, its secret and its key generation. -/
structure Session where
  id : Nat
  established : Bool
  secret : Bytes
  /-- The transcript KEY_EXCHANGE leaves, which FINISH verifies. -/
  hash : Bytes
  gen : Nat
  deriving DecidableEq, Repr

/-- The host interface (R387 to R413). -/
structure HostIf where
  /-- Permissions R, W, U, A in bits 0 to 3: key = target · 32 + master (R408). -/
  access : Table Byte
  /-- Tokens by landing cell: 0 HOST, 1 DEVICE, 2 POISON (R393). -/
  tokens : Table Nat
  /-- Cells being zeroed on their way from POISON to HOST (R393). -/
  clearing : List Nat
  /-- PHASE of the part-produced rings, toggled: key = 4 · function + ring (0 completion, 1 receive). -/
  phase : Table Bool
  /-- Completion entries that wait for room in their ring. -/
  cplWait : Table (List (Nat × Nat))
  /-- Moderation timers running: key = 2 · function + (1 transmit, 0 receive); true when causes wait, and `up` at the last message (R401). -/
  moderating : Table (Option (Bool × Nat))
  flr : List Nat
  ide : Table IdeStream
  spdmVersion : Nat
  /-- 0 nothing, 1 version, 2 capabilities, 3 algorithms agreed; and the algorithms, a bit each for ECDSA P-384, SHA-384, secp384r1, AES-256-GCM. -/
  spdmState : Nat
  spdmAlg : Nat
  /-- Messages exchanged since GET_VERSION, which signatures cover. -/
  transcript : Bytes
  sessions : List Session
  i3cDyn : Option Nat
  i3cPtr : Nat
  /-- The instruction in force at the test port: 0x100 IDCODE, else its code; all ones is BYPASS (R475). -/
  tapIr : Nat
  /-- DEVICE cells that an aborting program of a reset function held, as function and cell (Table 15.10). -/
  heldCells : List (Nat × Nat)
  /-- `up` at the last telemetry update since PD1 powered (R439). -/
  measuredAt : Option Nat
  deriving DecidableEq, Repr

/-! Twins and hierarchy (chapter 14) -/

/-- The peer's HELLO (R364). -/
structure PeerHello where
  serial : Nat
  roleSel : Nat
  variant : Nat
  nonce : Nat
  deriving DecidableEq, Repr

/-- One session with a peer: the NONCE of the HELLO this part sends, the peer's HELLO, the traffic slot of the session key, the last SEQ sent and accepted, and `up` at the last authentic heartbeat or STATUS. -/
structure Link where
  nonce : Option Nat
  peer : Option PeerHello
  slot : Option Nat
  up : Bool
  tx : Nat
  rx : Nat
  lastAt : Nat
  deriving DecidableEq, Repr

/-- Vector recovery of one stream (R380): the highest sequence number, the history below it, when a frame was last accepted; nothing before the first. -/
structure Elim where
  latest : Nat
  hist : Nat
  at_ : Nat
  deriving DecidableEq, Repr

/-- An enrolled hewer (R382). -/
structure Hewer where
  serial : Nat
  addr : Nat
  link : Link
  deriving DecidableEq, Repr

/-- A BLOB_SEND that runs (R383): hewers still to answer, with the SEQ of each message not yet acknowledged. -/
structure BlobRun where
  req : OrdReq
  mask : Nat
  waiting : List (Nat × Nat)
  accepted : Nat
  refused : Nat
  lastAt : Nat
  deriving DecidableEq, Repr

/-- A frame in the crosscut buffer (R378, R379): its shim, its bytes, and what its drop would count against: the port it came in on and the queue chosen for it. -/
structure XcCopy where
  shim : Nat
  data : Bytes
  port : Nat
  queue : Option Nat
  deriving DecidableEq, Repr

/-- Twin and hierarchy state that no register holds. -/
structure Twin where
  link : Link
  /-- What the partner's last message said (Tables 14.4, 14.6): STATE byte, CLAIM, SYNCED, ROLE_EPOCH, TALLY_NEXT, IMAGE_GEN; and whether its YIELD has come since it last claimed. -/
  peerState : Nat
  peerClaim : Bool
  peerSynced : Bool
  peerYield : Bool
  peerEpoch : Nat
  peerTally : Nat
  peerGen : Nat
  /-- A message with this part's own position has been received (R368). -/
  ownPos : Bool
  /-- `up` at the last heartbeat sent; SEQ and departure of that one and of the one before it, and the arrival and SEQ of the last received, times in 250 ps of part time. -/
  hbAt : Nat
  hbSeq : Nat
  hbTx : Nat
  hbSeqPrev : Nat
  hbTxPrev : Nat
  hbRx : Nat
  hbRxSeq : Nat
  /-- `up` when the part entered Service as STANDBY, and whether its START_WAIT has passed since (Table 14.7). -/
  startAt : Option Nat
  startDue : Bool
  /-- Since when both twins hold the control role (R373). -/
  overlapAt : Option Nat
  /-- DOUT values last driven as ACTIVE or taken from the partner, and whether this part drives them. -/
  dout : Nat
  driving : Bool
  releaseAt : Option Nat
  /-- Generation of the last IMAGE_DELTA sent or applied. -/
  gen : Nat
  /-- Items of the running copy, by order code and first argument, that the standby has applied (R375). -/
  copied : List (Nat × Nat)
  /-- Frames waiting in the crosscut buffer, oldest first, and when the oldest came. -/
  xcBuf : List XcCopy
  xcAt : Nat
  elims : Table (Option Elim)
  hewers : Table (Option Hewer)
  /-- The hewer's session with its overman. -/
  overman : Link
  /-- `up` when STATUS messages were last sent. -/
  statusAt : Nat
  blobRun : Option BlobRun
  deriving DecidableEq, Repr

/-! The line framer (chapter 03) -/

/-- A busy tracker of a lane (R76). -/
structure Tracker where
  count : Nat
  mfc : Nat
  next : Nat
  deriving DecidableEq, Repr

/-- A receive lane: acquisition (R76), loss counts (R77, R78), the identity check (R79), the runs of bytes 10-11 and of ANN (R81, R100), whether it lies within the skew (R74), the KEY_EPOCH it last showed, the run of R304, its error counts (R71, R76). -/
structure RxLane where
  inFrame : Bool
  trackers : List (Option Tracker)
  next : Nat
  mfc : Nat
  lof : Nat
  mfm : Nat
  idBad : Nat
  idGood : Nat
  idOk : Bool
  req : Nat
  reqRun : Nat
  annRun : Nat
  late : Bool
  epoch : Option Nat
  revRun : Nat
  hcrcErr : Nat
  candOvf : Nat
  deriving DecidableEq, Repr

/-- A transmit trunk: its multiframe counter and multiframes begun, the lanes that have sent their frame of the present period and the slots of that period; the announcement of R96 (frames sent with ANN), the multiframe of the last switch (R98). -/
structure TxTrunk where
  mfc : Nat
  mf : Nat
  sent : List Nat
  row : List Bytes
  announcing : Bool
  announced : Nat
  lastSwitch : Option Nat
  /-- The attic counter has been raised for the announced epoch (R99). -/
  counted : Bool
  deriving DecidableEq, Repr

/-- An epoch that a receive trunk has left (R97): when its switch was seen, and whether its tubs are dropped by now. -/
structure OldEpoch where
  epoch : Nat
  at_ : Nat
  dropped : Bool
  deriving DecidableEq, Repr

/-- A receive trunk: the epochs before its last switches whose keys are kept (R97); an epoch refused (R101); the accepted announcement (R100); the request in force (R82): kind 1 LOCKOUT, 2 FORCE, and its trunk; the rows of R74 that are not whole yet, oldest first: the counter, and each lane-in-trunk that has come with its eight slots; the counter of the last row delivered. -/
structure RxTrunk where
  olds : List OldEpoch
  reject : Bool
  announced : Bool
  req : Option (Nat × Nat)
  rows : List (Nat × List (Nat × Bytes))
  row : Nat
  deriving DecidableEq, Repr

/-- The open tub of a transmit tributary (R89, R90). -/
structure OpenTub where
  data : Bytes
  first : Option Nat
  cont : Bool
  /-- When its first frame joined, and its last. -/
  firstAt : Nat
  lastAt : Nat
  deriving DecidableEq, Repr

/-- A transmit tributary: open tub, sealed tubs that wait, the rest of the block that is being laid, pointer and SEQ of the last tub laid, and the bytes laid on one trunk of a merged pair and still to be laid on the other. -/
structure TxTrib where
  open_ : Option OpenTub
  ready : List Bytes
  stream : Bytes
  /-- The block in `stream` is a tub, no idle block. -/
  laying : Bool
  laid : Option (Nat × Nat)
  lag0 : Bytes
  lag1 : Bytes
  deriving DecidableEq, Repr

/-- Delineation of one stream (R91): blocks that failed in a row, and the last header as its pointer, SEQ and idle flag. -/
structure Delin where
  ok : Bool
  fails : Nat
  last : Option (Nat × Nat × Bool)
  deriving DecidableEq, Repr

/-- A verified tub: its epoch count, SEQ, CONT and FIRST, payload, ciphertext (what a drop notification may show), when it came and when it was released by the screen. -/
structure OpenedTub where
  epoch : Nat
  seq : Nat
  cont : Bool
  first : Nat
  data : Bytes
  rx : Bytes
  ts : Nat
  at_ : Nat
  /-- Held in HBM: the memory key and generation it was written under, and its cells (R25, R104). -/
  mkey : Nat
  kgen : Nat
  cells : List Nat
  deriving DecidableEq, Repr

/-- A client frame of which the unpacker holds the beginning: its shim, its bytes so far, and those bytes as received. -/
structure Part where
  shim : Nat
  data : Bytes
  rx : Bytes
  deriving DecidableEq, Repr

/-- A receive tributary: delineation on its primary and its second trunk, held tubs in SEQ order (R104), the epoch and SEQ expected next, the frame that continues, the reason that a frame whose beginning was lost still has to take, tubs that failed verification, the last SEQ seen under an epoch that has ended. -/
structure RxTrib where
  delin0 : Delin
  delin1 : Delin
  holds : List OpenedTub
  expect : Option (Nat × Nat)
  part : Option Part
  broken : Option Nat
  failed : List (Nat × Nat)
  ends : List (Nat × Nat)
  /-- Arrival of a tub on one trunk, until its copy comes on the other: SEQ, trunk, time (R353). -/
  arrived : List (Nat × Nat × Nat)
  /-- Bytes taken from the slots of the primary and of the second trunk that are in no block yet (R84). -/
  stream0 : Bytes
  stream1 : Bytes
  deriving DecidableEq, Repr

/-- The line framer. `waiting` are register writes that take effect at the next multiframe start of their trunk (R106): offset and value; `remaps` are slot maps that a remap order has committed (R85): direction, tributary, masks. -/
structure Lfr where
  lanes : Table RxLane
  tx : Table TxTrunk
  rx : Table RxTrunk
  txTribs : Table TxTrib
  rxTribs : Table RxTrib
  waiting : List (Nat × W64)
  remaps : List (Nat × Nat × Nat × Nat)
  deriving DecidableEq, Repr

/-! What the part sends on its pins and links -/

/-- One thing the part puts on a link or a bus. The newest stands first in `State.out`. -/
inductive Out
  /-- A frame ends on egress `e` (d.port value); `good` is false when its FCS is inverted. -/
  | frame (e : Nat) (data : Bytes) (good : Bool)
  /-- A line frame on a line lane: its header and its payload slots. -/
  | lineFrame (lane : Nat) (hdr : Bytes) (payload : Bytes)
  | pfc (port : Nat) (en : Nat) (quanta : Nat)
  | msix (fn v : Nat) (addr : W64) (data : Nat)
  /-- A crosscut or shaft message: its TYPE and the whole frame of Table 14.4, without FCS. -/
  | xc (kind : Nat) (frame : Bytes)
  | shaft (kind : Nat) (frame : Bytes)
  /-- The completion data of a host read, in dwords, and whether it is poisoned (EP). -/
  | read (fn : Nat) (data : Bytes) (ep : Bool)
  | doe (data : Bytes)
  | i3c (data : Bytes)
  | tap (value : Nat)
  deriving DecidableEq, Repr

end Sys2Proof.Machine
end

