-- ==== Sys2Proof/Machine/Blank.lean ====
section
/-! DEFINITION. What a part holds before its first enrolment: the default access table (Table 15.13), the levels of Table 16.2 at Blank, the Blank profile and an attic with nothing stored. -/
namespace Sys2Proof.Machine

/-! Masters of Table 15.12 -/
def mForeman : Nat := 16
def mGallery : Nat := 17
def mCellar : Nat := 18
def mMemCipher : Nat := 19
def mCrosscut : Nat := 20
def mShaft : Nat := 21
def mI3c : Nat := 22
def mDebug : Nat := 23

/-- Permissions of Table 15.13: R, W, U, A are bits 0 to 3. -/
def accessBlank (target m : Nat) : Nat :=
  if target = 0x00 then (if m = 0 then 12 else if m < 16 then 4 else if m = mForeman then 15 else if m = mGallery then 4 else if m = mCellar then 2 else 0)
  else if target = 0x01 then (if m = 0 then 8 else if m = mForeman then 14 else if m = mCellar then 4 else 0)
  else if target = 0x11 then (if m = 0 then 10 else if m = mForeman then 11 else if m = mCellar then 1 else if m = mMemCipher then 3 else 0)
  else if target = 0x10 then (if m = mForeman ∨ m = mMemCipher then 3 else if m = mGallery then 1 else 0)
  else if target = 0x12 ∨ target = 0x13 ∨ target = 0x14 ∨ target = 0x16 then (if m = mMemCipher then 3 else 0)
  else if target = 0x15 then (if m = 0 then 11 else if m < 16 then 3 else if m = mForeman ∨ m = mMemCipher then 3 else 0)
  else if target = 0x20 then (if m = 0 then 8 else if m = mForeman then 10 else if m = mCrosscut then 2 else 0)
  else if target = 0x21 then (if m = 0 then 1 else if m = mForeman then 11 else if m = mI3c ∨ m = mDebug then 1 else 0)
  else if target = 0x22 ∨ target = 0x23 then
    (if m = 0 then 8 else if m = mForeman then 11 else if m = mGallery then 1 else if m = mCrosscut ∧ target = 0x23 then 2 else 0)
  else if 0x30 ≤ target ∧ target ≤ 0x3E then
    (if m = 0 then 9 else if m = mForeman then 11 else if m = mCrosscut then 2
     else if m = mI3c then (if target = 0x31 ∨ target = 0x3C ∨ target = 0x3E then 1 else 0) else if m = mDebug then 1 else 0)
  else if 0x40 ≤ target ∧ target ≤ 0x7F then (if m = 0 then 2 else 0)
  else 0

/-- The default access table as a sparse table: key = target · 32 + master. -/
def accessTableBlank : Table Byte :=
  (List.range (128 * 32)).filterMap (fun k =>
    if accessBlank (k / 32) (k % 32) = 0 then none else some (k, BitVec.ofNat 8 (accessBlank (k / 32) (k % 32))))

/-- The fixed table of a Retired part: Table 15.13 with every W and A removed (R448). -/
def accessTableRetired : Table Byte :=
  (List.range (128 * 32)).filterMap (fun k =>
    if BitVec.ofNat 8 (accessBlank (k / 32) (k % 32)) &&& 5 = 0 then none
    else some (k, BitVec.ofNat 8 (accessBlank (k / 32) (k % 32)) &&& 5))

/-- Monitor levels at Blank (Table 16.2). -/
def levelsBlank : List Nat := [0, 1, 1, 2, 1, 0, 2, 1, 1, 1, 1, 1, 1, 3, 3, 1, 2, 1, 1, 1, 1, 1, 0, 1]

/-- Register words of the Blank profile: the monitor levels and the landing range of the PF, cells 0 to 16,383 (R392). -/
def profileRegsBlank : Table W64 :=
  (Reg.HST_FN_CELLS 0, BitVec.ofNat 64 (16384 * 65536)) ::
  ((List.range 24).filterMap (fun m =>
    if levelsBlank.getD m 0 = 0 then none else some (Reg.TMP_LEVEL m, BitVec.ofNat 64 (levelsBlank.getD m 0))))

/-- The profile written in the Blank state (R409, R392, Table 16.2). -/
def profileBlank : Profile := ⟨0, true, profileRegsBlank, accessTableBlank, [], [], [], [], [], [], [], [], []⟩

/-- The attic of a part as it leaves manufacture: firmware A version 1, no records, the Blank profile in copy 0 (log entry 10). -/
def atticBlank : Attic :=
  { lifecycle := 0, fwA := ⟨1, [], true⟩, fwB := ⟨0, [], false⟩, evid := [], ring := [], nextSeq := 1, evidLost := 0
    counters := [], nonce := 0, owned := false, signers := [], standing := [], floors := [], rxEpochs := []
    prof0 := some profileBlank, prof1 := none, resets := 0, wear := [], spares := 0, readonly := 0 }

end Sys2Proof.Machine
end

