-- ==== Sys2Proof/Machine/State.lean ====
section
/-! DEFINITION. The state of the part as plain data, the reasons a command can stop, and the state right after reset. -/
namespace Sys2Proof.Machine

/-- Why the machine stops with a fault. -/
inductive Fault
  /-- Raised by no command of this model: an access the spec rejects is dropped, answered with a status or counted, and the part goes on. Safe. -/
  | none
  deriving DecidableEq, Repr

/-- Why a command has no meaning. -/
inductive Refusal
  /-- Raised by an arm of exec whose command has no meaning yet. Safe: nothing can be proved of it. -/
  | notModelled (mnemonic : String)
  deriving DecidableEq, Repr

/-- The state of the part. -/
structure State where
  /-- Variant (Table 00.2): 0 F, 1 L, 2 W. -/
  variant : Nat
  /-- The 128-bit serial number (Table 15.15). -/
  serial : Nat
  /-- Main supplies are up; false in Sealed (R441). -/
  mainOn : Bool
  /-- RESET_N holds the part in reset (Table 17.5). -/
  held : Bool
  /-- Every 8-byte word of PF BAR0 whose home is the register file. -/
  regs : Table W64
  /-- Every 8-byte word of the 16 user pages: key = function · 0x10000 + offset. -/
  page : Table W64
  time : TimeSt
  guard : Guard
  lamp : Lamp
  attic : Attic
  vault : Vault
  mem : Mem
  assoc : Table ARec
  cls : Classifier
  gal : Galleries
  fore : Foreman
  wnd : Winder
  gate : Gate
  host : HostIf
  twin : Twin
  lfr : Lfr
  lanes : Table LaneRun
  /-- What the part has put on its links, newest first. -/
  out : List Out
  /-- How many free values have been drawn (the model's own field, log entry 5). -/
  draws : Nat
  /-- The commands that wait, first in, first out (the model's own field, log entry 1). -/
  pending : List Instr
  deriving DecidableEq, Repr

/-! The state after reset: a part that has never been enrolled, at the instant power came on (R453), before Start-up runs. Every piece is a definition of its own. -/

def Guard.reset : Guard := ⟨0, 0, false, [], 0, none, 16, [], [], 0⟩
def Lamp.reset : Lamp := ⟨none, 0, 0, 0, [], 0x10, [], 0, 0, false, false, true, true, false⟩
def Vault.reset : Vault := ⟨[], [], 0, 0, false, [], [], false, true, 0, [], [], none⟩
def Mem.reset : Mem := ⟨[], [], [], [], [], [], [], 0, true⟩
def Classifier.reset : Classifier := ⟨[], [], [], [], [], []⟩
def Galleries.reset : Galleries := ⟨[], [], [], [], [], [], [], [], [], [], [], 0, [], [], none, none, [], 0, [], [], []⟩
def Foreman.reset : Foreman := ⟨[], [], [], [], [], [], 1, [], [], 0, false, false, [], 0⟩
def TimeSt.reset : TimeSt := ⟨0, 0, 0, 0, 0, 0, 0, 0, 0, 0, [], 0, 0, none, 0, [], []⟩
def Winder.reset : Winder := ⟨[], [], [], [], 0, 0, 0, []⟩
def Gate.reset : Gate := ⟨[], [], [], [], 0, []⟩
def HostIf.reset : HostIf := ⟨[], [], [], [], [], [], [], [], 0, 0, 0, [], [], none, 0, 0x100, [], none⟩

def Link.reset : Link := ⟨none, none, none, false, 0, 0, 0⟩
def Twin.reset : Twin :=
  { link := .reset, peerState := 0, peerClaim := false, peerSynced := false, peerYield := false, peerEpoch := 0, peerTally := 0, peerGen := 0
    ownPos := false, hbAt := 0, hbSeq := 0, hbTx := 0, hbSeqPrev := 0, hbTxPrev := 0, hbRx := 0, hbRxSeq := 0, startAt := none, startDue := false
    overlapAt := none, dout := 0, driving := false, releaseAt := none, gen := 0, copied := [], xcBuf := [], xcAt := 0, elims := [], hewers := []
    overman := .reset, statusAt := 0, blobRun := none }

def Lfr.reset : Lfr := ⟨[], [], [], [], [], [], []⟩

/-- The part right after power-on reset, variant F, not yet enrolled, Start-up not yet run (R441, R453; log entries 9 and 10 for what the spec leaves to each part). -/
def State.reset : State :=
  { variant := 0, serial := 0, mainOn := true, held := false
    regs := [(Reg.PWR_RESET_CAUSE, 0x500)], page := [], time := .reset, guard := .reset, lamp := .reset, attic := atticBlank
    vault := .reset, mem := .reset, assoc := [], cls := .reset, gal := .reset, fore := .reset, wnd := .reset, gate := .reset
    host := .reset, twin := .reset, lfr := .reset, lanes := [], out := [], draws := 0, pending := [] }

end Sys2Proof.Machine
end

