-- ==== Sys2Proof/Machine/Ops.lean ====
section
/-! DEFINITION. The named operations over the state: registers, user pages, counters, what unlisted table entries read as, free values, outputs, interrupts. -/
namespace Sys2Proof.Machine

/-! What unlisted entries read as -/

/-- An empty traffic slot (Table 04.5): CASCADE reads its reset value 1. -/
def slot0 (_ : Nat) : TSlot := ⟨0x10000, 0, 0, 0, 0, 0, false, false⟩
/-- An empty deep slot (Table 04.4): CASCADE 1, REMASK 20. -/
def deep0 (_ : Nat) : DSlot := ⟨0x5100, 0, 0, 0⟩
def memKey0 (_ : Nat) : BitVec 512 := 0
def nat0 (_ : Nat) : Nat := 0
def w640 (_ : Nat) : W64 := 0
def bytes0 (_ : Nat) : Bytes := []
def byte0 (_ : Nat) : Byte := 0
def none0 {α : Type} (_ : Nat) : Option α := none
def nil0 {α : Type} (_ : Nat) : List α := []
def bool0 (_ : Nat) : Bool := false
/-- An AN entry of zeros (R293, R59: records come up not valid). -/
def an0 : AnEnt := ⟨0, false, false, 0, 0, 0, 0, 0, 0, 0, 0, false, 0⟩
/-- A MACsec record after a device reset: every entry not valid and STATE IDLE (R59), the other fields at the reset values of Tables 02.2 and 02.3 and R55 (log entry 4). -/
def assoc0 (_ : Nat) : ARec := ⟨0, 0xFFFFFFFF, 0xC8, 0, 0x40000000, 0, [an0, an0, an0, an0], [], false⟩
/-- A tributary's record after a device reset (R107): USAGE_WARN 2^40; USAGE_LIMIT stands at its maximum (log entry 4). -/
def tubRec0 : ARec := ⟨0, 0xFFFFFFFFFFFF, 0, 0, 0x10000000000, 0, [an0, an0, an0, an0], [], false⟩
/-- A work context of a cipher unit: free, its key register zero. -/
def ctx0 (_ : Nat) : CipherCtx := ⟨none, 0⟩
def thread0 (_ : Nat) : Thread := ⟨[], 1, 0, 0, 0, 0, 0, none, [], 0⟩
def queue0 (_ : Nat) : Queue := ⟨[], 0, 0, 0, none, 0, false, false, 0, 0⟩
/-- A meter at reset: disabled (R257 gives no reset; log entry 20). -/
def meter0 (_ : Nat) : Meter := ⟨false, false, 0, 0, 0, 0, 0, 0, 0⟩
def shaper0 (_ : Nat) : Shaper := ⟨0, 0, 0, 0⟩
def egress0 (_ : Nat) : Egress := ⟨none, none, 0, none, none, false, none, 0, none, 0⟩
def delin0 : Delin := ⟨false, 0, none⟩
def rxLane0 (_ : Nat) : RxLane := ⟨false, [none, none, none, none], 0, 0, 0, 0, 0, 0, false, 0, 0, 0, false, none, 0, 0, 0⟩
def txTrunk0 (_ : Nat) : TxTrunk := ⟨0, 0, [], [], false, 0, none, false⟩
def rxTrunk0 (_ : Nat) : RxTrunk := ⟨[], false, false, none, [], 0⟩
def txTrib0 (_ : Nat) : TxTrib := ⟨none, [], [], false, none, [], []⟩
/-- A receive tributary from which nothing has come yet: a continuation it meets has lost its beginning. -/
def rxTrib0 (_ : Nat) : RxTrib := ⟨delin0, delin0, [], none, none, some 0x0C, [], [], [], [], []⟩
def laneRun0 (_ : Nat) : LaneRun := ⟨none, 0xD2, 0, false, false, false, false⟩
def ide0 (_ : Nat) : IdeStream := ⟨[], [], false⟩

namespace State

/-! Registers (R390, R391) -/

/-- The stored word of a BAR0 register. -/
def reg (s : State) (off : Nat) : W64 := tget regReset s.regs off
def setReg (s : State) (off : Nat) (v : W64) : State := { s with regs := tput regReset s.regs off v }
/-- A field of a BAR0 register. -/
def fld (s : State) (off : Nat) (f : Fld) : Nat := fget (s.reg off) f
def setFld (s : State) (off : Nat) (f : Fld) (v : Nat) : State := s.setReg off (fset (s.reg off) f v)
/-- A one-bit field, as a Bool. -/
def flag (s : State) (off : Nat) (f : Fld) : Bool := s.fld off f == 1
/-- A word of a function's user page. -/
def pg (s : State) (fn off : Nat) : W64 := tget pageReset s.page (fn * 0x10000 + off)
def setPg (s : State) (fn off : Nat) (v : W64) : State := { s with page := tput pageReset s.page (fn * 0x10000 + off) v }
def pgFld (s : State) (fn off : Nat) (f : Fld) : Nat := fget (s.pg fn off) f
def setPgFld (s : State) (fn off : Nat) (f : Fld) (v : Nat) : State := s.setPg fn off (fset (s.pg fn off) f v)

/-! Outputs and free values -/

/-- Puts one thing on a link. -/
def emit (s : State) (o : Out) : State := { s with out := o :: s.out }
/-- The next draw of the random source. -/
def draw (s : State) : BitVec 512 := Config.random s.draws
def drew (s : State) : State := { s with draws := s.draws + 1 }

/-! Modes (R441) -/

/-- PWR_STATUS.MODE: 0 Start-up, 1 Test, 2 Service, 3 Banked, 4 Recovery. -/
def mode (s : State) : Nat := s.fld Reg.PWR_STATUS Fd.PWR_STATUS_MODE
/-- The part's twin position, 0 A, 1 B (R359). -/
def position (s : State) : Nat := s.fld Reg.TWN_STATUS Fd.TWN_STATUS_POSITION
/-- Part time in whole seconds, modulo 2^32 (Table 04.6). -/
def seconds (s : State) : Nat := s.time.now / 1000000000 % 2 ^ 32

end State

/-! Interrupts (R400, R401) -/

/-- User-page offsets (Tables 15.4, 15.16). -/
def pgOrdDb : Nat := 0x00
def pgCpl : Nat := 0x08
def pgTxDb : Nat := 0x10
def pgRx : Nat := 0x18
def pgRxf : Nat := 0x20
def pgCause : Nat := 0x28
def pgMod : Nat := 0x30
def pgStatus : Nat := 0x38
def pgTxPorts : Nat := 0x40
def pgTokenFault : Nat := 0x80
def pgRingFault : Nat := 0x88
def pgRxDrop : Nat := 0x90
def pgPba : Nat := 0x9800
/-- The two words of an MSI-X table entry: address, then data and vector control. -/
def pgMsix (v k : Nat) : Nat := 0x9000 + 16 * v + 8 * k

/-- Sends a vector's MSI-X message, or sets its PBA bit while it is masked. -/
def msixSend (fn v : Nat) (s : State) : State :=
  if nbit (s.pg fn (pgMsix v 1)).toNat 32 then
    s.setPg fn pgPba (s.pg fn pgPba ||| BitVec.ofNat 64 (2 ^ v))
  else s.emit (.msix fn v (s.pg fn (pgMsix v 0)) (nbits (s.pg fn (pgMsix v 1)).toNat 0 32))

/-- The moderation time of a vector in microseconds: vectors 1 and 2 only. -/
def modTime (fn v : Nat) (s : State) : Nat :=
  if v = 1 then nbits (s.pg fn pgMod).toNat 0 10 else if v = 2 then nbits (s.pg fn pgMod).toNat 16 10 else 0

/-- Signals vector v of a function: sets its cause bit and sends it, or lets it wait for its moderation time. -/
def irq (fn v : Nat) (s : State) : State :=
  let s := s.setPg fn pgCause (s.pg fn pgCause ||| BitVec.ofNat 64 (2 ^ v))
  if v = 1 ∨ v = 2 then
    match tget none0 s.host.moderating (2 * fn + (v - 1)) with
    | some x => { s with host := { s.host with moderating := tput none0 s.host.moderating (2 * fn + (v - 1)) (some (true, x.2)) } }
    | none =>
      let s := msixSend fn v s
      if modTime fn v s = 0 then s
      else { s with host := { s.host with moderating := tput none0 s.host.moderating (2 * fn + (v - 1)) (some (false, s.time.up)) } }
  else msixSend fn v s

/-! Counters (R312) -/

/-- Sets the HALF_PENDING bit of the counter at a BAR0 offset and signals the PF's counter vector. -/
def halfPending (off : Nat) (s : State) : State :=
  let base := off / 0x100000 * 0x100000
  let k := (off - base) / 8
  let w := base + 0xF0000 + 8 * (k / 64)
  irq 0 3 (s.setReg w (s.reg w ||| BitVec.ofNat 64 (2 ^ (k % 64))))

/-- A 40-bit counter after n more counts. -/
def count40 (old n : Nat) : Nat := (old + n) % 2 ^ 40
/-- Bit 39 changes from 0 to 1. -/
def crossedHalf (old n : Nat) : Bool := !nbit old 39 && nbit (count40 old n) 39

/-- Adds n to the counter at a BAR0 offset. -/
def bump (off n : Nat) (s : State) : State :=
  let old := (s.reg off).toNat
  let s' := s.setReg off (BitVec.ofNat 64 (count40 old n))
  if crossedHalf old n then halfPending off s' else s'

/-- Adds n to a counter of a user page; its HALF_PENDING bit lies in the HST block (R414; log entry 30 for its place). -/
def bumpPg (fn off n : Nat) (s : State) : State :=
  let old := (s.pg fn off).toNat
  let s' := s.setPg fn off (BitVec.ofNat 64 (count40 old n))
  if crossedHalf old n then halfPending (0x80000 + 0x100 * fn + off) s' else s'

/-- What a command answers. -/
abbrev Ans := Host.Outcome State Fault Refusal

/-- A change that takes place only while a condition holds; else nothing changes (log entry 3). -/
def onlyIf (b : Bool) (f : State → State) (s : State) : State := if b then f s else s

/-- The main domains are up and out of reset. -/
def State.live (s : State) : Bool := s.mainOn && !s.held

end Sys2Proof.Machine
end

