-- ==== Sys2Proof/Machine/Tally.lean ====
section
/-! DEFINITION. The tally (R431 to R435): checksums, records and how an event becomes a record. -/
namespace Sys2Proof.Machine

/-! Checksums -/

/-- One reflected CRC step over `k` bits: polynomial `p`. -/
def crcBits (p : Nat) : Nat → Nat → Nat
  | 0, c => c
  | k + 1, c => crcBits p k (if c % 2 = 1 then c / 2 ^^^ p else c / 2)

/-- A reflected CRC register after a byte list (R432, R482). -/
def crcReflect (p : Nat) : Nat → Bytes → Nat
  | c, [] => c
  | c, b :: t => crcReflect p (crcBits p 8 (c ^^^ b.toNat)) t

/-- CRC-32 of the IEEE 802.3 FCS (R432). -/
def crc32 (b : Bytes) : Nat := crcReflect 0xEDB88320 0xFFFFFFFF b ^^^ 0xFFFFFFFF

/-- HASH: the CRC-32C register after 8 bytes from an initial value (R482). -/
def hashWord (a : W64) (init : Nat) : Nat := crcReflect 0x82F63B78 (init % 2 ^ 32) (natBe 8 a.toNat)

/-- CRC-16 with polynomial 0x1021, most significant bit first (R71). -/
def crc16Bits : Nat → Nat → Nat
  | 0, c => c
  | k + 1, c => crc16Bits k (if nbit c 15 then (c * 2 ^^^ 0x1021) % 2 ^ 16 else c * 2 % 2 ^ 16)

def crc16 : Nat → Bytes → Nat
  | c, [] => c
  | c, b :: t => crc16 (crc16Bits 8 (c ^^^ (b.toNat * 256))) t

/-! Records (Table 16.6) -/

/-- Bytes 0 to 58 of a record. -/
def TRec.body (r : TRec) : Bytes :=
  natBe 6 r.seq ++ natBe 8 r.time ++ natBe 2 r.code ++
  natBe 1 (r.sev * 16 + b2n r.evid * 8 + r.level) ++ natBe 1 (r.srcKind * 64 + r.srcIdx % 64) ++
  natBe 2 r.suppressed ++ natBe 1 r.st ++ zeros 6 ++ slice r.data 0 32

/-- The 64 bytes of a record. -/
def TRec.bytes (r : TRec) : Bytes := r.body ++ natBe 4 (crc32 r.body) ++ [r.mark]

/-- A record is valid: its mark is 0xA5 (R433). Its CRC is computed from it. -/
def TRec.valid (r : TRec) : Bool := r.mark == 0xA5

/-- DATA of a record from the values its event carries, each as 8 bytes in network order (log entry 12). -/
def evData (vals : List Nat) : Bytes := slice (vals.flatMap (fun v => natBe 8 v)) 0 32

/-- The STATE byte: mode, life-cycle state, twin position. -/
def stateByte (s : State) : Nat :=
  (if s.mainOn then s.mode else 5) + s.attic.lifecycle % 4 * 16 + s.position % 2 * 64

/-! Wear of the attic's blocks (R459) -/

def atticRO (s : State) (r : Nat) : Bool := nbit s.attic.readonly r

/-- Raises a block's wear counter; true when it saturates. -/
def wearOut (b : Nat) (s : State) : Bool := tget nat0 s.attic.wear b + 1 == 2 ^ 40 - 1

/-- One write to an attic block of a region: wear, and at saturation a spare or a read-only region. The second part is the event the write leads to. -/
def wearStep (r b : Nat) (s : State) : State × Option Nat :=
  if wearOut b s then
    if s.attic.spares < 256 then
      ({ s with attic := { s.attic with wear := tput nat0 s.attic.wear b 0, spares := s.attic.spares + 1 } }, some Ev.ATTIC_REMAP)
    else ({ s with attic := { s.attic with readonly := setNbit s.attic.readonly r true } }, some Ev.ATTIC_READONLY)
  else ({ s with attic := { s.attic with wear := tput nat0 s.attic.wear b (tget nat0 s.attic.wear b + 1) } }, none)

/-- Attic blocks of a tally record (Table 17.7; log entry 13). -/
def recBlock (r : TRec) : Nat := if r.evid then 2048 + r.slot / 64 else 2304 + r.slot / 64

/-! Appending (R433, R434) -/

/-- The ring's oldest record with severity at or below a value, and the ring without it. -/
def ringEvict (sev : Nat) : List TRec → Option (TRec × List TRec)
  | [] => none
  | r :: t => if r.sev ≤ sev then some (r, t) else (ringEvict sev t).map (fun p => (p.1, r :: p.2))

/-- Stores a ring record, or discards it. -/
def ringAppend (r : TRec) (s : State) : State :=
  if atticRO s 1 then bump Reg.TLY_CNT_RING_DISCARD 1 s
  else if s.attic.ring.length < 65536 then
    bump Reg.TLY_CNT_APPENDED 1 { s with attic := { s.attic with ring := s.attic.ring ++ [{ r with slot := s.attic.ring.length }] } }
  else match ringEvict r.sev s.attic.ring with
    | some (o, rest) => bump Reg.TLY_CNT_APPENDED 1 { s with attic := { s.attic with ring := rest ++ [{ r with slot := o.slot }] } }
    | none => bump Reg.TLY_CNT_RING_DISCARD 1 s

/-- The evidence area takes no further record. -/
def evidFull (s : State) : Bool := decide (16384 ≤ s.attic.evid.length) || atticRO s 1

/-- Stores an evidence record, or counts it as lost. -/
def evidAppend (r : TRec) (s : State) : State :=
  if evidFull s then { s with attic := { s.attic with evidLost := min (s.attic.evidLost + 1) (2 ^ 32 - 1) } }
  else bump Reg.TLY_CNT_APPENDED 1
    { s with attic := { s.attic with evid := s.attic.evid ++ [{ r with slot := s.attic.evid.length }] } }

/-- Takes the next SEQ (R431). -/
def takeSeq (s : State) : State := { s with attic := { s.attic with nextSeq := s.attic.nextSeq + 1 } }

/-- The record finds a place in its area (R434). -/
def written (r : TRec) (s : State) : Bool :=
  if r.evid then !evidFull s else !atticRO s 1 && (decide (s.attic.ring.length < 65536) || (ringEvict r.sev s.attic.ring).isSome)

/-- One record into its area; a record that is written takes the next SEQ (R431), and PF vector 4 from severity WARN up (Table 15.9). -/
def store (r : TRec) (s : State) : State :=
  let r := { r with seq := s.attic.nextSeq }
  let u := if r.evid then evidAppend r s else ringAppend r s
  if !written r s then u else if 2 ≤ r.sev then irq 0 4 (takeSeq u) else takeSeq u

/-- The block of the record last stored wears; a remap leaves a record of its own, which wears nothing further (log entry 13). -/
def wearTally (r : TRec) (s : State) : State :=
  match wearStep 1 (recBlock { r with slot := if r.evid then s.attic.evid.length - 1 else s.attic.ring.length - 1 }) s with
  | (s, none) => s
  | (s, some code) => store ⟨0, s.time.now, code, (evInfo code).1, false, 0, 0, 0, 0, stateByte s, evData [1], 0xA5, 0⟩ s

/-- A record into its area; its block wears where it was written. -/
def append (r : TRec) (s : State) : State := if written r s then wearTally r (store r s) else store r s

/-! Rate limits (R435) -/

/-- Codes that take no token. -/
def exempt (code : Nat) : Bool :=
  [Ev.ALARM, Ev.ROOT_ERASED, Ev.VAULT_ERASED, Ev.EVIDENCE_LOST, Ev.TAIL_MOVED, Ev.LAMP_LOST, Ev.SUPPLY_DIP, Ev.LIFECYCLE_CHANGE].contains code

/-- Tokens in a code's bucket. -/
def tokens (s : State) (code : Nat) : Nat := tget (fun _ => s.guard.bucketBase) s.guard.buckets code

def setTokens (code n : Nat) (s : State) : State :=
  { s with guard := { s.guard with buckets := tput (fun _ => s.guard.bucketBase) s.guard.buckets code n } }

def suppress (code : Nat) (s : State) : State :=
  bump Reg.TLY_CNT_SUPPRESSED 1
    { s with guard := { s.guard with suppressed := tput nat0 s.guard.suppressed code (min (tget nat0 s.guard.suppressed code + 1) 0xFFFF) } }

/-- The record of an event with its bytes of DATA. -/
def mkRec (code sev : Nat) (evid : Bool) (level srcKind srcIdx : Nat) (data : Bytes) (s : State) : TRec :=
  ⟨0, s.time.now, code, sev, evid, level, srcKind, srcIdx, tget nat0 s.guard.suppressed code, stateByte s, data, 0xA5, 0⟩

/-- Appends an event's record unless its bucket is empty; a record that is written carries the number suppressed before it. -/
def record (r : TRec) (s : State) : State :=
  if !exempt r.code && tokens s r.code == 0 then suppress r.code s
  else
    let s := if exempt r.code then s else setTokens r.code (tokens s r.code - 1) s
    append r (if written r s then { s with guard := { s.guard with suppressed := tput nat0 s.guard.suppressed r.code 0 } } else s)

/-- Raises an event at response level L0 whose data is a list of values; evidence that finds its area full is only counted here. -/
def event0 (code level : Nat) (vals : List Nat) (s : State) : State :=
  record (mkRec code (evInfo code).1 (evInfo code).2 level 0 0 (evData vals) s) s

end Sys2Proof.Machine
end

