-- ==== Sys2Proof/Machine/Release.lean ====
section
/-! DEFINITION. What a work item gives back when it ends: its key fetch, its INFLIGHT and epoch counts; and how an order that waited completes. -/
namespace Sys2Proof.Machine

/-! Ring registers (Table 15.16) -/

namespace RF
def ORD_TAIL : Fld := ⟨0, 6⟩
def ORD_HEAD : Fld := ⟨8, 6⟩
def CPL_HEAD : Fld := ⟨0, 6⟩
def CPL_TAIL : Fld := ⟨8, 6⟩
def TX_TAIL : Fld := ⟨0, 8⟩
def TX_HEAD : Fld := ⟨8, 8⟩
def RX_HEAD : Fld := ⟨0, 7⟩
def RX_TAIL : Fld := ⟨8, 7⟩
def RX_EN : Fld := ⟨16, 1⟩
def RXF_TAIL : Fld := ⟨0, 10⟩
def RXF_HEAD : Fld := ⟨16, 10⟩
end RF

/-- The PHASE bit of a part-produced ring's present pass: ring 0 completion, 1 receive. -/
def phaseBit (s : State) (fn ring : Nat) : Nat := if tget bool0 s.host.phase (4 * fn + ring) then 0 else 1

/-- The producer index advanced; PHASE toggles at each wrap (R396). -/
def flipPhase (fn ring : Nat) (s : State) : State :=
  { s with host := { s.host with phase := tput bool0 s.host.phase (4 * fn + ring) (!tget bool0 s.host.phase (4 * fn + ring)) } }

def advanceTail (fn ring off : Nat) (f : Fld) (n : Nat) (s : State) : State :=
  let t := (s.pgFld fn off f + 1) % n
  let s := s.setPgFld fn off f t
  if t = 0 then flipPhase fn ring s else s

/-! Completion ring (R397) -/

/-- Writes a completion entry (its PHASE added here) and signals vector 0. -/
def writeCpl (fn w0 w1 : Nat) (s : State) : State :=
  let t := s.pgFld fn pgCpl RF.CPL_TAIL
  let s := s.setPg fn (0x1400 + 16 * t + 8) (BitVec.ofNat 64 w1)
  let s := s.setPg fn (0x1400 + 16 * t) (BitVec.ofNat 64 (w0 + 4 * phaseBit s fn 0))
  irq fn 0 (advanceTail fn 0 pgCpl RF.CPL_TAIL 64 s)

def cplFull (s : State) (fn : Nat) : Bool := (s.pgFld fn pgCpl RF.CPL_TAIL + 1) % 64 == s.pgFld fn pgCpl RF.CPL_HEAD

/-- A completion entry; while its ring is full it waits for room (log entry 31). -/
def pushCpl (fn w0 w1 : Nat) (s : State) : State :=
  if cplFull s fn || !(tget nil0 s.host.cplWait fn).isEmpty then
    { s with host := { s.host with cplWait := tput nil0 s.host.cplWait fn (tget nil0 s.host.cplWait fn ++ [(w0, w1)]) } }
  else writeCpl fn w0 w1 s

/-- Entries that waited are written while the ring has room. -/
def flushCpl : List (Nat × Nat) → Nat → State → State
  | [], fn, s => { s with host := { s.host with cplWait := tput nil0 s.host.cplWait fn [] } }
  | (a, b) :: t, fn, s =>
    if cplFull s fn then { s with host := { s.host with cplWait := tput nil0 s.host.cplWait fn ((a, b) :: t) } }
    else flushCpl t fn (writeCpl fn a b s)

/-! Landing cells and what an order uses of them (R393, Table 15.5) -/

def cellBase (s : State) (fn : Nat) : Nat := s.fld (Reg.HST_FN_CELLS fn) Fd.HST_FN_CELLS_CELL_BASE
def cellCount (s : State) (fn : Nat) : Nat := s.fld (Reg.HST_FN_CELLS fn) Fd.HST_FN_CELLS_CELL_COUNT

/-- A cell lies in a function's range. -/
def ownsCell (s : State) (fn c : Nat) : Bool := decide (cellBase s fn ≤ c) && decide (c < cellBase s fn + cellCount s fn)

/-- Of some cells, those of a function's own range. -/
def ownCells (s : State) (fn : Nat) (cells : List Nat) : List Nat := cells.filter (ownsCell s fn)

/-- The cells a byte count fills from a first cell. -/
def cellsFrom (first bytes : Nat) : List Nat := (List.range (ceilDiv bytes 4096)).map (first + ·)

def setToken (i v : Nat) (s : State) : State := { s with host := { s.host with tokens := tput nat0 s.host.tokens i v } }
def tokenOf (s : State) (i : Nat) : Nat := tget nat0 s.host.tokens i

/-- DEVICE cells go back to HOST; a POISON cell stays (Table 15.5). -/
def handBack (cells : List Nat) (s : State) : State :=
  cells.foldl (fun s i => if tokenOf s i = 1 then setToken i 0 s else s) s

/-- Bytes of a table record (Table 08.7). -/
def recSize (t : Nat) : Nat := if t = 1 then 96 else 32
/-- Records in one cell. -/
def perCell (t : Nat) : Nat := 4096 / recSize t
def recCells (t first n : Nat) : List Nat := (List.range (ceilDiv n (perCell t))).map (first + ·)

/-- Argument k of an order: g16 + k. -/
def OrdReq.arg (o : OrdReq) (k : Nat) : Nat := (o.args.getD k 0).toNat

/-- The first landing cell an order's arguments name and how many bytes follow from there (Table 07.9). -/
def orderSpan (o : OrdReq) : List Nat :=
  let one := fun k => [o.arg k]
  match o.code with
  | 0x102 | 0x105 | 0x410 | 0x414 | 0x415 | 0x501 | 0x507 | 0x510 | 0x604 | 0x701 | 0x903 | 0xA03 => one 1
  | 0x404 | 0x405 | 0x503 | 0x511 | 0x512 => one 2
  | 0xB01 => one 3
  | 0x411 => one 6
  | 0x506 | 0x802 => one 0
  | 0x303 | 0x304 => recCells (o.arg 0) (o.arg 1) (min (o.arg 2) 262144)
  | 0x305 => recCells (o.arg 0) (o.arg 3) (min (o.arg 2) 262144)
  | 0x508 => cellsFrom (o.arg 0) (128 * min (o.arg 1) 4096)
  | 0xA05 => (List.range (min (o.arg 1) 1024)).map (o.arg 0 + ·)
  | 0xA06 => if o.arg 0 = 1 then one 1 else []
  | _ => []

/-- Of them, those the order may use: its function's, handed over; firmware names no cells of a function (R394). -/
def orderCells (o : OrdReq) (s : State) : List Nat :=
  if o.src = 0 then (ownCells s o.fn (orderSpan o)).filter (fun c => tokenOf s c == 1) else []

/-! Foreman threads and orders (R200) -/

/-- The foreman executes: no miscompare has stopped it, or the part is in Recovery, where it takes bundles again (R205, R445; log entry 112). -/
def foreOn (s : State) : Bool := !s.fore.stopped || s.mode == 4

def foreThread (s : State) (t : Nat) : Thread := tget thread0 s.fore.threads t
def setForeThread (t : Nat) (h : Thread) (s : State) : State :=
  { s with fore := { s.fore with threads := tput thread0 s.fore.threads t h } }
/-- A general register of a thread; g0 reads 0 (R175). -/
def Thread.g (h : Thread) (r : Nat) : W64 := if r = 0 then 0 else tget w640 h.regs r
/-- A register written; g0 discards it. -/
def Thread.setG (h : Thread) (r : Nat) (v : W64) : Thread := if r = 0 then h else { h with regs := tput w640 h.regs r v }
def setForeReg (t r : Nat) (v : W64) (s : State) : State := setForeThread t ((foreThread s t).setG r v) s

def setForeRegs (t : Nat) : List (Nat × W64) → State → State
  | [], s => s
  | (r, v) :: rest, s => setForeRegs t rest (setForeReg t r v s)

def running (s : State) (t : Nat) : Option Running := tget none0 s.fore.running t
def setRunning (t : Nat) (r : Option Running) (s : State) : State :=
  { s with fore := { s.fore with running := tput none0 s.fore.running t r } }

/-- Notes the landing cells that the bundle of a thread has used: they go back when it has ended (Table 15.5; log entry 108). -/
def useCells (t : Nat) (cells : List Nat) (s : State) : State :=
  match running s t with
  | some r => setRunning t (some { r with used := r.used ++ cells.filter (fun c => !r.used.contains c) }) s
  | none => s

/-- Cells that some bundle still uses, or an order of it that is not done. -/
def cellsInUse (s : State) : List Nat :=
  s.fore.running.flatMap (fun e => match e.2 with | some r => r.used | none => []) ++
  (s.fore.deferred.map (fun d => d.req) ++ s.fore.waits ++ s.guard.held.filterMap (fun h => match h with | .order o => some o | _ => none)).flatMap
    (fun o => orderCells o s)

/-- Used cells go back, but for those still in use. -/
def freeUsed (cells : List Nat) (s : State) : State := handBack (cells.filter (fun c => !(cellsInUse s).contains c)) s

/-- Notes the status of a program's last order in its result header (Table 07.7). -/
def noteStatus (t status : Nat) (s : State) : State :=
  match running s t with
  | some r => setRunning t (some { r with lastStatus := status }) s
  | none => s

/-- An order ends: its results and then its status reach the thread that issued it. -/
def answer (t rd : Nat) (status : W64) (res : List (Nat × W64)) (s : State) : State :=
  noteStatus t (status.toNat % 256) (setForeReg t rd status (setForeRegs t res s))

/-- A deferred order has been done: ORDER_DONE, and a completion entry unless its function was reset (R223, R397). -/
def finishDeferred (o : OrdReq) (status : Nat) (s : State) : State :=
  match s.fore.deferred.find? (fun d => 4 + d.ticket == o.t) with
  | some d =>
    let s := { s with fore := { s.fore with deferred := s.fore.deferred.erase d } }
    let s := event0 Ev.ORDER_DONE 0 [o.signer * 2 ^ 32 + o.fn, o.seq, d.ticket, o.code * 256 + status] s
    let s := freeUsed (orderCells o s) s
    if d.silent then s else pushCpl o.fn (2 + status * 2 ^ 8 + o.code * 2 ^ 16) d.ticket s
  | none => s

/-- An order ends: a thread takes its results and status, a deferred order is reported, one of nobody's just ends. -/
def endOrder (o : OrdReq) (status : W64) (res : List (Nat × W64)) (s : State) : State :=
  if o.t < 4 then answer o.t o.rd status res s else finishDeferred o (status.toNat % 256) s

/-- A waiting order ends. -/
def finishWait (o : OrdReq) (status : Nat) (res : List (Nat × W64)) (s : State) : State :=
  endOrder o (BitVec.ofNat 64 status) res { s with fore := { s.fore with waits := s.fore.waits.erase o } }

/-- The claims a property holds of, dropped. -/
def dropClaims (p : Claim → Bool) (s : State) : State :=
  { s with fore := { s.fore with claims := s.fore.claims.filter (fun c => !p c) } }
def addClaim (c : Claim) (s : State) : State := { s with fore := { s.fore with claims := c :: s.fore.claims } }
def claimOn (s : State) (r : Res) : Option Claim := s.fore.claims.find? (fun c => c.res == r)

/-! Association entries -/

def arec (s : State) (a : Nat) : ARec := tget assoc0 s.assoc a
def setArec (a : Nat) (r : ARec) (s : State) : State := { s with assoc := tput assoc0 s.assoc a r }
def ARec.an (r : ARec) (i : Nat) : AnEnt := r.ans.getD i an0
def ARec.setAn (r : ARec) (i : Nat) (e : AnEnt) : ARec := { r with ans := r.ans.set i e }
def setAnOf (a i : Nat) (e : AnEnt) (s : State) : State := setArec a ((arec s a).setAn i e) s

/-- A pending AN_RETIRE of this entry completes once INFLIGHT is 0, clearing VALID and RETIRING (R54). -/
def retireDone (a i : Nat) (s : State) : State :=
  match s.fore.waits.find? (fun o => o.code == 0x413 && o.args.getD 0 0 == BitVec.ofNat 64 a && o.args.getD 1 0 == BitVec.ofNat 64 i) with
  | some o =>
    finishWait o 0 [] (dropClaims (fun c => c.res == .record a && c.code == 0x413)
      (setAnOf a i { (arec s a).an i with valid := false, retiring := false } s))
  | none => s

/-- INFLIGHT of an entry that retires has reached 0 (R54). -/
def drained (a i : Nat) (s : State) : State :=
  let e := (arec s a).an i
  if e.inflight = 0 ∧ e.retiring then
    retireDone a i (event0 Ev.SA_DRAINED 0 [a, i, e.nextPn] s)
  else s

/-- An item's tag returns: INFLIGHT of its entry falls by one (R153). -/
def leaveInflight (a i : Nat) (s : State) : State :=
  let e := (arec s a).an i
  drained a i (setAnOf a i { e with inflight := e.inflight - 1 } s)

/-- One item more in flight (R143 step 4). -/
def enterInflight (a i : Nat) (s : State) : State :=
  let e := (arec s a).an i
  setAnOf a i { e with inflight := e.inflight + 1 } s

/-! Key fetches (R119) -/

def slotOf (s : State) (n : Nat) : TSlot := tget slot0 s.vault.slots n
def setSlot (n : Nat) (t : TSlot) (s : State) : State := { s with vault := { s.vault with slots := tput slot0 s.vault.slots n t } }
/-- ATTR bit 0. -/
def TSlot.valid (t : TSlot) : Bool := nbit t.w0.toNat 0

def fetchSlot (n : Nat) (s : State) : State :=
  setSlot n { slotOf s n with uses := (slotOf s n).uses + 1, refd := true } s

/-- A fetch ends (R119); SLOT_ZEROIZE clears an invalidated slot once its count is 0. -/
def unfetch (n : Nat) (s : State) : State := setSlot n { slotOf s n with uses := (slotOf s n).uses - 1 } s

/-! Program epochs (R157) -/

def dispatchEpoch (s : State) : Nat := s.fld Reg.GAL_EPOCH Fd.GAL_EPOCH_DISPATCH

def enterEpoch (e : Nat) (s : State) : State :=
  s.setFld (Reg.GAL_EPOCH_INFLIGHT e) Fd.GAL_EPOCH_INFLIGHT_COUNT (s.fld (Reg.GAL_EPOCH_INFLIGHT e) Fd.GAL_EPOCH_INFLIGHT_COUNT + 1)

/-- The count of an epoch other than DISPATCH has reached 0. -/
def epochFreed (e : Nat) (s : State) : State :=
  if s.fld (Reg.GAL_EPOCH_INFLIGHT e) Fd.GAL_EPOCH_INFLIGHT_COUNT = 0 ∧ e ≠ dispatchEpoch s then event0 Ev.EPOCH_FREED 0 [e] s else s

def leaveEpoch (e : Nat) (s : State) : State :=
  epochFreed e (s.setFld (Reg.GAL_EPOCH_INFLIGHT e) Fd.GAL_EPOCH_INFLIGHT_COUNT (s.fld (Reg.GAL_EPOCH_INFLIGHT e) Fd.GAL_EPOCH_INFLIGHT_COUNT - 1))

/-! Drop counts (R273) -/

/-- An ingress port with no port counters: the frames of host functions. -/
def noPort : Nat := 64

/-- Counts a drop against its ingress port; a frame of a host function counts only per queue. -/
def portDrop (port reason : Nat) (s : State) : State :=
  if port < noPort then bump (Reg.WND_CNT_PORT_DROP port reason) 1 s else s

/-- A queue's counter for a reason. -/
def queueDropReg (q reason : Nat) : Nat :=
  if reason = 0x02 then Reg.Q_CNT_DROP_FULL q else if reason = 0x03 then Reg.Q_CNT_DROP_YELLOW q
  else if reason = 0x04 then Reg.Q_CNT_DROP_STALE q else if reason = 0x0F then Reg.Q_CNT_DROP_MEMCHECK q
  else Reg.Q_CNT_DROP_OTHER q

def queueDrop (q reason : Nat) (s : State) : State := bump (queueDropReg q reason) 1 s

end Sys2Proof.Machine
end

