-- ==== Sys2Proof/Machine/Halt.lean ====
section
/-! DEFINITION. What stops traffic and what erases keys (R27 to R29, R132, R133, R162, R424, R445): the state changes of the response levels, of Banked and Test entry and of resets. -/
namespace Sys2Proof.Machine

/-! Discarding what the islands hold (R27, R29) -/

/-- The counts an item leaves when its tag returns. -/
def releaseCounts (it : Item) (s : State) : State :=
  let s := match it.assoc with
    | some a => if it.counted then leaveInflight a it.an s else s
    | none => s
  leaveEpoch it.epoch s

/-- The key an item holds, given back. -/
def releaseKey (it : Item) (s : State) : State :=
  match it.key with
  | some k => unfetch k.slot s
  | none => s

/-! The work contexts of a cipher unit (R149) -/

/-- Context k of gallery g, and one set. -/
def unitCtx (s : State) (g k : Nat) : CipherCtx := tget ctx0 s.gal.ctxs (4 * g + k)
def setCtx (i : Nat) (c : CipherCtx) (s : State) : State := { s with gal := { s.gal with ctxs := tput ctx0 s.gal.ctxs i c } }

/-- The key that a work loads into its context's key register. -/
def workKey (s : State) : Work → BitVec 512
  | .item tag => match tget none0 s.gal.items tag with
    | some it => (match it.key with | some k => k.key.setWidth 512 | none => 0)
    | none => 0
  | .job fn j => match s.gal.jobs.find? (fun b => b.fn == fn && b.j == j) with | some b => b.key | none => 0
  | .rest _ _ => 0

/-- The work that waits longest takes a free context, its key loaded at once (R149). -/
def loadUnit (g : Nat) (s : State) : State :=
  match (List.range 4).find? (fun k => (unitCtx s g k).work.isNone), tget nil0 s.gal.unitQ g with
  | some k, w :: rest => setCtx (4 * g + k) ⟨some w, workKey s w⟩ { s with gal := { s.gal with unitQ := tput nil0 s.gal.unitQ g rest } }
  | _, _ => s

/-- A work reaches the cipher unit of a gallery. -/
def enterUnit (g : Nat) (w : Work) (s : State) : State :=
  loadUnit g { s with gal := { s.gal with unitQ := tput nil0 s.gal.unitQ g (tget nil0 s.gal.unitQ g ++ [w]) } }

/-- The context a work holds. -/
def ctxOfWork (s : State) (g : Nat) (w : Work) : Option Nat := (List.range 4).find? (fun k => (unitCtx s g k).work == some w)

/-- The key register of the context a work holds; none while it waits for one. -/
def unitKey (s : State) (g : Nat) (w : Work) : Option (BitVec 512) := (ctxOfWork s g w).map (fun k => (unitCtx s g k).key)

/-- A work leaves its context, which keeps its key register until the next load, or goes on there as another; a free context takes the next work. -/
def leaveUnit (g : Nat) (w : Work) (next : Option Work) (s : State) : State :=
  match ctxOfWork s g w with
  | some k => loadUnit g (setCtx (4 * g + k) { unitCtx s g k with work := next } s)
  | none => { s with gal := { s.gal with unitQ := tput nil0 s.gal.unitQ g ((tget nil0 s.gal.unitQ g).filter (· != w)) } }

/-- The key fetch of a context whose item the screen already has ends with it (R148, R150). -/
def unfetchRest (s : State) (e : Nat × CipherCtx) : State :=
  match e.2.work with
  | some (.rest slot _) => unfetch slot s
  | _ => s

def isJob : Work → Bool
  | .job _ _ => true
  | _ => false

/-- A squelch takes items out of the cipher units: the key registers stay, jobs go on (R162). -/
def squelchUnits (s : State) : State :=
  let s := s.gal.ctxs.foldl unfetchRest s
  let s := { s with gal := { s.gal with
    ctxs := tmap ctx0 (fun _ c => { c with work := c.work.filter isJob }) s.gal.ctxs
    unitQ := tmap nil0 (fun _ l => l.filter isJob) s.gal.unitQ } }
  (List.range 256).foldl (fun s i => loadUnit (i / 4) s) s

/-- Every key register of the cipher units zeroed (R162). -/
def zeroUnits (s : State) : State := { s with gal := { s.gal with ctxs := [], unitQ := [] } }

/-- Reason SQUELCH. -/
def rSquelch : Nat := 0x16

/-- An item discarded: its port, and the queue chosen for it (R273). -/
def squelchWaiting (it : Item) (s : State) : State :=
  let s := portDrop it.port rSquelch s
  if it.dom < 64 ∨ 96 ≤ it.dom then queueDrop it.queue rSquelch s else s

def squelchItem (s : State) (e : Nat × Option Item) : State :=
  match e.2 with
  | some it =>
    if it.gone.isSome then releaseKey it s else
    let s := releaseCounts it (releaseKey it s)
    match it.st with
    | .dropped _ _ => s
    | .punted => s
    | _ => squelchWaiting it s
  | none => s

def squelchFrame (q : Nat) (s : State) (f : QFrame) : State := queueDrop q rSquelch (portDrop f.port rSquelch s)

/-- An emptied queue asserts no PFC any more; the client transmitters idle, so no frame says so (R28, R270). -/
def squelchQueue (s : State) (e : Nat × Queue) : State :=
  let s := e.2.frames.foldl (squelchFrame e.1) s
  { s with wnd := { s.wnd with queues := tput queue0 s.wnd.queues e.1 { e.2 with frames := [], deficit := 0, xoff := false } } }

/-- The bytes of a frame that go out before it ends with an inverted FCS: a number the spec leaves open, not below what had been sent for certain (log entry 6). -/
def cutShort (s : State) (f : QFrame) (least : Nat) : Bytes := f.data.take (least + (Config.free s.draws).toNat % (f.data.length - least + 1))

/-- A frame ends with an inverted FCS, counted in TX_FCS_INVERTED alone (R28, R150, R314). -/
def endCut (e : Nat) (f : QFrame) (least : Nat) (s : State) : State :=
  bump (Reg.MAC_CNT_TX_FCS_INVERTED e) 1 ((s.emit (.frame e (cutShort s f least) false)).drew)

/-- A frame that is being sent ends with an inverted FCS (R28). -/
def squelchEgress (s : State) (e : Nat × Egress) : State :=
  let s := { s with wnd := { s.wnd with egress := tput egress0 s.wnd.egress e.1 { e.2 with busy := none, fetch := none } } }
  match e.2.busy with
  | some f => endCut e.1 f 0 s
  | none => s

/-! The line framer -/

/-- The line lane of lane-in-trunk i, if its entry is valid (Table 03.12). -/
def trunkLane (s : State) (n i : Nat) : Option Nat :=
  let e := nbits (s.reg (Reg.LFR_TRUNK_LANES n (i / 8))).toNat (8 * (i % 8)) 8
  if nbit e 7 then some (e % 32) else none

/-- The d.port value of the line port that carries lane 0 of a trunk; the drop counters of its tubs (R273). -/
def trunkPort (s : State) (n : Nat) : Nat := match trunkLane s n 0 with | some l => 32 + l | none => noPort

/-- The port of a tributary's primary trunk. -/
def tribLinePort (s : State) (dir t : Nat) : Nat := trunkPort s (s.fld (Reg.LFR_TRIB_CFG dir t) Fd.LFR_TRIB_CFG_TRUNK)

def countMany (port n : Nat) (s : State) : State := (List.range n).foldl (fun s _ => portDrop port rSquelch s) s

/-- A transmit tributary discards its open tub, the frame that was to continue, the sealed tubs that wait and the tub that is partly laid. -/
def squelchTx (s : State) (e : Nat × TxTrib) : State :=
  countMany (tribLinePort s 0 e.1) (b2n e.2.open_.isSome + e.2.ready.length + b2n (e.2.laying && !e.2.stream.isEmpty)) s
/-- A receive tributary discards its held tubs and the frame in progress. -/
def squelchRx (s : State) (e : Nat × RxTrib) : State :=
  countMany (tribLinePort s 1 e.1) (e.2.holds.length + b2n e.2.part.isSome) s

def squelchLfr (s : State) : State :=
  let s := s.lfr.rxTribs.foldl squelchRx (s.lfr.txTribs.foldl squelchTx s)
  { s with lfr := { s.lfr with lanes := [], txTribs := [], rxTribs := [], tx := tmap txTrunk0 (fun _ x => { x with sent := [], row := [] }) s.lfr.tx, rx := tmap rxTrunk0 (fun _ x => { x with rows := [] }) s.lfr.rx } }

def squelchGate (s : State) (e : Nat × Option GEntry) : State :=
  match e.2 with
  | some g => queueDrop g.queue rSquelch (portDrop g.frame.port rSquelch s)
  | none => s

/-- A copy in the crosscut buffer discarded. -/
def squelchCopy (s : State) (x : XcCopy) : State :=
  let s := portDrop x.port rSquelch s
  match x.queue with | some q => queueDrop q rSquelch s | none => s

/-- Threads zero their registers, predicates and header windows (R162, R175). -/
def clearThread (h : Thread) : Thread := { h with regs := [], preds := 1, pc := 0, steps := 0, tag := none, win := [], wlen := 0 }

/-- The galleries, the dispatcher and the screen discard what they hold. -/
def squelchItems (s : State) : State :=
  let s := squelchUnits (s.gal.items.foldl squelchItem s)
  let s := (s.gal.backlog.flatMap (·.2)).foldl (fun s it => squelchWaiting it s) s
  let s := s.gal.parked.foldl (fun s it => squelchWaiting it s) s
  { s with gal := { s.gal with
      items := [], backlog := [], parked := [], tags := [], queues := [], paused := [], stallAt := none,
      threads := tmap thread0 (fun _ h => clearThread h) s.gal.threads } }

/-- Lane and port status when the client and line transmitters idle (R28): state 1 IDLE for an L2 squelch, 0 DEEP when the lanes are put away. -/
def idleWord (deep : Bool) (k : Nat) (v : W64) : W64 :=
  if 0x200000 ≤ k ∧ k < 0x204000 ∧ k % 0x100 = 8 then
    (if deep then v &&& 1 else if fget v Fd.LAN_LANE_STATUS_STATE = 0 then v else fset (v &&& 1) Fd.LAN_LANE_STATUS_STATE 1)
  else if 0x300000 ≤ k ∧ k < 0x340000 ∧ k % 0x1000 = 8 then 0
  else if 0x400000 ≤ k ∧ k < 0x401000 ∧ k % 0x100 = 0x20 then fset v Fd.LFR_TRUNK_STATUS_UP 0
  else v

def idleLanes (deep : Bool) (s : State) : State := { s with regs := tmap regReset (idleWord deep) s.regs }

/-- Receive trunks that were UP go down with what carries them (R75, R108). -/
def trunksDown (s : State) : State :=
  (List.range 16).foldl (fun s n => if s.flag (Reg.LFR_TRUNK_STATUS n) Fd.LFR_TRUNK_STATUS_UP then event0 Ev.TRUNK_DOWN 0 [n] s else s) s

/-- Cells of a byte range zeroed. -/
def zeroRange (lo hi : Nat) (m : List Host.Cell) : List Host.Cell := m.filter (fun c => decide (c.1 < lo) || decide (hi ≤ c.1))

/-- Where landing cell i lies (Table 10.1). -/
def landingAt (i : Nat) : Nat := 0x35000000 + 4096 * i

def pgJob (j k : Nat) : Nat := 0x8000 + 0x80 * j + k
/-- A job's input length, additional data and mode, and its first cells. -/
def jobMode (s : State) (fn j : Nat) : Nat := nbits (s.pg fn (pgJob j 0)).toNat 0 4
def jobSlot (s : State) (fn j : Nat) : Nat := nbits (s.pg fn (pgJob j 0)).toNat 4 14
def jobVector (s : State) (fn j : Nat) : Nat := nbits (s.pg fn (pgJob j 0)).toNat 18 6
def jobSrc (s : State) (fn j : Nat) : Nat := nbits (s.pg fn (pgJob j 8)).toNat 0 16
def jobDst (s : State) (fn j : Nat) : Nat := nbits (s.pg fn (pgJob j 8)).toNat 32 16
def jobLen (s : State) (fn j : Nat) : Nat := nbits (s.pg fn (pgJob j 0x10)).toNat 0 17
def jobAad (s : State) (fn j : Nat) : Nat := nbits (s.pg fn (pgJob j 0x10)).toNat 32 13

/-- Bytes that a job's output takes (R166): text for GCM, nothing but the tag for GMAC, one semiblock more or less for key wrap; the most a padded unwrap can give. -/
def jobOut (mode len aad : Nat) : Nat :=
  if mode ≤ 1 then len - aad else if mode ≤ 3 then 0 else if mode ≤ 5 then len
  else if mode = 6 then len + 8 else if mode = 8 then ceilDiv len 8 * 8 + 8 else len - 8

/-- The cells a job names. -/
def jobCells (s : State) (fn j : Nat) : List Nat :=
  cellsFrom (jobSrc s fn j) (jobLen s fn j) ++ cellsFrom (jobDst s fn j) (jobOut (jobMode s fn j) (jobLen s fn j) (jobAad s fn j))

/-- Writes the end of a job into its slot: GO and RUNNING cleared, DONE, STATUS and OUT_LEN set, its vector signalled, its cells handed back. -/
def jobEnd (fn j status outLen : Nat) (cells : List Nat) (s : State) : State :=
  let v := jobVector s fn j
  let s := s.setPg fn (pgJob j 0) (BitVec.ofNat 64 (nbits (s.pg fn (pgJob j 0)).toNat 0 32))
  let s := s.setPg fn (pgJob j 0x40) (BitVec.ofNat 64 (1 + status * 256 + outLen * 65536))
  irq fn v (handBack cells (bump Reg.GAL_CNT_LA_JOB 1 s))

/-- The output area of a job is written with zeros. -/
def zeroOut (fn j : Nat) (s : State) : State :=
  let dst := landingAt (jobDst s fn j)
  { s with mem := { s.mem with bytes := zeroRange dst (dst + jobOut (jobMode s fn j) (jobLen s fn j) (jobAad s fn j)) s.mem.bytes } }

/-- The key fetches of a job end; an XTS key takes two slots. -/
def unfetchJob (b : Job) (s : State) : State :=
  let m := jobMode s b.fn b.j
  let s := unfetch b.slot s
  if m = 4 ∨ m = 5 then unfetch (b.slot + 1) s else s

/-- A job whose function was reset ends without a completion (Table 05.5). -/
def jobSilent (b : Job) (s : State) : State :=
  let cells := jobCells s b.fn b.j
  let s := handBack cells (zeroOut b.fn b.j s)
  let s := s.setPg b.fn (pgJob b.j 0) (BitVec.ofNat 64 (nbits (s.pg b.fn (pgJob b.j 0)).toNat 0 32))
  s.setPg b.fn (pgJob b.j 0x40) 0

/-- A running job ends ABORTED with its output zeroed (R162). -/
def abortJob (s : State) (b : Job) : State :=
  let s := unfetchJob b (leaveUnit b.gal (.job b.fn b.j) none s)
  if b.silent then jobSilent b s else jobEnd b.fn b.j 7 0 (jobCells s b.fn b.j) (zeroOut b.fn b.j s)

/-- Look-aside jobs in progress end ABORTED (R162). -/
def abortJobs (s : State) : State :=
  let js := s.gal.jobs
  js.foldl abortJob { s with gal := { s.gal with jobs := [] } }

/-- Every island discards what it holds and the transmitters idle (R27, R28, R29). -/
def stopTraffic (deep : Bool) (s : State) : State :=
  let s := squelchItems s
  let s := s.wnd.queues.foldl squelchQueue s
  let s := s.wnd.egress.foldl squelchEgress s
  let s := s.gate.entries.foldl squelchGate s
  let s := s.twin.xcBuf.foldl squelchCopy s
  let s := trunksDown (squelchLfr s)
  idleLanes deep { s with gate := { s.gate with entries := [] }, twin := { s.twin with xcBuf := [] } }

/-! Erasure (R132, R133, R424) -/

/-- The foreman's part of an erase: held and waiting orders end ABORTED, waiting bundles and deferred orders go, programs end ABORTED (Table 07.11). -/
def abortHeld (s : State) (h : Held) : State :=
  match h with
  | .order o => finishWait o 7 [] s
  | _ => s

def abortPrograms (s : State) : State :=
  let s := s.guard.held.foldl abortHeld s
  let s := s.fore.waits.foldl (fun s o => finishWait o 7 [] s) s
  { s with
    guard := { s.guard with held := [] }
    gal := { s.gal with restoring := [], draining := [] }
    fore := { s.fore with
      claims := [], verify := [], accepted := [], deferred := [], waits := []
      running := s.fore.running.map (fun e => (e.1, e.2.map (fun r => { r with status := some (r.status.getD 7) }))) } }

/-- Every session with a twin, a hewer or an overman ends: its key is gone (Table 14.14). -/
def dropLinks (t : Twin) : Twin :=
  { t with link := .reset, overman := .reset, hewers := t.hewers.map (fun e => (e.1, e.2.map (fun h => { h with link := .reset }))) }

/-- Memory keys whose previous value is still held. -/
def changingKeys (s : State) : List Nat :=
  (s.regs.filter (fun e => decide (Reg.MEM_KEY_STATUS 0 ≤ e.1) && decide (e.1 < Reg.MEM_KEY_STATUS 256) && nbit e.2.toNat 8)).map
    (fun e => (e.1 - Reg.MEM_KEY_STATUS 0) / 8)

/-- Partial writes and walks in progress are abandoned as the memory keys go, and no previous key is left (Table 10.4). -/
def dropWalks (s : State) : State :=
  let s := (changingKeys s).foldl (fun s i => s.setFld (Reg.MEM_KEY_STATUS i) Fd.MEM_KEY_STATUS_CHANGING 0) s
  { s.setFld Reg.MEM_STATUS Fd.MEM_STATUS_REKEY_ACTIVE 0 with mem := { s.mem with opens := [], walks := [] } }

/-- The generations the zeroed sectors of regions 0, 1 and 5 stand under: those their reset keys now have. -/
def zeroedUnder (s : State) : Table Nat :=
  [0xFA, 0xFE, 0xFF].foldl (fun m i => tput nat0 m i (s.fld (Reg.MEM_KEY_STATUS i) Fd.MEM_KEY_STATUS_KGEN)) []

/-- Traffic slots, cipher-unit keys, deep slot 4, memory and check keys, IDE keys and SPDM sessions (Table 04.12, L3). -/
def eraseKeys (s : State) : State :=
  let s := zeroUnits ((dropWalks s).setFld Reg.TWN_STATUS Fd.TWN_STATUS_PEER 0)
  { s with
    twin := dropLinks s.twin
    vault := { s.vault with
      slots := [], deep := tdel s.vault.deep 4, checkKey := 0, checkPresent := false, memKeys := [], prevKeys := [], memPresent := false
      fills := [], sweeps := [] }
    host := { s.host with ide := [], sessions := [] } }

/-- Established SPDM sessions end (Table 15.14, Table 15.17). -/
def endSessions (s : State) : State :=
  (s.host.sessions.filter (fun x => x.established)).foldl (fun s x => event0 Ev.SPDM_SESSION 0 [x.id, 0] s) { s with host := { s.host with sessions := [] } }

def eraseDeep (s : State) : State := { s with vault := { s.vault with deep := [] }, lamp := { s.lamp with root := none } }

/-- The domains that Recovery powers down, off (R445). -/
def setDomain (d st : Nat) (s : State) : State := s.setFld (Reg.PWR_DOM d) Fd.PWR_DOM_STATE st
def setDomains (lo n st : Nat) (s : State) : State := (List.range n).foldl (fun s i => setDomain (lo + i) st s) s

def setMode (m : Nat) (s : State) : State :=
  event0 Ev.MODE_CHANGE 0 [s.mode, m] (s.setFld Reg.PWR_STATUS Fd.PWR_STATUS_MODE m)

/-- A fresh landing key and check key; region 5 zeroed; every other region has no key (R289). -/
def freshLanding (s : State) : State :=
  let k := s.draw
  let s := s.drew
  let c := s.draw
  let s := s.drew
  { s with
    mem := { s.mem with bytes := [], side := [], walked := zeroedUnder s, opens := [], scrubs := [], noKey := true }
    vault := { s.vault with memKeys := tput memKey0 [] 0xFA k, checkKey := c.setWidth 256, checkPresent := true } }

/-- The registers of Recovery: its mode, no memory key of the galleries' regions, no gallery online. -/
def recoveryRegs (s : State) : State :=
  ((s.setFld Reg.PWR_STATUS Fd.PWR_STATUS_MODE 4).setFld Reg.MEM_STATUS Fd.MEM_STATUS_KEYS_PRESENT 0).setReg Reg.GAL_ONLINE 0

/-- Entry to Recovery (R445): PD8 to PD79 off, fresh keys for the landing cells, and the mode's change recorded. -/
def enterRecovery (s : State) : State :=
  let old := s.mode
  let s := recoveryRegs (freshLanding (setDomains 8 72 0 s))
  if old = 4 then s else event0 Ev.MODE_CHANGE 0 [old, 4] s

/-- L3: halt. Traffic stops, the key classes of L3 are erased and read back zero, the part enters Recovery. L4 also erases the deep slots and the root key. -/
def halt (level : Nat) (s : State) : State :=
  let s := abortPrograms (abortJobs (stopTraffic true s))
  let s := eraseKeys (endSessions s)
  let s := if 4 ≤ level then eraseDeep s else s
  let s := s.setFld Reg.SRM_STATUS Fd.SRM_STATUS_ERASED 1
  let s := event0 Ev.VAULT_ERASED level [if 4 ≤ level then 0x3F else 0x33, if 4 ≤ level then 0x3F else 0x33] s
  let s := if 4 ≤ level then event0 Ev.ROOT_ERASED level [4] s else s
  let s := { s with guard := { s.guard with halted := max level s.guard.halted } }
  enterRecovery s

end Sys2Proof.Machine
end

