-- ==== Sys2Proof/Machine/Guard.lean ====
section
/-! DEFINITION. The guard's shared operations (R419 to R422): floors, effective levels, triggers, and events whose evidence record may find its area full. -/
namespace Sys2Proof.Machine

/-- The event a monitor records under (Tables 16.2 and 16.13). -/
def monCode (m : Nat) : Nat :=
  [Ev.SUPPLY_RESET, Ev.CAUTION_LONG, Ev.SUPPLY_GLITCH, Ev.CLOCK_FAULT, Ev.CLOCK_GLITCH, Ev.TEMP_WARN, Ev.TEMP_HIGH, Ev.TEMP_LOW,
   Ev.SHIELD_BREAK, Ev.TAMPER_LOOP, Ev.TAMPER_LOOP, Ev.TAMPER_LOOP, Ev.TAMPER_LOOP, Ev.SHADOW_MISMATCH, Ev.FOREMAN_LOCKSTEP,
   Ev.MEM_CHECK_FAIL, Ev.HBM_FAULT, Ev.SLOT_BAD, Ev.GALLERY_FAULT, Ev.PKE_FAULT, Ev.EVIDENCE_LOST, Ev.DEBUG_REFUSED,
   Ev.VBAT_LOW, Ev.RTC_STOP].getD m 0

/-- Floors in Deployed, and in the other life-cycle states (Table 16.2), MEM_CHECK apart. -/
def floorDeployed : List Nat := [0, 0, 4, 2, 4, 0, 2, 3, 4, 1, 1, 1, 1, 3, 3, 1, 2, 1, 1, 1, 1, 1, 0, 1]
def floorOther : List Nat := [0, 0, 1, 1, 1, 0, 2, 1, 1, 0, 0, 0, 0, 3, 3, 1, 2, 1, 1, 1, 1, 0, 0, 0]

/-- The floor of a monitor in the current life-cycle state; MEM_CHECK has L1 in Service and Banked and L3 in other modes (R422). -/
def floorOf (s : State) (m : Nat) : Nat :=
  if m = 0x0F then (if s.mode = 2 ∨ s.mode = 3 then 1 else 3)
  else if s.attic.lifecycle = 2 then floorDeployed.getD m 0 else floorOther.getD m 0

/-- The effective level: the set level or the floor, whichever is higher (R420). Start-up, Test and Recovery apply MEM_CHECK at L3 whatever the setting. -/
def effective (s : State) (m : Nat) : Nat :=
  if m = 0x0F ∧ ¬ (s.mode = 2 ∨ s.mode = 3) then 3
  else max (min 4 (s.fld (Reg.TMP_LEVEL m) Fd.TMP_LEVEL_LEVEL)) (floorOf s m)

/-- The monitors the lamp room runs itself (R419). -/
def lampMonitors : List Nat := [0x02, 0x07, 0x08, 0x09, 0x0A, 0x0B, 0x0C, 0x17]

/-- The lamp room holds the levels of its own monitors (R425). -/
def syncLamp (s : State) : State :=
  { s with lamp := { s.lamp with levels := lampMonitors.foldl (fun t m => tput nat0 t m (effective s m)) s.lamp.levels } }

/-- The level in force, and whether L2 or the caution state holds. -/
def levelInForce (s : State) : Nat := s.fld Reg.TMP_STATUS Fd.TMP_STATUS_LEVEL
def squelched (s : State) : Bool := s.flag Reg.TMP_STATUS Fd.TMP_STATUS_SQUELCH
def inCaution (s : State) : Bool := s.flag Reg.TMP_STATUS Fd.TMP_STATUS_CAUTION

/-- Traffic passes: Service, no squelch (R1, R162). -/
def trafficOn (s : State) : Bool := s.mainOn && !s.held && s.mode == 2 && !squelched s

/-- The collection window takes a trigger of L1 or above: it joins the open window, or opens one when its level exceeds the level in force (R421). -/
def windowTake (code level : Nat) (s : State) : State :=
  let bits := if 4 ≤ level then 0x3F else if 3 ≤ level then 0x33 else 0
  match s.guard.win with
  | some w =>
    let w' := { w with
      level := max w.level level, codes := if w.codes.length < 8 then w.codes ++ [code] else w.codes, fired := w.fired + 1
      erased := w.erased ||| bits, readBack := w.readBack ||| bits }
    { s with guard := { s.guard with win := some w' } }
  | none =>
    if levelInForce s < level then
      let w : AlarmWin := ⟨s.time.up, level, [code], 1, bits, bits, 0, 0⟩
      { s with guard := { s.guard with win := some w } }
    else s

/-- The response of a level; each level performs those below it (Table 16.3). -/
def respond (level : Nat) (s : State) : State :=
  if level = 0 then s
  else
    let s := irq 0 4 (s.setFld Reg.TMP_ALARM Fd.TMP_ALARM_L1 1)
    let s := s.setFld Reg.TMP_STATUS Fd.TMP_STATUS_LEVEL (max level (levelInForce s))
    if level = 1 then s
    else
      let s := { s.setFld Reg.TMP_STATUS Fd.TMP_STATUS_SQUELCH 1 with guard := { s.guard with l2At := s.time.up } }
      if level = 2 then abortJobs (stopTraffic false s) else halt level s

/-- A monitor fires: it is recorded under its own code at its effective level and takes its response (R420, R421). -/
def trigger0 (m : Nat) (vals : List Nat) (s : State) : State :=
  let level := effective s m
  let s := bump Reg.TMP_CNT_TRIGGER 1 (s.setFld Reg.TMP_STATUS Fd.TMP_STATUS_LAST_MONITOR m)
  let s := event0 (monCode m) level vals s
  let s := if 1 ≤ level then windowTake (monCode m) level s else s
  respond level s

/-- The record of an evidence code is about to be lost: its area takes no more and its bucket would let it through (R434). -/
def losesEvidence (code : Nat) (s : State) : Bool :=
  (evInfo code).2 && evidFull s && (exempt code || tokens s code != 0)

/-- A monitor fires; when its evidence record is lost, monitor 0x14 fires too (R434). -/
def trigger (m : Nat) (vals : List Nat) (s : State) : State :=
  if losesEvidence (monCode m) s then trigger0 0x14 [s.attic.evidLost + 1] (trigger0 m vals s) else trigger0 m vals s

/-- Raises an event; when its evidence record is lost, monitor 0x14 fires (R434). -/
def event (code : Nat) (vals : List Nat) (s : State) : State :=
  if losesEvidence code s then trigger0 0x14 [s.attic.evidLost + 1] (event0 code 0 vals s) else event0 code 0 vals s

/-- An event with a source: kind 0 hardware, 1 firmware, 2 management program (Table 16.6). -/
def eventFrom (code kind idx : Nat) (vals : List Nat) (s : State) : State :=
  let s' := record (mkRec code (evInfo code).1 (evInfo code).2 0 kind idx (evData vals) s) s
  if losesEvidence code s then trigger0 0x14 [s.attic.evidLost + 1] s' else s'

/-! The attic (R457 to R459) -/

/-- A write to an attic block: refused in a read-only region; it wears its block (R459). -/
def atticWrite (r b : Nat) (s : State) : Bool × State :=
  if atticRO s r then (false, s)
  else match wearStep r b s with
    | (s, none) => (true, s)
    | (s, some code) => (true, event code [b, r] s)

/-- Blocks of region 3 (log entry 13): counters, enrolment, signers, standing blobs, gate floors, receive epochs, life-cycle state. -/
def blkCounters : Nat := 7424
def blkEnrol : Nat := 7425
def blkSigners : Nat := 7426
def blkFloors : Nat := 7427
def blkEpochs : Nat := 7428
def blkLife : Nat := 7429
def blkStanding (i : Nat) : Nat := 7440 + i / 32

def counterOf (s : State) (n : Nat) : Nat := tget nat0 s.attic.counters n

/-- Raises a monotonic counter by one (R458); false when it is saturated or its region is read-only. -/
def counterUp (n : Nat) (s : State) : Bool × State :=
  if 2 ^ 32 - 1 ≤ counterOf s n then (false, event Ev.ATTIC_COUNTER_END [n] s)
  else
    let (ok, s) := atticWrite 3 blkCounters s
    if ok then (true, { s with attic := { s.attic with counters := tput nat0 s.attic.counters n (counterOf s n + 1) } }) else (false, s)

end Sys2Proof.Machine
end

