-- ==== Sys2Proof/Machine/Memory.lean ====
section
/-! DEFINITION. Buffer memory (chapter 10): regions, keys, checks, the partial-write path, coalescing, poison, scrubbing and re-key walks. -/
namespace Sys2Proof.Machine

/-! Regions (Table 10.1) -/

/-- Where each region begins, and where the last one ends. -/
def regionBase : List Nat := [0, 0x11000000, 0x19000000, 0x1D000000, 0x25000000, 0x35000000, 0x45000000, 0x800000000]

/-- The region of a byte address; 7 outside the 32 GiB. -/
def regionOf (a : Nat) : Nat :=
  if a < 0x11000000 then 0 else if a < 0x19000000 then 1 else if a < 0x1D000000 then 2 else if a < 0x25000000 then 3
  else if a < 0x35000000 then 4 else if a < 0x45000000 then 5 else if a < 0x800000000 then 6 else 7

/-- The region of a sector. -/
def regionOfCell (n : Nat) : Nat := regionOf (256 * n)
/-- The memory-cipher unit that serves a sector, and its stack (R278). -/
def unitOf (n : Nat) : Nat := n % 32
def stackOf (n : Nat) : Nat := unitOf n / 16

def recordAt (a : Nat) : Nat := 256 * a
def mapWordAt (a : Nat) : Nat := 0x10000000 + 16 * a
def blobAt (h : Nat) : Nat := 0x11000000 + 128 * h
def gateAt (k : Nat) : Nat := 0x25000000 + 16384 * k

/-- The canonical form of the bytes of regions 1 and 5: addresses strictly rising, no entry equal to what an unlisted address reads as, which is 0 (R293). -/
def Memory.wf (m : List Host.Cell) : Bool := Table.wf byte0 m

/-! Memory keys (R281 to R283) -/

/-- A deep slot's key: share xor mask (R111). -/
def deepKey (s : State) (d : Nat) : BitVec 512 := (tget deep0 s.vault.deep d).share ^^^ (tget deep0 s.vault.deep d).mask

/-- Attribute bits of a deep slot (Table 04.4). -/
def dBit (s : State) (d i : Nat) : Bool := nbit (tget deep0 s.vault.deep d).w.toNat i

/-- A deep slot's key as bytes: 32, or 64 where LEN is 1. -/
def deepBytes (s : State) (d : Nat) : Bytes := (natBe 64 (deepKey s d).toNat).take (if dBit s d 4 then 64 else 32)
/-- The 256 bits a deep slot gives to key wrap, derivation and AEAD. -/
def deep256 (s : State) (d : Nat) : Bytes := (deepBytes s d).take 32

/-- Memory key i: the random value of its last change, or its derivation from deep slot 4 under BD3208 MEM (R110, R283). -/
def memKey (s : State) (i : Nat) : BitVec 512 :=
  if tget memKey0 s.vault.memKeys i = 0 then BitVec.ofNat 512 (beNat (kdf (deep256 s 4) (ascii "BD3208 MEM") (natBe 1 i) 512))
  else tget memKey0 s.vault.memKeys i

def kgenOf (s : State) (i : Nat) : Nat := s.fld (Reg.MEM_KEY_STATUS i) Fd.MEM_KEY_STATUS_KGEN
/-- The key index a write to a region takes: MEM_REGION for regions 0 to 5, the queue's MKEY for region 6. -/
def regionKey (s : State) (r : Nat) : Nat := if s.mem.noKey then 0xFF - r else s.fld (Reg.MEM_REGION r) Fd.MEM_REGION_MKEY

/-- Are memory keys of an index present (R289, R445). -/
def keyPresent (s : State) (i : Nat) : Bool := !s.mem.noKey || (s.mode == 4 && i == 0xFA)

/-- MEM_KEY_CHANGE of a key runs: the previous key is still held (R283). -/
def rekeying (s : State) (i : Nat) : Bool := s.flag (Reg.MEM_KEY_STATUS i) Fd.MEM_KEY_STATUS_CHANGING

/-- Key i at generation g, where the part holds it: the current one, or the previous one while its change runs (R282, R283). -/
def memKeyAt (s : State) (i g : Nat) : Option (BitVec 512) :=
  if !keyPresent s i then none
  else if g = kgenOf s i then some (memKey s i)
  else if rekeying s i && g == (kgenOf s i + 255) % 256 then some (tget memKey0 s.vault.prevKeys i)
  else none

/-- The key that a stored sector or frame names is held. -/
def keyHeld (s : State) (i g : Nat) : Bool := (memKeyAt s i g).isSome

/-! Sectors -/

/-- A sector's side-band. One not written since the zeroing of R293 carries its region's reset key, with the generation its last walk gave it. -/
def sectorAt (s : State) (n : Nat) : Sector :=
  match tget none0 s.mem.side n with
  | some x => x
  | none =>
    let r := regionOfCell n
    if r = 0 ∨ r = 1 ∨ r = 5 then ⟨0xFF - r, tget nat0 s.mem.walked (0xFF - r), false, true⟩ else ⟨0, 0, false, false⟩

def setSector (n : Nat) (x : Sector) (s : State) : State :=
  { s with mem := { s.mem with side := tput none0 s.mem.side n (some x) } }

/-- Bytes of regions 1 and 5 as they read in clear. -/
def memBytes (s : State) (a len : Nat) : Bytes := (List.range len).map (fun i => tget byte0 s.mem.bytes (a + i))

def putBytes : Nat → Bytes → List Host.Cell → List Host.Cell
  | _, [], m => m
  | a, b :: t, m => putBytes (a + 1) t (tput byte0 m a b)

def memPut (a : Nat) (b : Bytes) (s : State) : State := { s with mem := { s.mem with bytes := putBytes a b s.mem.bytes } }

/-- The ciphertext of a sector's 256 bytes under XTS-AES-256: K1 is the high half of the key, the tweak is the cell number, least significant byte first (R279). -/
def sectorCipher (key : BitVec 512) (n : Nat) (plain : Bytes) : Bytes :=
  xtsEnc (natBe 32 (key.toNat / 2 ^ 256)) (natBe 32 (key.toNat % 2 ^ 256)) (natLe 16 n) plain

/-- The check word of a stored sector (R281). -/
def checkWord (kchk : BitVec 256) (n : Nat) (c : Bytes) (mkey kgen : Nat) : Bytes :=
  let k := natBe 32 kchk.toNat
  let h := beNat (aesEnc k (zeros 16))
  (aesEnc k (natBe 16 (ghash h 0 (blocks16 (c ++ natBe 8 n ++ [BitVec.ofNat 8 mkey, BitVec.ofNat 8 kgen] ++ zeros 6))))).take 8

/-- What the stacks hold for a sector whose 256 bytes in clear are these: its ciphertext under the key its side-band names (R279). -/
def storedBytes (s : State) (n : Nat) (plain : Bytes) : Bytes :=
  match memKeyAt s (sectorAt s n).mkey (sectorAt s n).kgen with
  | some k => sectorCipher k n plain
  | none => []

/-- The side-band bytes 0 to 15 of a stored sector (Table 10.2); the ECC bytes are the stack's. -/
def sideBand (s : State) (n : Nat) (c : Bytes) : Bytes :=
  let x := sectorAt s n
  checkWord s.vault.checkKey n c x.mkey x.kgen ++
    [BitVec.ofNat 8 x.mkey, BitVec.ofNat 8 x.kgen, BitVec.ofNat 8 (b2n x.poison + 2 * b2n x.written)] ++ zeros 5

/-! Check failures (R287 to R289) -/

/-- A landing cell's token becomes POISON at a check failure (Table 15.5). -/
def poisonToken (n : Nat) (s : State) : State :=
  if regionOfCell n = 5 then setToken ((256 * n - 0x35000000) / 4096) 2 s else s

/-- The buffer manager withholds a poisoned sector of its regions from its free list (R288). -/
def withhold (n : Nat) (s : State) : State :=
  let r := regionOfCell n
  if (r = 2 ∨ r = 3 ∨ r = 4 ∨ r = 6) ∧ !s.mem.withheld.contains n then
    bump Reg.MEM_CNT_WITHHELD 1 { s with mem := { s.mem with withheld := s.mem.withheld ++ [n] } }
  else s

/-- A check failure on a sector (R287). -/
def checkFail (n : Nat) (s : State) : State :=
  let s := setSector n { sectorAt s n with poison := true } s
  let s := bump Reg.MEM_CNT_CHECK_FAIL 1 (s.setFld Reg.MEM_POISON_LAST Fd.MEM_POISON_LAST_CELL n)
  trigger 0x0F [n] (withhold n (poisonToken n s))

/-- Reads a sector: good or not, and what a failure leads to. A poisoned sector and an erased key end the access without a check. -/
def readSector (n : Nat) (ecc : Ecc) (s : State) : Bool × State :=
  if !keyHeld s (sectorAt s n).mkey (sectorAt s n).kgen then (false, bump Reg.MEM_CNT_NO_KEY 1 s)
  else if (sectorAt s n).poison then (false, s)
  else match ecc with
    | .bad => (false, checkFail n s)
    | _ => (true, s)

/-- Reads sectors in turn until one fails; the outcome `ecc` is that of sector number k of the list. -/
def readSectors : List Nat → Nat → Ecc → State → Bool × State
  | [], _, _, s => (true, s)
  | n :: t, k, ecc, s =>
    let (ok, s) := readSector n (if k = 0 then ecc else .good) s
    if ok then readSectors t (k - 1) (if k = 0 then .good else ecc) s else (false, s)

/-- A read of several sectors. Which of them is the one that fails its check is a free value (log entry 6). -/
def readCells (l : List Nat) (ecc : Ecc) (s : State) : Bool × State :=
  if ecc = .bad then readSectors l ((Config.free s.draws).toNat % max 1 l.length) .bad s.drew else readSectors l 0 .good s

/-- Sector numbers that a byte range touches. -/
def cellsOf (a len : Nat) : List Nat := (List.range (ceilDiv (a % 256 + len) 256)).map (a / 256 + ·)

/-- A byte range reads good where no bit error is met: every key is held and no sector is poisoned. -/
def readable (s : State) (a len : Nat) : Bool :=
  (cellsOf a len).all (fun n => keyHeld s (sectorAt s n).mkey (sectorAt s n).kgen && !(sectorAt s n).poison)

/-! Stored frames (R278, R282): each takes whole sectors of its region -/

/-- Sectors that stored frames occupy: parked items, held tubs, frames of the queues and of the egresses. -/
def usedCells (s : State) : List Nat :=
  s.gal.parked.flatMap (fun it => it.cells) ++ s.lfr.rxTribs.flatMap (fun e => e.2.holds.flatMap (fun u => u.cells)) ++
  s.wnd.queues.flatMap (fun e => e.2.frames.flatMap (fun f => f.cells)) ++
  s.wnd.egress.flatMap (fun e => match e.2.busy with | some f => f.cells | none => [])

/-- Sectors of a region. -/
def regionSectors (r : Nat) : Nat := (regionBase.getD (r + 1) 0 - regionBase.getD r 0) / 256

/-- Sectors of a region that are withheld and hold no frame (R288). -/
def withheldIn (s : State) (r : Nat) : Nat := (s.mem.withheld.filter (fun n => regionOfCell n == r && !(usedCells s).contains n)).length

/-- k sectors that the buffer manager allocates in a region, none in use and none withheld. Which ones is its choice (Table 10.1, "Allocated by sector"; a free value, log entry 6). -/
def pickCells (r k : Nat) (s : State) : List Nat :=
  let size := regionSectors r
  let taken := usedCells s ++ s.mem.withheld
  let first := (Config.free s.draws).toNat % size
  (((List.range (min (k + taken.length) size)).map (fun i => regionBase.getD r 0 / 256 + (first + i) % size)).filter (fun n => !taken.contains n)).take k

/-- Whole sectors written under key i: WRITTEN set, POISON cleared (R284, R288). -/
def storeCells (l : List Nat) (i : Nat) (s : State) : State := l.foldl (fun s n => setSector n ⟨i, kgenOf s i, false, true⟩ s) s

/-! Writes (R284, R285) -/

/-- A full-sector write: the current key of its region, POISON cleared, any open entry discarded (R284, R288, Table 10.4). -/
def fullWrite (n : Nat) (s : State) : State :=
  let i := regionKey s (regionOfCell n)
  setSector n ⟨i, kgenOf s i, false, true⟩ { s with mem := { s.mem with opens := s.mem.opens.filter (fun o => o.cell != n) } }

/-- An open sector is written back: a sector not complete is read first, and a failed read abandons the merge (R284). -/
def writeBack (o : OpenSec) (ecc : Ecc) (s : State) : State :=
  let s := { s with mem := { s.mem with opens := s.mem.opens.erase o } }
  if 256 ≤ o.offs.length ∨ !(sectorAt s o.cell).written then fullWrite o.cell s
  else
    let (ok, s) := readSector o.cell ecc (bump Reg.MEM_CNT_PARTIAL 1 s)
    if ok then fullWrite o.cell s else s

/-- Room for one more open sector in a unit: its oldest is written back when 64 are open. -/
def makeRoom (n : Nat) (ecc : Ecc) (s : State) : State :=
  let mine := s.mem.opens.filter (fun o => unitOf o.cell == unitOf n)
  if mine.length < 64 then s
  else match mine with
    | o :: _ => writeBack o ecc s
    | [] => s

/-- Offsets first to first + len - 1, those not listed yet put behind. -/
def addOffs (offs : List Nat) (first len : Nat) : List Nat :=
  offs ++ ((List.range len).map (first + ·)).filter (fun i => !offs.contains i)

/-- Part of a sector is written: it merges into an open sector or opens one; a completed sector is written at once (R285). -/
def touch (n off len : Nat) (ecc : Ecc) (s : State) : State :=
  match s.mem.opens.find? (fun o => o.cell == n) with
  | some o =>
    let o' := { o with offs := addOffs o.offs off len }
    let s := bump Reg.MEM_CNT_COALESCED 1 { s with mem := { s.mem with opens := s.mem.opens.map (fun x => if x = o then o' else x) } }
    if 256 ≤ o'.offs.length then writeBack o' .good s else s
  | none =>
    let s := makeRoom n ecc s
    { s with mem := { s.mem with opens := s.mem.opens ++ [⟨n, addOffs [] off len, s.time.up⟩] } }

/-- A write to one sector may go on: a whole sector needs its region's key, a part of one needs the sector's own key and a sector not poisoned (R284, R288, R289). -/
def mayWrite (n len : Nat) (s : State) : Bool × State :=
  let i := if 256 ≤ len then regionKey s (regionOfCell n) else (sectorAt s n).mkey
  let g := if 256 ≤ len then kgenOf s i else (sectorAt s n).kgen
  if !keyHeld s i g then (false, bump Reg.MEM_CNT_NO_KEY 1 s)
  else (decide (256 ≤ len) || !(sectorAt s n).poison, s)

/-- A write of part or all of one sector. -/
def touchCell (n off len : Nat) (ecc : Ecc) (s : State) : State := if 256 ≤ len then fullWrite n s else touch n off len ecc s

/-- Writes one sector's part of a byte range of regions 1 and 5. -/
def writeCell (a : Nat) (b : Bytes) (ecc : Ecc) (s : State) : Bool × State :=
  let (ok, s) := mayWrite (a / 256) b.length s
  if ok then (true, touchCell (a / 256) (a % 256) b.length ecc (memPut a b s)) else (false, s)

/-- Writes a byte range sector by sector; the first sector that cannot be written ends it. `fuel` bounds the sectors. -/
def writeRange : Nat → Nat → Bytes → Ecc → State → Bool × State
  | 0, _, _, _, s => (true, s)
  | fuel + 1, a, b, ecc, s =>
    if b = [] then (true, s)
    else
      let k := 256 - a % 256
      let (ok, s) := writeCell a (b.take k) ecc s
      if ok then writeRange fuel (a + k) (b.drop k) ecc s else (false, s)

def memWrite (a : Nat) (b : Bytes) (ecc : Ecc) (s : State) : Bool × State := writeRange (b.length / 256 + 2) a b ecc s

/-- Whole sectors of zeros over a byte range (R288, R293). -/
def zeroSectors (a len : Nat) (s : State) : State :=
  let s := (cellsOf a len).foldl (fun s n => fullWrite n s) s
  { s with mem := { s.mem with bytes := zeroRange (a / 256 * 256) (ceilDiv (a + len) 256 * 256) s.mem.bytes } }

/-! Landing cells as the part reads and writes them (R394) -/

/-- Bytes of landing cells from a first cell. -/
def cellBytes (s : State) (cell len : Nat) : Bytes := memBytes s (landingAt cell) len
def cellReadable (s : State) (cell len : Nat) : Bool := readable s (landingAt cell) len

/-- The part writes bytes into landing cells from a first cell. -/
def cellWrite (cell : Nat) (b : Bytes) (s : State) : Bool × State := memWrite (landingAt cell) b .good s

/-! Commands -/

/-- The patrol scrub reads a sector (R291): an erased key is counted, a poisoned sector is left alone, a corrected one is rewritten and counted, a bad one is a check failure. -/
def patrol (n : Nat) (ecc : Ecc) (s : State) : State :=
  let (ok, s) := readSector n ecc (bump Reg.MEM_CNT_SCRUBBED 1 s)
  if ok && ecc == .corrected then event Ev.MEM_ECC_CORRECTED [n] (bump Reg.MEM_CNT_ECC_CORR 1 s) else s

/-- PATROL_SCRUB (R291): one written sector is read. -/
def execPatrolScrub (cell : Nat) (ecc : Ecc) (s : State) : Ans :=
  .next (onlyIf (s.live && decide (cell < 2 ^ 27) && (sectorAt s cell).written) (patrol cell ecc) s)

/-- MEM_CFG.COALESCE has passed since a sector's first write (R285). -/
def coalesced (s : State) (o : OpenSec) : Bool := decide (o.at_ + 10 * s.fld Reg.MEM_CFG Fd.MEM_CFG_COALESCE ≤ s.time.up)

/-- COALESCE_WRITEBACK (R285): an open sector whose coalescing time is over is written back. -/
def execCoalesceWriteback (cell : Nat) (ecc : Ecc) (s : State) : Ans :=
  match s.mem.opens.find? (fun o => o.cell == cell) with
  | some o => .next (onlyIf (s.live && coalesced s o) (writeBack o ecc) s)
  | none => .next s

/-- HBM_FAULT (R290): an interface fault of a stack. The access to the sector it hits is a check failure, and monitor 0x10 fires; an access that waits for that sector ends as Table 10.3 states. -/
def execHbmFault (stack : Fin 2) (cell : Fin 134217728) (s : State) : Ans :=
  .next (onlyIf (s.live && stackOf cell.val == stack.val) (fun s => trigger 0x10 [cell.val] (checkFail cell.val s)) s)

/-- HBM_HOT_REFRESH (R290): above 85 °C a stack's refresh rate is doubled. -/
def execHbmHotRefresh (stack : Fin 2) (hot : Bool) (s : State) : Ans :=
  .next (onlyIf s.live (fun s => { s with mem := { s.mem with hot := setNbit s.mem.hot stack.val hot } }) s)

/-- A key is used in a region: it is the region's key, some sector of the region stands under it, or, in the queue region, a queue writes under it. -/
def keyUsed (s : State) (r i : Nat) : Bool :=
  (if r = 6 then (List.range 1024).any (fun q => s.fld (Reg.Q_LIMITS q) Fd.Q_LIMITS_MKEY == i) else regionKey s r == i) ||
  ((r == 0 || r == 1 || r == 5) && i == 0xFF - r) ||
  s.mem.side.any (fun e => regionOfCell e.1 == r && (match e.2 with | some x => x.written && x.mkey == i | none => false))

/-- A MEM_KEY_CHANGE of a key used in the region pauses a scrub (R292). -/
def scrubPaused (s : State) (r : Nat) : Bool := (changingKeys s).any (keyUsed s r)

/-- A poisoned sector returns to use: zeros written and read back good (R288). -/
def scrubReturn (bad : List Nat) (s : State) (n : Nat) : State :=
  if bad.contains n then s
  else
    let s := zeroSectors (256 * n) 256 s
    { s with mem := { s.mem with withheld := s.mem.withheld.erase n } }

/-- The end of a MEM_SCRUB: the sectors found bad fail, poisoned sectors of regions 1, 2, 3, 4 and 6 return to use. -/
def scrubEnd (c : Scrub) (bad : List Nat) (s : State) : State :=
  let base := regionBase.getD c.region 0 / 256 + c.first
  let inside := fun n => decide (base ≤ n) && decide (n < base + c.count)
  let old := (s.mem.side.filter (fun e => inside e.1 && (match e.2 with | some x => x.poison | none => false))).map (·.1)
  let new := bad.filter (fun n => inside n && !old.contains n && (sectorAt s n).written)
  let s := new.foldl (fun s n => checkFail n s) s
  let s := if c.region = 0 ∨ c.region = 5 then s else old.foldl (scrubReturn bad) s
  let s := bump Reg.MEM_CNT_SCRUBBED c.count { s with mem := { s.mem with scrubs := s.mem.scrubs.erase c } }
  let s := dropClaims (fun k => k.res == .region c.region && k.code == 0x606) s
  event Ev.SCRUB_DONE [c.region, c.count, old.length + new.length]
    (finishWait c.req 0 [(16, BitVec.ofNat 64 c.count), (17, BitVec.ofNat 64 (old.length + new.length))] s)

/-- SCRUB_DONE (R292): the scrub of a region ends with the sectors it found bad. -/
def execScrubDone (region : Fin 7) (bad : List Nat) (s : State) : Ans :=
  match s.mem.scrubs.find? (fun c => c.region == region.val) with
  | some c => .next (onlyIf (s.live && !scrubPaused s region.val) (scrubEnd c bad) s)
  | none => .next s

/-- A stored frame still stands under a generation of a key: in a queue, on its way out of an egress, in the park, in the merge hold or in a gate entry. -/
def liveUnder (s : State) (i g : Nat) : Bool :=
  let under := fun (f : QFrame) => f.hbm && f.mkey == i && f.kgen == g
  s.wnd.queues.any (fun e => e.2.frames.any under) ||
  s.wnd.egress.any (fun e => match e.2.busy with | some f => under f | none => false) ||
  s.gal.parked.any (fun it => it.mkey == i && it.kgen == g) ||
  s.lfr.rxTribs.any (fun e => e.2.holds.any (fun u => u.mkey == i && u.kgen == g)) ||
  s.gate.entries.any (fun e => match e.2 with | some x => under x.frame | none => false)

/-- The regions a re-key walk rewrites (R283). -/
def walkRegion (r : Nat) : Bool := r == 0 || r == 1 || r == 5

/-- A listed sector that a walk from generation g of key i rewrites: written under it and not poisoned (log entry 137). -/
def walkTakes (i g : Nat) (n : Nat) (x : Sector) : Bool := walkRegion (regionOfCell n) && x.mkey == i && x.kgen == g && x.written && !x.poison

/-- Sectors that a walk has to rewrite. -/
def walkCount (s : State) (i g : Nat) : Nat :=
  let listed := (s.mem.side.filter (fun e => match e.2 with | some x => walkTakes i g e.1 x | none => false)).length
  let r := 0xFF - i
  if walkRegion r && tget nat0 s.mem.walked i == g then listed + regionSectors r - (s.mem.side.filter (fun e => regionOfCell e.1 == r)).length else listed

/-- The time a walk takes at MEM_CFG.REKEY_RATE, units of 8 GB/s (R283). -/
def walkNs (s : State) (i g : Nat) : Nat := ceilDiv (256 * walkCount s i g) (8 * max 1 (s.fld Reg.MEM_CFG Fd.MEM_CFG_REKEY_RATE))

/-- The walks that run, as MEM_STATUS shows them: the index is that of the walk begun last. -/
def showWalks (s : State) : State :=
  match s.mem.walks.getLast? with
  | some w => (s.setFld Reg.MEM_STATUS Fd.MEM_STATUS_REKEY_ACTIVE 1).setFld Reg.MEM_STATUS Fd.MEM_STATUS_REKEY_INDEX w.1
  | none => s.setFld Reg.MEM_STATUS Fd.MEM_STATUS_REKEY_ACTIVE 0

/-- A walk ends: every sector of regions 0, 1 and 5 that stood under the previous generation now stands under the new one. -/
def walkEnd (i : Nat) (s : State) : State :=
  let g := kgenOf s i
  let old := (g + 255) % 256
  let step := fun (n : Nat) (x : Option Sector) => x.map (fun x => if walkTakes i old n x then { x with kgen := g } else x)
  showWalks { s with mem := { s.mem with
    side := tmap none0 step s.mem.side, walked := tput nat0 s.mem.walked i g, walks := s.mem.walks.filter (fun w => w.1 != i) } }

/-- The walks whose time is over end. -/
def endWalks (s : State) : State := (s.mem.walks.filter (fun w => decide (w.2 ≤ s.time.up))).foldl (fun s w => walkEnd w.1 s) s

/-- The end of a MEM_KEY_CHANGE: the previous key goes and the order commits (R283). -/
def memKeyEnd (i : Nat) (s : State) : State :=
  let s := { s with vault := { s.vault with prevKeys := tdel s.vault.prevKeys i } }
  let s := s.setFld (Reg.MEM_KEY_STATUS i) Fd.MEM_KEY_STATUS_CHANGING 0
  let s := dropClaims (fun k => k.res == .memKey i) s
  let s := match s.fore.waits.find? (fun o => o.code == 0x605 && o.args.getD 0 0 == BitVec.ofNat 64 i) with
    | some o => finishWait o 0 [] s
    | none => s
  event Ev.MEM_KEY_CHANGED [i] s

/-- MEM_KEY_CHANGED (R283): the walk has ended and no live sector carries the previous generation. -/
def execMemKeyChanged (index : Fin 256) (s : State) : Ans :=
  .next (onlyIf (s.live && rekeying s index.val && s.mem.walks.all (fun w => w.1 != index.val)
      && !liveUnder s index.val ((kgenOf s index.val + 255) % 256)) (memKeyEnd index.val) s)

end Sys2Proof.Machine
end

