-- ==== Sys2Proof/Machine/Rings.lean ====
section
/-! DEFINITION. The rings of the user pages as the part writes them (R396 to R399), drop notifications (R274) and the counting of drops (R273). -/
namespace Sys2Proof.Machine

/-! Landing ranges and tokens (R392 to R394) -/

/-- A cell is the function's and handed over. -/
def cellReady (s : State) (fn c : Nat) : Bool := ownsCell s fn c && tokenOf s c == 1

/-- The cells that `bytes` bytes take from a first cell are the function's and handed over. -/
def cellsReady (s : State) (fn first bytes : Nat) : Bool := (cellsFrom first (max bytes 1)).all (cellReady s fn)

/-! Requests of the host (R406, R411) -/

/-- Some selective stream is Secure. -/
def anySecure (s : State) : Bool := s.host.ide.any (fun e => e.2.secure)

/-- A request passes HST_IDE_CFG.REQUIRE: it came on a selective stream in the Secure state, or none is required. -/
def ideOk (s : State) (ide : Bool) : Bool := !s.flag Reg.HST_IDE_CFG Fd.HST_IDE_CFG_REQUIRE || (ide && anySecure s)

/-- A violation by an internal master (R411). -/
def violation (master target index : Nat) (s : State) : State := event Ev.ACCESS_VIOLATION [master, target, index] s

/-- A violation by a PCI Express request: counted, signalled, recorded (R411). -/
def hostViolation (fn target off : Nat) (s : State) : State := irq fn 5 (violation fn target off (bump Reg.HST_CNT_ACCESS_VIOL 1 s))

/-- A doorbell, GO or unmasking at an offset of a user page: it comes on a Secure stream where one is (log entry 141); where REQUIRE finds none it is a violation. -/
def pageRequest (fn off : Nat) (f : State → State) (s : State) : State := if ideOk s true then f s else hostViolation fn 0x30 off s

/-! Receive ring (R399) -/

/-- The n-th posted free cell of a function. -/
def freeCellAt (s : State) (fn n : Nat) : Nat :=
  let i := (s.pgFld fn pgRxf RF.RXF_HEAD + n) % 1024
  nbits (s.pg fn (0x4000 + 8 * (i / 4))).toNat (16 * (i % 4)) 16

def freePosted (s : State) (fn : Nat) : Nat := (s.pgFld fn pgRxf RF.RXF_TAIL + 1024 - s.pgFld fn pgRxf RF.RXF_HEAD) % 1024

/-- Writes the bytes of a received item into its cells, 4,096 bytes each. -/
def writeCells : List Nat → Bytes → State → Bool × State
  | [], _, s => (true, s)
  | c :: t, b, s =>
    let (ok, s) := cellWrite c (b.take 4096) s
    if ok then writeCells t (b.drop 4096) s else (false, s)

/-- What a receive entry says of its item (Table 15.8). -/
structure RxInfo where
  type : Nat
  port : Nat
  reason : Nat
  assoc : Option Nat
  queue : Option Nat
  dom : Nat
  ts : Nat
  deriving DecidableEq, Repr

/-- A receive entry may be written: ring enabled and not full, cells posted and ready. -/
def rxReady (s : State) (fn need : Nat) : Bool :=
  s.pgFld fn pgRx RF.RX_EN == 1 && (s.pgFld fn pgRx RF.RX_TAIL + 1) % 128 != s.pgFld fn pgRx RF.RX_HEAD &&
  decide (need ≤ 4) && decide (need ≤ freePosted s fn) && (List.range need).all (fun i => cellReady s fn (freeCellAt s fn i))

def writeRx (fn : Nat) (x : RxInfo) (cells : List Nat) (len : Nat) (s : State) : State :=
  let t := s.pgFld fn pgRx RF.RX_TAIL
  let base := 0x3000 + 32 * t
  let w1 := cells.getD 0 0 + cells.getD 1 0 * 2 ^ 16 + cells.getD 2 0 * 2 ^ 32 + cells.getD 3 0 * 2 ^ 48
  let w2 := (match x.assoc with | some a => a + 2 ^ 20 | none => 0) + (match x.queue with | some q => q * 2 ^ 21 + 2 ^ 31 | none => 0) + x.dom * 2 ^ 32
  let s := cells.foldl (fun s c => setToken c 0 s) s
  let s := s.setPgFld fn pgRxf RF.RXF_HEAD (s.pgFld fn pgRxf RF.RXF_HEAD + cells.length)
  let s := s.setPg fn (base + 8) (BitVec.ofNat 64 w1)
  let s := s.setPg fn (base + 16) (BitVec.ofNat 64 w2)
  let s := s.setPg fn (base + 24) (BitVec.ofNat 64 x.ts)
  let s := s.setPg fn base (BitVec.ofNat 64 (x.type + 4 * phaseBit s fn 1 + x.port % 64 * 2 ^ 8 + len * 2 ^ 16 + x.reason * 2 ^ 32))
  irq fn 1 (advanceTail fn 1 pgRx RF.RX_TAIL 128 s)

/-- Puts an item on a function's receive ring; false when it is dropped and counted in HST_CNT_RX_DROP. -/
def pushRx (fn : Nat) (x : RxInfo) (data : Bytes) (s : State) : Bool × State :=
  let need := max 1 (ceilDiv data.length 4096)
  if rxReady s fn need then
    let cells := (List.range need).map (freeCellAt s fn)
    let (ok, s) := writeCells cells data s
    if ok then (true, writeRx fn x cells data.length s) else (false, bumpPg fn pgRxDrop 1 s)
  else (false, bumpPg fn pgRxDrop 1 s)

/-! Drops (R273, R274) -/

/-- A drop: where it entered, its reason, the queue chosen, its association, the bytes its notification may hold. -/
structure Drop where
  port : Nat
  reason : Nat
  queue : Option Nat
  assoc : Option Nat
  dom : Nat
  ts : Nat
  data : Bytes
  deriving DecidableEq, Repr

/-- The record of Table 09.8. -/
def noteBytes (d : Drop) (now : Nat) : Bytes :=
  natBe 1 (d.reason % 64) ++ natBe 1 (min d.port 63) ++ natBe 2 (match d.queue with | some q => q | none => 0x8000) ++
  natBe 4 (match d.assoc with | some a => a | none => 2 ^ 31) ++ natBe 8 now ++ slice d.data 0 128

/-- Tokens of the notification bucket now: the rate refills it, 64 at most; in 10^-9. -/
def noteTokens (s : State) : Nat :=
  min 64000000000 (s.wnd.dnTokens + s.fld Reg.WND_DN_CFG Fd.WND_DN_CFG_RATE * (s.time.up - s.wnd.dnLast))

/-- Posts a drop notification within the rate (R274). -/
def notify (d : Drop) (s : State) : State :=
  if s.flag Reg.WND_DN_CFG Fd.WND_DN_CFG_EN && nbit (s.fld Reg.WND_DN_CFG Fd.WND_DN_CFG_REASON_MASK) d.reason then
    let k := noteTokens s
    if k < 1000000000 then
      bump Reg.WND_CNT_DN_SUPPRESSED 1 { s with wnd := { s.wnd with dnTokens := k, dnLast := s.time.up } }
    else
      let s := { s with wnd := { s.wnd with dnTokens := k - 1000000000, dnLast := s.time.up } }
      let (ok, s) := pushRx (s.fld Reg.WND_DN_CFG Fd.WND_DN_CFG_FN) ⟨2, d.port, d.reason, d.assoc, d.queue, d.dom, d.ts⟩ (noteBytes d s.time.now) s
      if ok then bump Reg.WND_CNT_DN_SENT 1 s else s
  else s

/-- Counts a drop once against its port and, where a queue was chosen, its queue, and notifies it. -/
def dropped (d : Drop) (s : State) : State :=
  let s := portDrop d.port d.reason s
  let s := match d.queue with | some q => queueDrop q d.reason s | none => s
  notify d s

/-- The drop of a work item. -/
def itemDrop (it : Item) (reason : Nat) (s : State) : State :=
  dropped ⟨it.port, reason, if it.dom < 64 ∨ 96 ≤ it.dom then some it.queue else none, it.assoc, it.dom, it.ts,
    if it.rx = [] then it.data else it.rx⟩ s

/-- The drop of a frame that waited in a queue. -/
def frameDrop (q : Nat) (f : QFrame) (reason : Nat) (s : State) : State :=
  dropped ⟨f.port, reason, some q, f.assoc, 0, f.ts, if f.rx = [] then f.data else f.rx⟩ s

end Sys2Proof.Machine
end

