-- ==== Sys2Proof/Machine/Frame.lean ====
section
/-! DEFINITION. Frames as bytes: tags, EtherTypes and PTP messages (R36, R347), the preparser's flags (Table 06.3), the rule key (Table 08.2), port geometry (Table 11.1) and the receive MAC (Table 11.6). A frame is its bytes without FCS, from the destination address on. -/
namespace Sys2Proof.Machine

/-! Header fields -/

def b8 (b : Bytes) (off : Nat) : Nat := (b.getD off 0).toNat
def b16 (b : Bytes) (off : Nat) : Nat := be b off 2
  where be (b : Bytes) (off n : Nat) : Nat := beNat (slice b off n)

def da (b : Bytes) : Nat := beNat (slice b 0 6)
def sa (b : Bytes) : Nat := beNat (slice b 6 6)

/-- Enabled tag protocol identifiers of MSC_TPID; 0 disables an entry. -/
def tpids (s : State) : List Nat :=
  ((List.range 4).map (fun i => nbits (s.reg Reg.MSC_TPID).toNat (16 * i) 16)).filter (· != 0)

/-- A frame is at least 14 bytes: shorter ones have no tags and no EtherType. -/
def tagCount (s : State) (b : Bytes) : Nat :=
  if !(tpids s).contains (b16 b 12) then 0 else if !(tpids s).contains (b16 b 16) then 1 else 2

/-- Offset of the EtherType after the tags (at most two). -/
def l2Off (s : State) (b : Bytes) : Nat := 12 + 4 * tagCount s b
def etype (s : State) (b : Bytes) : Nat := b16 b (l2Off s b)
/-- A tag's 16 bits; 0 when absent. -/
def tagTci (s : State) (b : Bytes) (i : Nat) : Nat := if i < tagCount s b then b16 b (14 + 4 * i) else 0
def outerVid (s : State) (b : Bytes) : Nat := tagTci s b 0 % 4096
def outerPcp (s : State) (b : Bytes) : Nat := tagTci s b 0 / 8192
def outerDei (s : State) (b : Bytes) : Bool := nbit (tagTci s b 0) 12

/-! PTP (R347) -/

/-- Where a PTP message lies: its header, the UDP header and the IP version (0 over EtherType 0x88F7). -/
structure PtpAt where
  hdr : Nat
  udp : Nat
  ip : Nat
  deriving DecidableEq, Repr

/-- Follows Hop-by-Hop, Routing and Destination Options headers to the UDP header. -/
def v6Udp : Nat → Bytes → Nat → Nat → Option Nat
  | 0, _, _, _ => none
  | fuel + 1, b, nh, off =>
    if nh = 17 then some off
    else if nh = 0 ∨ nh = 43 ∨ nh = 60 then v6Udp fuel b (b8 b off) (off + 8 * (b8 b (off + 1) + 1))
    else none

/-- The PTP message of a frame, whose header up to correctionField lies in its first 192 bytes. Follow_Up is carried over UDP port 320 (log entry 32). -/
def ptpFind (s : State) (b : Bytes) : Option PtpAt :=
  let o := l2Off s b
  let check := fun (p : PtpAt) => if p.hdr + 16 ≤ 192 ∧ p.hdr + 34 ≤ b.length then some p else none
  let port := fun (u ip : Nat) => if b16 b (u + 2) = 319 ∨ b16 b (u + 2) = 320 then check ⟨u + 8, u, ip⟩ else none
  if etype s b = 0x88F7 then check ⟨o + 2, 0, 0⟩
  else if etype s b = 0x0800 then
    if b8 b (o + 2) / 16 = 4 ∧ b8 b (o + 11) = 17 then port (o + 2 + 4 * (b8 b (o + 2) % 16)) 4 else none
  else if etype s b = 0x86DD then
    match v6Udp 16 b (b8 b (o + 8)) (o + 42) with
    | some u => port u 6
    | none => none
  else none

def ptpType (b : Bytes) (p : PtpAt) : Nat := b8 b p.hdr % 16
/-- Sync, Delay_Req, Pdelay_Req and Pdelay_Resp are event messages. -/
def ptpEvent (s : State) (b : Bytes) : Option PtpAt :=
  match ptpFind s b with
  | some p => if ptpType b p < 4 ∧ (p.ip = 0 ∨ b16 b (p.udp + 2) = 319) then some p else none
  | none => none

/-! The preparser (R12, Table 06.3) -/

def fEapol : Nat := 0x001
def fClearOk : Nat := 0x002
def fPtp : Nat := 0x004
def fGate : Nat := 0x080
def fSectag : Nat := 0x100
def fPeerHit : Nat := 0x200
def fParked : Nat := 0x400
def hasFlag (flags f : Nat) : Bool := flags / f % 2 == 1

/-- The flags the preparser sets from the frame alone; a line port without MACsec looks for no SecTAG (R35). -/
def preFlags (s : State) (b : Bytes) (looks : Bool) : Nat :=
  b2n (etype s b == 0x888E) + 4 * b2n (ptpEvent s b).isSome + 8 * b2n (da b / 16 == 0x0180C200000) + 16 * b2n (decide (1 ≤ tagCount s b)) +
  32 * b2n (tagCount s b == 2) + 64 * b2n (etype s b == 0xF1C1) + 256 * b2n (looks && etype s b == 0x88E5)

/-! Rule key (Table 08.2) -/

/-- UDF bytes: 8 bytes from an offset of the 256-byte window; `b` is what the window holds (R176). -/
def udf (b : Bytes) (off : Nat) : Bytes := slice b off 8

/-- The 320-bit rule key. `b` is the window's view of the frame and `flags` d.flags, of which CLEAR_OK, GATE, PEER_HIT and PARKED are 0 in every match (R230). -/
def ruleKey (s : State) (port flags : Nat) (b : Bytes) : Nat :=
  beNat (natBe 1 (port % 64) ++ natBe 2 (flags % 2048 &&& 0x17D) ++ natBe 6 (da b) ++ natBe 6 (sa b) ++
    natBe 2 (tagTci s b 0) ++ natBe 2 (tagTci s b 1) ++ natBe 2 (etype s b) ++
    udf b (s.fld Reg.TBL_CFG Fd.TBL_CFG_UDF0_OFF) ++ udf b (s.fld Reg.TBL_CFG Fd.TBL_CFG_UDF1_OFF) ++ zeros 3)

/-! Ports and lane groups (R297, Table 11.1) -/

/-- Ports of a grouping code: first lane within the group and width. -/
def groupPorts : Nat → List (Nat × Nat)
  | 1 => [(0, 1), (1, 1), (2, 1), (3, 1), (4, 1), (5, 1), (6, 1), (7, 1)]
  | 2 => [(0, 2), (2, 2), (4, 2), (6, 2)]
  | 3 => [(0, 4), (4, 4)]
  | 4 => [(0, 8)]
  | 5 => [(0, 1), (1, 1), (2, 2), (4, 4)]
  | 6 => [(0, 4), (4, 2), (6, 2)]
  | _ => []

def grouping (s : State) (G : Nat) : Nat := s.fld (Reg.LAN_GRP_CFG G) Fd.LAN_GRP_CFG_GROUPING
def laneFast (s : State) (G : Nat) : Bool := s.flag (Reg.LAN_GRP_CFG G) Fd.LAN_GRP_CFG_RATE

/-- Width of the port with a d.port value, 0 where its group makes no such port. -/
def portWidth (s : State) (p : Nat) : Nat :=
  match (groupPorts (grouping s (p / 8))).find? (fun e => e.1 == p % 8) with
  | some e => e.2
  | none => 0

/-- MAC rate of a port in Mbit/s. -/
def portRate (s : State) (p : Nat) : Nat := portWidth s p * (if laneFast s (p / 8) then 200000 else 100000)

/-- The port a lane belongs to, if its group makes Ethernet ports. -/
def portOfLane (s : State) (l : Nat) : Option Nat :=
  match (groupPorts (grouping s (l / 8))).find? (fun e => decide (e.1 ≤ l % 8) && decide (l % 8 < e.1 + e.2)) with
  | some e => some (l / 8 * 8 + e.1)
  | none => none

def portUp (s : State) (p : Nat) : Bool := s.flag (Reg.MAC_PORT_STATUS p) Fd.MAC_PORT_STATUS_UP

/-! Bindings (R485) -/

/-- The Ethernet-mode line port a client port is bound to. -/
def boundLine (s : State) (p : Nat) : Option Nat :=
  if s.flag (Reg.TBL_PORT_CFG p) Fd.TBL_PORT_CFG_BIND_EN then some (s.fld (Reg.TBL_PORT_CFG p) Fd.TBL_PORT_CFG_BIND_LINE) else none

/-- The client port that names a line port. -/
def boundClient (s : State) (line : Nat) : Option Nat := (List.range 32).find? (fun p => boundLine s p == some line)

/-- Bytes that protection adds on a line port (R41). -/
def expansion (s : State) (line : Nat) : Nat := if s.flag (Reg.MSC_PORT_CFG line) Fd.MSC_PORT_CFG_INCL_SCI then 32 else 24

def maxLen (s : State) (p : Nat) : Nat := s.fld (Reg.MAC_PORT_CFG p) Fd.MAC_PORT_CFG_MAX_LEN

/-- EFF_MAX of a port, with FCS (R311, R41). -/
def effMax (s : State) (p : Nat) : Nat :=
  if p < 32 then
    match boundLine s p with
    | some l => min (maxLen s p) (maxLen s (32 + l) - expansion s l)
    | none => maxLen s p
  else maxLen s p

/-! The receive MAC (Table 11.6) -/

/-- Size bin of a length with FCS (R319). -/
def sizeBin (n : Nat) : Nat :=
  if n ≤ 64 then 0 else if n < 128 then 1 else if n < 256 then 2 else if n < 512 then 3 else if n < 1024 then 4
  else if n ≤ 1518 then 5 else if n < 2048 then 6 else if n < 4096 then 7 else if n ≤ 9216 then 8 else 9

/-- What the receive MAC makes of a frame. -/
inductive MacIn | forward | drop (reason : Nat) | pause | pfc | discard
  deriving DecidableEq, Repr

/-- An IEEE 802.3 control frame: EtherType 0x8808 directly after the source address. -/
def isControl (b : Bytes) : Bool := b16 b 12 == 0x8808

def macClass (s : State) (p : Nat) (b : Bytes) (chk : RxCheck) : MacIn :=
  let n := b.length + 4
  match chk with
  | .codeErr => .drop 0x0D
  | .badFcs => .drop 0x0D
  | .good =>
    if n < 64 ∨ effMax s p < n then .drop 0x0E
    else if isControl b then
      if 32 ≤ p then .discard else if b16 b 14 = 0x0001 then .pause else if b16 b 14 = 0x0101 then .pfc else .discard
    else .forward

/-- Counts a received frame in the port's MAC page. -/
def macCountRx (p : Nat) (b : Bytes) (chk : RxCheck) (s : State) : State :=
  let n := b.length + 4
  let size := fun s => if 64 ≤ n ∧ n ≤ effMax s p then bump (Reg.MAC_CNT_RX_SIZE p (sizeBin n)) 1 s else s
  match chk with
  | .codeErr => bump (Reg.MAC_CNT_RX_CODE_ERR p) 1 s
  | .badFcs =>
    if n < 64 then bump (Reg.MAC_CNT_RX_FRAGMENT p) 1 s
    else if effMax s p < n then bump (Reg.MAC_CNT_RX_JABBER p) 1 s
    else size (bump (Reg.MAC_CNT_RX_FCS_ERR p) 1 s)
  | .good =>
    if n < 64 then bump (Reg.MAC_CNT_RX_RUNT p) 1 s
    else if effMax s p < n then bump (Reg.MAC_CNT_RX_OVERSIZE p) 1 s
    else match macClass s p b chk with
      | .forward =>
        let s := bump (Reg.MAC_CNT_RX_OCTETS_OK p) n (bump (Reg.MAC_CNT_RX_FRAMES_OK p) 1 s)
        let s := if da b = 2 ^ 48 - 1 then bump (Reg.MAC_CNT_RX_BCAST p) 1 s
          else if nbit (b8 b 0) 0 then bump (Reg.MAC_CNT_RX_MCAST p) 1 s else bump (Reg.MAC_CNT_RX_UCAST p) 1 s
        size s
      | .discard => size (bump (Reg.MAC_CNT_RX_CTRL_DISCARD p) 1 s)
      | .pause => size (bump (Reg.MAC_CNT_RX_PAUSE p) 1 s)
      | .pfc => size ((List.range 8).foldl (fun s c => if nbit (b8 b 17) c then bump (Reg.MAC_CNT_RX_PFC p c) 1 s else s) s)
      | .drop _ => s

/-- What the egress MAC makes of a frame shorter than the IEEE 802.3 minimum of 60 bytes without FCS (R194, R311). -/
def padFrame (b : Bytes) : Bytes := b ++ zeros (60 - b.length)

/-- A whole frame sent on an Ethernet port, counted in its MAC page (without FCS; the MAC pads to 64). -/
def macCountTx (p : Nat) (b : Bytes) (s : State) : State :=
  let n := max 64 (b.length + 4)
  let s := bump (Reg.MAC_CNT_TX_OCTETS_OK p) n (bump (Reg.MAC_CNT_TX_FRAMES_OK p) 1 s)
  let s := if da b = 2 ^ 48 - 1 then bump (Reg.MAC_CNT_TX_BCAST p) 1 s
    else if nbit (b8 b 0) 0 then bump (Reg.MAC_CNT_TX_MCAST p) 1 s else bump (Reg.MAC_CNT_TX_UCAST p) 1 s
  bump (Reg.MAC_CNT_TX_SIZE p (sizeBin n)) 1 s

/-- The MAC of the crosscut (64) or of the shaft (65) counts a message that arrives while its port is up: n bytes without FCS, to this part's own address. -/
def arrived (before : State) (p n : Nat) (s : State) : State :=
  let len := max 64 (n + 4)
  if before.live && portUp before p then
    bump (Reg.MAC_CNT_RX_SIZE p (sizeBin len)) 1 (bump (Reg.MAC_CNT_RX_UCAST p) 1 (bump (Reg.MAC_CNT_RX_OCTETS_OK p) len (bump (Reg.MAC_CNT_RX_FRAMES_OK p) 1 s)))
  else s

/-- Sends a crosscut or shaft frame, counted as its MAC counts it. -/
def sendXc (kind : Nat) (b : Bytes) (s : State) : State := macCountTx 64 b (s.emit (.xc kind b))
def sendShaft (kind : Nat) (b : Bytes) (s : State) : State := macCountTx 65 b (s.emit (.shaft kind b))

end Sys2Proof.Machine
end

