-- ==== Sys2Proof/Machine/Queues.lean ====
section
/-! DEFINITION. The queues of the winder as frames reach them: tributary configuration (Table 03.13), PFC (R142, R270), admission (R252 to R254) and meters (R256). -/
namespace Sys2Proof.Machine

/-! Tributaries (R83, Tables 03.11 and 03.13); direction 0 transmits, 1 receives -/

def tribF (s : State) (dir t : Nat) (f : Fld) : Nat := s.fld (Reg.LFR_TRIB_CFG dir t) f
def tribOn (s : State) (dir t : Nat) : Bool := tribF s dir t Fd.LFR_TRIB_CFG_EN == 1
def tribTrunk (s : State) (dir t : Nat) : Nat := tribF s dir t Fd.LFR_TRIB_CFG_TRUNK
def tribClient (s : State) (dir t : Nat) : Nat := tribF s dir t Fd.LFR_TRIB_CFG_CLIENT
def tribAssoc (s : State) (dir t : Nat) : Nat := tribF s dir t Fd.LFR_TRIB_CFG_ASSOC
def tribMerge (s : State) (dir t : Nat) : Bool := tribF s dir t Fd.LFR_TRIB_CFG_MERGE == 1
def tribMate (s : State) (dir t : Nat) : Nat := tribF s dir t Fd.LFR_TRIB_CFG_MERGE_TRUNK
/-- Tub payload size P in bytes. -/
def tubSize (s : State) (dir t : Nat) : Nat := 2048 * 2 ^ tribF s dir t Fd.LFR_TRIB_CFG_TUB_SIZE
/-- The transmit tributaries a client port is bound to (R485). -/
def tribsOf (s : State) (dir p : Nat) : List Nat := (List.range 64).filter (fun t => tribOn s dir t && tribClient s dir t == p)
/-- A client port bound to tributaries. -/
def lineFramed (s : State) (p : Nat) : Bool := (List.range 64).any (fun t => (tribOn s 0 t && tribClient s 0 t == p) || (tribOn s 1 t && tribClient s 1 t == p))

/-! Queues (Table 09.1) -/

def queueOf (s : State) (q : Nat) : Queue := tget queue0 s.wnd.queues q
def setQueue (q : Nat) (x : Queue) (s : State) : State := { s with wnd := { s.wnd with queues := tput queue0 s.wnd.queues q x } }

/-- The egress of a queue: a d.port value, or 64 + t for transmit tributary t. -/
def egressOf (q : Nat) : Nat := if q < 256 then q / 8 else if q < 512 then 32 + (q - 256) / 8 else 64 + (q - 512) / 8
/-- The queue of a class on an egress. -/
def queueAt (e cls : Nat) : Nat := if e < 32 then 8 * e + cls else if e < 64 then 256 + 8 * (e - 32) + cls else 512 + 8 * (e - 64) + cls

/-- Bytes queued, without FCS (R252). -/
def depth (x : Queue) : Nat := (x.frames.map (fun f => f.data.length)).sum
def spilled (x : Queue) : Bool := x.frames.any (fun f => f.hbm)

/-- Bytes of the frames that a property holds of, over every queue. -/
def poolBytes (p : QFrame → Bool) (s : State) : Nat :=
  (s.wnd.queues.map (fun e => ((e.2.frames.filter p).map (fun f => f.data.length)).sum)).sum

def sramUsed (s : State) : Nat := poolBytes (fun f => !f.hbm && !f.resv) s
def rsvUsed (s : State) : Nat := poolBytes (fun f => f.resv) s
/-- Sectors of the HBM queue region in use. -/
def hbmCells (s : State) : Nat :=
  (s.wnd.queues.map (fun e => ((e.2.frames.filter (fun f => f.hbm)).map (fun f => ceilDiv f.data.length 256)).sum)).sum

/-- Sectors of the queue region: 31 GiB less its base, and less those withheld. -/
def hbmRoom (s : State) : Nat := regionSectors 6 - withheldIn s 6

/-! PFC (R142, R270) -/

/-- Client ports bound to an egress. -/
def clientsOf (s : State) (e : Nat) : List Nat :=
  if e < 32 then [] else if e < 64 then (boundClient s (e - 32)).toList else if tribOn s 0 (e - 64) then [tribClient s 0 (e - 64)] else []

def pfcField (s : State) (p : Nat) (f : Fld) : Nat := s.fld (Reg.WND_PFC_CFG p) f

/-- A queue asserts PFC toward a client port for a class. -/
def queueHolds (s : State) (p c : Nat) : Bool :=
  s.wnd.queues.any (fun e => decide (256 ≤ e.1) && e.1 % 8 == c && e.2.xoff && (clientsOf s (egressOf e.1)).contains p)

/-- The part holds priority c of client port p paused: by a queue or by the domain's backlog. -/
def priorityHeld (s : State) (p c : Nat) : Bool :=
  nbit (pfcField s p Fd.WND_PFC_CFG_TX_EN) c && (queueHolds s p c || s.gal.paused.contains p)

/-- Sends one PFC frame for one priority. -/
def sendPfc (p c quanta : Nat) (s : State) : State :=
  bump (Reg.MAC_CNT_TX_PFC p c) 1 ({ s with wnd := { s.wnd with pfcAt := tput nat0 s.wnd.pfcAt (8 * p + c) s.time.up } }.emit (.pfc p (2 ^ c) quanta))

/-- QUANTA / 2 of pause time has passed since the last PFC frame of a priority (R270). -/
def pfcDue (s : State) (p c : Nat) : Bool :=
  decide (tget nat0 s.wnd.pfcAt (8 * p + c) + ceilDiv (pfcField s p Fd.WND_PFC_CFG_QUANTA * 256000) (max 1 (portRate s p)) ≤ s.time.up)

/-- A cause arises: PFC with QUANTA for the enabled priorities. -/
def pfcOn (p : Nat) (cs : List Nat) (s : State) : State :=
  (cs.filter (nbit (pfcField s p Fd.WND_PFC_CFG_TX_EN))).foldl (fun s c => sendPfc p c (pfcField s p Fd.WND_PFC_CFG_QUANTA) s) s

/-- A cause has ended: quanta 0 for the enabled priorities that no other cause holds. -/
def pfcOff (p : Nat) (cs : List Nat) (s : State) : State :=
  (cs.filter (fun c => nbit (pfcField s p Fd.WND_PFC_CFG_TX_EN) c && !priorityHeld s p c)).foldl (fun s c => sendPfc p c 0 s) s

/-- A queue's occupancy has changed: XOFF crossed upward, or XON passed downward (R270; log entry 33 for the exact comparison). -/
def queuePfc (q : Nat) (s : State) : State :=
  let x := queueOf s q
  let d := depth x
  let kib := fun f => 1024 * s.fld (Reg.Q_FLOW q) f
  if !x.xoff ∧ 256 ≤ q ∧ s.flag (Reg.Q_FLOW q) Fd.Q_FLOW_PFC_EN ∧ kib Fd.Q_FLOW_XOFF < d then
    (clientsOf s (egressOf q)).foldl (fun s p => pfcOn p [q % 8] s) (setQueue q { x with xoff := true } s)
  else if x.xoff ∧ (d < kib Fd.Q_FLOW_XON ∨ !s.flag (Reg.Q_FLOW q) Fd.Q_FLOW_PFC_EN) then
    (clientsOf s (egressOf q)).foldl (fun s p => pfcOff p [q % 8] s) (setQueue q { x with xoff := false } s)
  else s

/-! Admission (R252 to R254) -/

/-- EAPOL and PTP event frames are reserved control (R253). -/
def isControlFlags (flags : Nat) : Bool := hasFlag flags fEapol || hasFlag flags fPtp

/-- A frame that reaches its queue: what it is, its colour, and whether the write to storage completes with a good check. -/
structure Arrival where
  frame : QFrame
  color : Nat
  reserved : Bool
  wrOk : Bool

/-- Puts a frame at a queue's tail. -/
def enqueue (q : Nat) (f : QFrame) (s : State) : State :=
  let x := queueOf s q
  queuePfc q (setQueue q { x with frames := x.frames ++ [{ f with at_ := s.time.now }], headAt := if x.frames = [] then s.time.up else x.headAt } s)

/-- A data frame's storage: SRAM while it has room and the queue holds no frame in HBM, else the HBM queue region under the queue's MKEY, else none. -/
def place (q : Nat) (f : QFrame) (s : State) : Option QFrame :=
  if !spilled (queueOf s q) && decide (sramUsed s + f.data.length ≤ 28 * 2 ^ 20) then some { f with hbm := false, resv := false }
  else if s.flag (Reg.Q_LIMITS q) Fd.Q_LIMITS_SPILL_EN && decide (hbmCells s + ceilDiv f.data.length 256 ≤ hbmRoom s) then
    let k := s.fld (Reg.Q_LIMITS q) Fd.Q_LIMITS_MKEY
    some { f with hbm := true, resv := false, mkey := k, kgen := kgenOf s k }
  else none

/-- A frame for the HBM queue region takes its sectors there, written whole under its key. -/
def spillFrame (f : QFrame) (s : State) : QFrame × State :=
  if f.hbm then
    let l := pickCells 6 (ceilDiv f.data.length 256) s
    ({ f with cells := l }, storeCells l f.mkey s.drew)
  else (f, s)

/-- Tests 2 to 5 of Table 09.3 for a data frame. -/
def admitData (q : Nat) (a : Arrival) (s : State) : State :=
  let d := depth (queueOf s q) + a.frame.data.length
  let limit := 1024 * s.fld (Reg.Q_LIMITS q) Fd.Q_LIMITS_LIMIT
  if limit = 0 ∨ limit < d then frameDrop q a.frame 0x02 s
  else if a.color = 1 ∧ 1024 * s.fld (Reg.Q_LIMITS q) Fd.Q_LIMITS_YELLOW_MAX < d then frameDrop q a.frame 0x03 s
  else match place q a.frame s with
    | none => frameDrop q a.frame 0x02 s
    | some f =>
      if f.hbm && !a.wrOk then frameDrop q a.frame 0x0F s
      else
        let (f, s) := spillFrame f s
        enqueue q f s

/-- A frame arrives at its queue (R252, R253). -/
def admitFrame (q : Nat) (a : Arrival) (s : State) : State :=
  if a.color = 2 then frameDrop q a.frame 0x01 s
  else if a.reserved then
    if rsvUsed s + a.frame.data.length ≤ 4 * 2 ^ 20 then enqueue q { a.frame with hbm := false, resv := true } s
    else admitData q a (event Ev.RESERVED_FULL [q] s)
  else admitData q a s

/-! Meters (R256, R258): bucket levels in 10^-6 bit -/

def meterOf (s : State) (m : Nat) : Meter := tget meter0 s.wnd.meters m
def setMeter (m : Nat) (x : Meter) (s : State) : State := { s with wnd := { s.wnd with meters := tput meter0 s.wnd.meters m x } }

/-- Millionths of a bit that a rate in kbit/s gives in a time in ns. -/
def filled (rate ns : Nat) : Nat := rate * ns

/-- The meter's update for B bytes with a pre-colour: the colour and the meter after it. -/
def meterStep (m : Meter) (now b pre : Nat) : Nat × Meter :=
  if !m.enable then (pre, m)
  else
    let dt := now - m.last
    let tc := min (m.cbs * 8000000) (m.tc + filled m.cir dt)
    let te := min (m.ebs * 8000000) (m.te + filled m.eir dt)
    let pre := if m.aware then pre else 0
    let need := b * 8000000
    if pre = 0 ∧ need ≤ tc then (0, { m with tc := tc - need, te := te, last := now })
    else if pre ≠ 2 ∧ need ≤ te then (1, { m with tc := tc, te := te - need, last := now })
    else (2, { m with tc := tc, te := te, last := now })

/-- Meters a frame of B bytes: the colour and the state. -/
def meterFrame (m b pre : Nat) (s : State) : Nat × State :=
  let r := meterStep (meterOf s m) s.time.up b pre
  (r.1, setMeter m r.2 s)

end Sys2Proof.Machine
end

