-- ==== Sys2Proof/Machine/Classify.lean ====
section
/-! DEFINITION. The classifier (chapter 08): table lookups, flow rules, the choice of association, class, queue and meter, learning, and the association cache. -/
namespace Sys2Proof.Machine

/-! Association control words (Tables 02.3, R107) -/

namespace AC
def DIR : Fld := ⟨0, 1⟩
def SUITE : Fld := ⟨1, 2⟩
def CONF : Fld := ⟨3, 1⟩
def OFFSET : Fld := ⟨4, 2⟩
def REPLAY : Fld := ⟨6, 1⟩
def DUP : Fld := ⟨7, 1⟩
def CUR_AN : Fld := ⟨8, 2⟩
def NEXT_AN : Fld := ⟨10, 2⟩
def NEXT_VALID : Fld := ⟨12, 1⟩
def STATE : Fld := ⟨13, 2⟩
def PORT : Fld := ⟨15, 5⟩
/-- STATE of a tributary's record (R107). -/
def TUB_STATE : Fld := ⟨8, 2⟩
end AC

def cfield (w : W32) (f : Fld) : Nat := nbits w.toNat f.lo f.len
def cset (w : W32) (f : Fld) (v : Nat) : W32 := (fset (w.setWidth 64) f v).setWidth 32
def ARec.c (r : ARec) (f : Fld) : Nat := cfield r.ctrl f
def ARec.setC (r : ARec) (f : Fld) (v : Nat) : ARec := { r with ctrl := cset r.ctrl f v }
/-- SUITE 2 and 3 are the XPN suites. -/
def xpn (ctrl : W32) : Bool := decide (2 ≤ cfield ctrl AC.SUITE)

/-- The record belongs to a tributary of a direction (R83, R107). -/
def tribNames (s : State) (dir a : Nat) : Bool := (List.range 64).any (fun t => tribOn s dir t && tribAssoc s dir t == a)

/-! Association counters (R65): SA counters at 16 · AN + k, SC counters from 64 -/

namespace CN
def OUT_PROT : Nat := 0
def OUT_PROT_OCT : Nat := 1
def OUT_ENC : Nat := 2
def OUT_ENC_OCT : Nat := 3
def IN_NOT_VALID : Nat := 4
def IN_LATE : Nat := 5
def DUP_REJ : Nat := 6
def IN_OK : Nat := 7
def IN_VAL_OCT : Nat := 8
def IN_DEC_OCT : Nat := 9
/-- The SC counter InPktsNotUsingSA. -/
def NOT_USING : Nat := 64
end CN

/-! The port counters of Table 02.10, at page offset 0x40 + 8k (log entry 36) -/
namespace MP
def OUT_UNTAGGED : Nat := 0
def OUT_TOO_LONG : Nat := 1
def IN_UNTAGGED : Nat := 2
def IN_NO_TAG : Nat := 3
def IN_BAD_TAG : Nat := 4
def IN_NO_SCI : Nat := 5
def IN_UNKNOWN_SCI : Nat := 6
end MP

/-- Adds to a counter of an association; at half range it raises COUNTER_HALF of subsystem 4 (R312). -/
def bumpAssoc (a k n : Nat) (s : State) : State :=
  let r := arec s a
  let old := tget nat0 r.counters k
  let s' := setArec a { r with counters := tput nat0 r.counters k (count40 old n) } s
  if crossedHalf old n then event (Ev.COUNTER_HALF 4) [a, k] s' else s'

def bumpMsc (line k : Nat) (s : State) : State := bump (Reg.MSC_CNT line k) 1 s

/-! Peer and SCI tables (R234, R236 to R238) -/

/-- Table time in ms (R238). -/
def tblStamp (s : State) : Nat := (s.time.up - s.time.stampBase) / 1000000 % 2 ^ 48

def peerKey (vid mac : Nat) : Nat := vid * 2 ^ 48 + mac

/-- The two candidate buckets of a peer key, and of an SCI on a line port (R237). -/
def peerBuckets (key : Nat) : Nat × Nat :=
  (hashWord (BitVec.ofNat 64 key) 0xFFFFFFFF % 32768, hashWord (BitVec.ofNat 64 key) 0x9E3779B9 % 32768)
def sciBuckets (port sci : Nat) : Nat × Nat :=
  (hashWord (BitVec.ofNat 64 sci) (0xFFFFFF00 + port) % 8192, hashWord (BitVec.ofNat 64 sci) (0x9E377900 + port) % 8192)

def bucketUsed {α : Type} (t : Table α) (b : Nat) : Nat := (t.filter (fun e => e.1 / 8 == b)).length
def freeWay {α : Type} (t : Table α) (b : Nat) : Option Nat :=
  ((List.range 8).find? (fun w => (tfind t (8 * b + w)).isNone)).map (8 * b + ·)

/-- Where a new key goes: the candidate bucket with fewer entries, the first on a tie, its lowest free way (R237). -/
def placeIn {α : Type} (t : Table α) (b : Nat × Nat) : Option Nat := freeWay t (if bucketUsed t b.2 < bucketUsed t b.1 then b.2 else b.1)

def findPeer (s : State) (key : Nat) : Option (Nat × Peer) := s.cls.peers.find? (fun e => e.2.key == key)
def findSci (s : State) (port sci : Nat) : Option (Nat × SciEnt) := s.cls.scis.find? (fun e => e.2.port == port && e.2.sci == sci)
def setPeer (i : Nat) (p : Peer) (s : State) : State := { s with cls := { s.cls with peers := tset s.cls.peers i p } }

/-- A lookup: a hit writes the hit stamp (R238). -/
def lookPeer (key : Nat) (s : State) : Option Peer × State :=
  match findPeer s key with
  | some (i, p) => (some p, setPeer i { p with hit := tblStamp s } s)
  | none => (none, s)

namespace PR
def ASSOC : Fld := ⟨0, 20⟩
def ASSOC_VALID : Fld := ⟨20, 1⟩
def LOC : Fld := ⟨21, 6⟩
def STATIC : Fld := ⟨27, 1⟩
end PR

/-! Flow rules (R230, R231) -/

namespace RR
def ASSOC : Fld := ⟨0, 20⟩
def AMODE : Fld := ⟨20, 2⟩
def QUEUE : Fld := ⟨22, 10⟩
def CLASS : Fld := ⟨32, 3⟩
def CLASS_VALID : Fld := ⟨35, 1⟩
def CLEAR_OK : Fld := ⟨36, 1⟩
def GATE : Fld := ⟨37, 1⟩
def QUEUE_ABS : Fld := ⟨38, 1⟩
def DROP : Fld := ⟨39, 1⟩
def TRIB : Fld := ⟨40, 6⟩
def TRIB_VALID : Fld := ⟨46, 1⟩
def METER : Fld := ⟨47, 16⟩
def METER_VALID : Fld := ⟨63, 1⟩
end RR

def Rule.hits (r : Rule) (key : Nat) : Bool := key &&& r.mask == r.value &&& r.mask

/-- The deciding rule: of those that match, the one with the lowest index. -/
def matchRule (s : State) (key : Nat) : Option (Nat × Rule) := s.cls.rules.find? (fun e => e.2.hits key)

/-- The port default in the layout of Table 08.3 (R231; log entry 34 for the fields it fills). -/
def portDefault (s : State) (p : Nat) : W64 :=
  let f := fun x => s.fld (Reg.TBL_PORT_CFG p) x
  BitVec.ofNat 64 (f Fd.TBL_PORT_CFG_DEF_ASSOC + f Fd.TBL_PORT_CFG_DEF_TRIB * 2 ^ 40 + f Fd.TBL_PORT_CFG_DEF_METER * 2 ^ 47 +
    f Fd.TBL_PORT_CFG_DEF_METER_VALID * 2 ^ 63)

/-- ECC errors found at this access: tables 0 to 2 uncorrectable, 4 to 6 corrected (R245). -/
def tableEcc : List (Nat × Nat) → State → State
  | [], s => s
  | (t, i) :: rest, s =>
    let lost := fun (c : Classifier) (has : Bool) =>
      if has then event Ev.TABLE_ECC [t, i] (bump Reg.TBL_CNT_ECC_UNCORR 1 { s with cls := c }) else s
    tableEcc rest
      (if t = 0 then lost { s.cls with peers := tdel s.cls.peers i } (tfind s.cls.peers i).isSome
       else if t = 1 then lost { s.cls with rules := tdel s.cls.rules i } (tfind s.cls.rules i).isSome
       else if t = 2 then lost { s.cls with scis := tdel s.cls.scis i } (tfind s.cls.scis i).isSome
       else if t < 7 then bump Reg.TBL_CNT_ECC_CORR 1 s else s)

/-! One frame (R233) -/

/-- What the rule match and the lookups say of a frame. -/
structure Class where
  res : W64
  rule : Nat
  flags : Nat
  dst : Option Peer

/-- Rule match and the two peer lookups of one frame. The rule key is taken from the 192 bytes that the header window receives (R176). PEER_HIT says that either lookup hit (log entry 134). -/
def classify (port : Nat) (data : Bytes) (looks : Bool) (s : State) : Class × State :=
  let flags := preFlags s data looks
  let (dst, s) := lookPeer (peerKey (outerVid s data) (da data)) s
  let (src, s) := lookPeer (peerKey (outerVid s data) (sa data)) s
  let m := matchRule s (ruleKey s port flags (data.take 192))
  let res := match m with | some (_, r) => r.res | none => portDefault s port
  let flags := flags + (if dst.isSome || src.isSome then fPeerHit else 0) + (if fget res RR.CLEAR_OK = 1 then fClearOk else 0) +
    (if fget res RR.GATE = 1 ∧ 32 ≤ port then fGate else 0)
  (⟨res, match m with | some (i, _) => 0x2000 + i | none => 0, flags, dst⟩, s)

/-- The traffic class of a frame. -/
def classOf (s : State) (port : Nat) (k : Class) (data : Bytes) : Nat :=
  if fget k.res RR.CLASS_VALID = 1 then fget k.res RR.CLASS
  else if s.flag (Reg.TBL_PORT_CFG port) Fd.TBL_PORT_CFG_PCP_CLASS && hasFlag k.flags 0x010 then outerPcp s data
  else s.fld (Reg.TBL_PORT_CFG port) Fd.TBL_PORT_CFG_DEF_CLASS

/-! Bindings (R11, R485) -/

/-- The line port that carries lane 0 of a tributary's primary trunk. -/
def tribOnLine (s : State) (dir t line : Nat) : Bool :=
  let e := nbits (s.reg (Reg.LFR_TRUNK_LANES (tribTrunk s dir t) 0)).toNat 0 8
  tribOn s dir t && nbit e 7 && e % 32 == line

/-- Receive tributaries of a line port in line-frame mode. -/
def rxTribsOn (s : State) (line : Nat) : List Nat := (List.range 64).filter (fun t => tribOnLine s 1 t line)

/-- A queue lies within the binding of an ingress port: its egress is the bound port, or one of the bound transmit tributaries. -/
def bindsQueue (s : State) (p q : Nat) : Bool :=
  if p < 32 then
    (match boundLine s p with
     | some l => egressOf q == 32 + l
     | none => (tribsOf s 0 p).any (fun t => egressOf q == 64 + t))
  else boundClient s (p - 32) == some (egressOf q) || (rxTribsOn s (p - 32)).any (fun t => egressOf q == tribClient s 1 t)

/-- The queue of a frame: the rule's, which lies within the binding of the port (R11), else that of its class on the egress. -/
def queueFor (s : State) (p : Nat) (k : Class) (egress cls : Nat) : Nat :=
  if fget k.res RR.QUEUE_ABS = 1 ∧ bindsQueue s p (fget k.res RR.QUEUE) = true then fget k.res RR.QUEUE else queueAt egress cls

/-- The ingress meter of a frame (R233): the deciding rule's, else the port's default, else none. -/
def meterFor (s : State) (p : Nat) (k : Class) : Option Nat :=
  if fget k.res RR.METER_VALID = 1 then some (fget k.res RR.METER)
  else if s.flag (Reg.TBL_PORT_CFG p) Fd.TBL_PORT_CFG_DEF_METER_VALID then some (s.fld (Reg.TBL_PORT_CFG p) Fd.TBL_PORT_CFG_DEF_METER) else none

/-- The ingress policer (R256): the colour of a frame. Pre-colour is yellow when the outer tag has DEI = 1. -/
def police (p : Nat) (k : Class) (data : Bytes) (s : State) : Nat × State :=
  let pre := b2n (outerDei s data)
  match meterFor s p k with
  | some m => meterFrame m data.length pre s
  | none => (pre, s)

/-- An Ethernet-mode association lies within the binding of a line port (R485); a tributary's record belongs to no line port. -/
def withinLine (s : State) (a line : Nat) : Bool := (arec s a).c AC.PORT == line && !tribNames s 0 a && !tribNames s 1 a

/-- An association lies within the binding of an ingress port. -/
def bindsAssoc (s : State) (p a : Nat) : Bool :=
  if p < 32 then
    (match boundLine s p with
     | some l => withinLine s a l
     | none => (tribsOf s 0 p).any (fun t => tribAssoc s 0 t == a) || (tribsOf s 1 p).any (fun t => tribAssoc s 1 t == a))
  else ((boundClient s (p - 32)).isSome && withinLine s a (p - 32)) ||
    [0, 1].any (fun d => (List.range 64).any (fun t => tribOnLine s d t (p - 32) && tribAssoc s d t == a))

/-- A transmit tributary takes frames from an ingress port. -/
def bindsTrib (s : State) (p t : Nat) : Bool := tribOn s 0 t && tribClient s 0 t == p

/-- A flow rule that the part accepts (R232). -/
def ruleFits (s : State) (value mask : Nat) (res : W64) : Bool :=
  let p := nbits value 312 6
  let named := fget res RR.AMODE == 1 || fget res RR.AMODE == 2
  if named || fget res RR.QUEUE_ABS == 1 || fget res RR.TRIB_VALID == 1 then
    nbits mask 312 6 == 0x3F && (!named || bindsAssoc s p (fget res RR.ASSOC)) &&
    (fget res RR.QUEUE_ABS == 0 || bindsQueue s p (fget res RR.QUEUE)) && (fget res RR.TRIB_VALID == 0 || bindsTrib s p (fget res RR.TRIB))
  else true

/-- A port that some binding joins to another. -/
def bound (s : State) (p : Nat) : Bool :=
  if p < 32 then (boundLine s p).isSome || lineFramed s p else (boundClient s (p - 32)).isSome || !(rxTribsOn s (p - 32)).isEmpty

/-- Every rule that names what lies within a binding still does after the bindings change (R11). -/
def rulesKept (s t : State) : Bool :=
  s.cls.rules.all (fun e => !bound t (nbits e.2.value 312 6) || !ruleFits s e.2.value e.2.mask e.2.res || ruleFits t e.2.value e.2.mask e.2.res)

/-- The association of a client frame in Ethernet mode; none is a drop with NO_SA. One outside the binding sends no frame (R11). -/
def clientAssoc (s : State) (port line : Nat) (k : Class) : Option Nat :=
  let a := fget k.res RR.ASSOC
  let mode := fget k.res RR.AMODE
  if mode = 0 then if s.flag (Reg.TBL_PORT_CFG port) Fd.TBL_PORT_CFG_DEF_VALID then some (s.fld (Reg.TBL_PORT_CFG port) Fd.TBL_PORT_CFG_DEF_ASSOC) else none
  else if mode = 1 then (if withinLine s a line then some a else none)
  else match k.dst with
    | some p =>
      if fget p.res PR.ASSOC_VALID = 1 ∧ withinLine s (fget p.res PR.ASSOC) line then some (fget p.res PR.ASSOC)
      else if mode = 2 ∧ withinLine s a line = true then some a else none
    | none => if mode = 2 ∧ withinLine s a line = true then some a else none

/-! Learning (R239, R240) -/

/-- A learn event joins the queue: not for a key that already stands at this port, not twice, and not beyond 4,096 (log entry 35 for static entries). -/
def learnEvent (key loc : Nat) (res : W64) (s : State) : State :=
  let here := match findPeer s key with | some (_, p) => fget p.res PR.LOC == loc | none => false
  if !s.flag Reg.TBL_CFG Fd.TBL_CFG_LEARN_EN || !s.flag (Reg.TBL_PORT_CFG loc) Fd.TBL_PORT_CFG_LEARN || here then s
  else if s.cls.learnQ.any (fun l => l.key == key && l.loc == loc) then s
  else if 4096 ≤ s.cls.learnQ.length then bump Reg.TBL_CNT_LEARN_OVF 1 s
  else { s with cls := { s.cls with learnQ := s.cls.learnQ ++ [⟨key, loc, res⟩] } }

/-- The result word a learn gives: LOC, and for a line port the transmit association of its SCI entry. -/
def learnRes (loc : Nat) (tx : W64) : W64 := fset (tx &&& 0x1FFFFF) PR.LOC loc

/-- A contending learn: at most one event per entry within each MOVE_HOLD period. -/
def contended (i : Nat) (p : Peer) (l : Learn) (hold : Nat) (s : State) : State :=
  let s := bump Reg.TBL_CNT_CONTENDED 1 s
  let due := match p.contendedAt with | some t => decide (t + hold ≤ tblStamp s) | none => true
  if due then event Ev.CONTENDED_LEARN [0, l.key, fget p.res PR.LOC, l.loc] (setPeer i { p with contendedAt := some (tblStamp s) } s) else s

/-- A learn commits (Table 08.5). -/
def commitLearn (l : Learn) (s : State) : State :=
  let now := tblStamp s
  let hold := s.fld Reg.TBL_CFG Fd.TBL_CFG_MOVE_HOLD
  match findPeer s l.key with
  | none =>
    match placeIn s.cls.peers (peerBuckets l.key) with
    | none => event Ev.TABLE_FULL [0, l.key, l.loc] (bump Reg.TBL_CNT_LEARN_FULL 1 s)
    | some i => bump Reg.TBL_CNT_LEARN 1 (setPeer i ⟨l.key, l.res, now, now, false, none⟩ s)
  | some (i, p) =>
    if fget p.res PR.LOC = l.loc then s
    else if fget p.res PR.STATIC = 1 then event Ev.STATIC_CONFLICT [0, l.key, fget p.res PR.LOC, l.loc] (bump Reg.TBL_CNT_STATIC_CONFLICT 1 s)
    else if now - p.learned < hold then contended i p l hold s
    else event Ev.STATION_MOVE [0, l.key, fget p.res PR.LOC, l.loc] (bump Reg.TBL_CNT_MOVE 1 (setPeer i { p with res := l.res, learned := now, contendedAt := none } s))

/-- LEARN_COMMIT (R240): the arbiter of a table commits its oldest queued learn; only the peer table learns. -/
def execLearnCommit (table : Fin 3) (s : State) : Ans :=
  match s.cls.learnQ with
  | l :: rest => .next (onlyIf (s.live && table.val == 0) (fun s => commitLearn l { s with cls := { s.cls with learnQ := rest } }) s)
  | [] => .next s

/-! Association cache (R235) -/

/-- The classifier asks for an association's record; a record that misses is fetched, and later frames join the fetch. -/
def requestAssoc (a : Nat) (s : State) : State :=
  if s.cls.cached.contains a || s.cls.fetching.contains a then s
  else bump Reg.TBL_CNT_ACACHE_MISS 1 { s with cls := { s.cls with fetching := s.cls.fetching ++ [a] } }

/-- A record enters the cache; the oldest of 32,768 leaves (log entry 37). -/
def cacheAssoc (a : Nat) (s : State) : State :=
  let l := (s.cls.cached.erase a) ++ [a]
  { s with cls := { s.cls with cached := if 32768 < l.length then l.drop 1 else l, fetching := s.cls.fetching.erase a } }

/-- ACACHE_FETCH_DONE (R235, Table 10.3): the fetch of a record and its key-map word ends; one whose read fails is bad until an ASSOC_WRITE. -/
def execAcacheFetchDone (assoc : Nat) (ecc : Ecc) (s : State) : Ans :=
  .next (onlyIf (s.live && s.cls.fetching.contains assoc) (fun s =>
    let (ok, s) := readCells [recordAt assoc / 256, mapWordAt assoc / 256] ecc s
    let s := cacheAssoc assoc s
    if ok then s else setArec assoc { arec s assoc with memBad := true } s) s)

end Sys2Proof.Machine
end

