-- ==== Sys2Proof/Machine/Vault.lean ====
section
/-! DEFINITION. The key vault (chapter 04): checks at key use, invalidation and cascade, writing keys, fills, eviction and blobs. -/
namespace Sys2Proof.Machine

/-! Attribute words (Tables 04.4 to 04.6) -/

namespace TS
def VALID : Fld := ⟨0, 1⟩
def BAD : Fld := ⟨1, 1⟩
def ORPHAN : Fld := ⟨2, 1⟩
def WOP : Fld := ⟨3, 1⟩
def FROM_BLOB : Fld := ⟨4, 1⟩
def PINNED : Fld := ⟨5, 1⟩
def LEN : Fld := ⟨6, 2⟩
def KCLASS : Fld := ⟨8, 3⟩
def U_AEAD : Nat := 11
def U_XTS : Nat := 12
def U_WRAP : Nat := 13
def U_DERIVE : Nat := 14
def EXPORT : Nat := 15
def CASCADE : Fld := ⟨16, 1⟩
def STANDING_OK : Fld := ⟨17, 1⟩
def OWNER_FN : Fld := ⟨18, 4⟩
def CAUSE : Fld := ⟨22, 3⟩
def GEN : Fld := ⟨0, 16⟩
def PARENT_GEN : Fld := ⟨16, 16⟩
def PARENT_SLOT : Fld := ⟨32, 14⟩
def PARENT_DEEP : Fld := ⟨46, 1⟩
def HAS_PARENT : Fld := ⟨47, 1⟩
def EXPIRY : Fld := ⟨0, 32⟩
def HANDLE : Fld := ⟨32, 20⟩
def HANDLE_VALID : Fld := ⟨52, 1⟩
end TS

namespace DS
def VALID : Fld := ⟨0, 1⟩
def BAD : Fld := ⟨1, 1⟩
def SOURCE : Fld := ⟨2, 2⟩
def LEN : Fld := ⟨4, 1⟩
def U_WRAP : Nat := 5
def U_DERIVE : Nat := 6
def U_AEAD : Nat := 7
def CASCADE : Fld := ⟨8, 1⟩
def STANDING_OK : Fld := ⟨9, 1⟩
def REMASK : Fld := ⟨10, 5⟩
def GEN : Fld := ⟨16, 16⟩
def LAST_REMASK : Fld := ⟨32, 32⟩
end DS

def TSlot.bit (t : TSlot) (i : Nat) : Bool := nbit t.w0.toNat i
def TSlot.g0 (t : TSlot) (f : Fld) : Nat := fget t.w0 f
def TSlot.g1 (t : TSlot) (f : Fld) : Nat := fget t.w1 f
def TSlot.g2 (t : TSlot) (f : Fld) : Nat := fget t.w2 f
def TSlot.p0 (t : TSlot) (f : Fld) (v : Nat) : TSlot := { t with w0 := fset t.w0 f v }
def TSlot.p1 (t : TSlot) (f : Fld) (v : Nat) : TSlot := { t with w1 := fset t.w1 f v }
def TSlot.p2 (t : TSlot) (f : Fld) (v : Nat) : TSlot := { t with w2 := fset t.w2 f v }

/-- A traffic key's bytes: 16 or 32 by LEN; a shorter key fills the leading bytes. -/
def TSlot.bytes (t : TSlot) : Bytes := (natBe 32 t.key.toNat).take (if t.g0 TS.LEN = 1 then 32 else 16)

/-- A key of n bytes as a slot holds it. -/
def keyOf (b : Bytes) : BitVec 256 := BitVec.ofNat 256 (beNat (slice b 0 32))
def deepKeyOf (b : Bytes) : BitVec 512 := BitVec.ofNat 512 (beNat (slice b 0 64))

def deepOf (s : State) (d : Nat) : DSlot := tget deep0 s.vault.deep d
def DSlot.g (d : DSlot) (f : Fld) : Nat := fget d.w f
def setDeep (n : Nat) (d : DSlot) (s : State) : State := { s with vault := { s.vault with deep := tput deep0 s.vault.deep n d } }

def pinTop (s : State) : Nat := s.fld Reg.SRM_CFG Fd.SRM_CFG_PIN_TOP

/-- ATTR as it reads: PINNED is the slot's number below PIN_TOP, whatever the slot holds (Table 04.5). -/
def slotAttr (s : State) (n : Nat) (t : TSlot) : W64 := fset t.w0 TS.PINNED (b2n (decide (n < pinTop s)))

/-- The check word: a truncated CMAC over the key, the three words and the slot number (R116). -/
def slotCheck (s : State) (n : Nat) (t : TSlot) : BitVec 32 :=
  BitVec.ofNat 32 (beNat ((cmac (natBe 32 s.vault.bootKey.toNat)
    (natBe 32 t.key.toNat ++ natBe 8 (slotAttr s n t).toNat ++ natBe 8 t.w1.toNat ++ natBe 8 t.w2.toNat ++ natBe 2 n)).take 4))

/-- The stored check word is that of the slot's key and words. -/
def slotWhole (s : State) (n : Nat) : Bool := (slotOf s n).check == slotCheck s n (slotOf s n)

/-- Writes a slot with a fresh check word. -/
def sealSlot (n : Nat) (t : TSlot) (s : State) : State := setSlot n { t with check := slotCheck s n t } s

/-- A deep slot's check word: the same CMAC over its key, its attribute word and its number (R116; log entry 130). -/
def deepCheck (s : State) (d : Nat) (x : DSlot) : BitVec 32 :=
  BitVec.ofNat 32 (beNat ((cmac (natBe 32 s.vault.bootKey.toNat)
    (natBe 64 (x.share ^^^ x.mask).toNat ++ natBe 8 x.w.toNat ++ natBe 2 (0x8000 + d))).take 4))

def deepWhole (s : State) (d : Nat) : Bool := (deepOf s d).check == deepCheck s d (deepOf s d)

/-- Writes a deep slot with a fresh check word. -/
def sealDeep (d : Nat) (x : DSlot) (s : State) : State := setDeep d { x with check := deepCheck s d x } s

/-- A slot in use: its key is fetched and not yet ended (R119), or frames are in flight under an AN entry that names it (R54). -/
def inUse (s : State) (n : Nat) : Bool :=
  (slotOf s n).uses != 0 || s.assoc.any (fun e => e.2.ans.any (fun x => x.valid && x.map.toNat / 2 ^ 20 % 2 == 0 && x.slot == n && x.inflight != 0))

/-! Invalidation (R127, R129) -/

/-- A key that can have children: a sweep follows its invalidation. -/
def TSlot.parentLike (t : TSlot) : Bool := t.bit TS.U_WRAP || t.bit TS.U_DERIVE

def addSweep (w : Sweep) (s : State) : State := { s with vault := { s.vault with sweeps := s.vault.sweeps ++ [w] } }

/-- Clears VALID and raises GEN in one step; the storage is zeroed at once when the slot is not in use (R119, R127). -/
def invalidate (n cause : Nat) (s : State) : State :=
  let t := slotOf s n
  let gen := t.g1 TS.GEN
  let u := (((((t.p0 TS.VALID 0).p0 TS.ORPHAN 0).p0 TS.BAD (if cause = 4 then 1 else 0)).p0 TS.CAUSE cause).p1 TS.GEN (gen + 1)).p2 TS.HANDLE_VALID 0
  let u := if !inUse s n || cause == 4 then { u with key := 0 } else u
  let s := sealSlot n u s
  if t.parentLike then addSweep ⟨false, n, gen, 0⟩ s else s

/-- GEN of a deep slot saturates (R113). -/
def deepGenUp (d : DSlot) : Nat := min (d.g DS.GEN + 1) 0xFFFF

/-- A deep slot loses its key; its children are swept. -/
def invalidateDeep (d : Nat) (bad : Bool) (s : State) : State :=
  let x := deepOf s d
  let w := fset (fset (fset x.w DS.VALID 0) DS.BAD (b2n bad)) DS.GEN (deepGenUp x)
  addSweep ⟨true, d, x.g DS.GEN, 0⟩ (sealDeep d ⟨w, 0, 0, 0⟩ s)

/-- A failed check of a traffic slot (R117). -/
def slotBad (n : Nat) (s : State) : State := trigger 0x11 [n] (bump Reg.SRM_CNT_SLOT_BAD 1 (invalidate n 4 s))
def deepBad (d : Nat) (s : State) : State := trigger 0x11 [0x8000 + d] (bump Reg.SRM_CNT_SLOT_BAD 1 (invalidateDeep d true s))

/-- Every fetch of a deep slot's key verifies its check word (R116). -/
def fetchDeep (d : Nat) (s : State) : State := if dBit s d 0 && !deepWhole s d then deepBad d s else s

/-- EXPIRY compared as a serial number (R118). -/
def reached (s : State) (e : Nat) : Bool := e != 0 && decide ((s.seconds + 2 ^ 32 - e) % 2 ^ 32 < 2 ^ 31)

def expire (n : Nat) (s : State) : State := event Ev.KEY_EXPIRED [n] (invalidate n 3 s)

/-- The parent's generation is still the one the key was made under. -/
def parentSame (s : State) (t : TSlot) : Bool :=
  if t.g1 TS.HAS_PARENT = 0 then true
  else if t.g1 TS.PARENT_DEEP = 1 then (deepOf s (t.g1 TS.PARENT_SLOT)).g DS.GEN == t.g1 TS.PARENT_GEN
  else (slotOf s (t.g1 TS.PARENT_SLOT)).g1 TS.GEN == t.g1 TS.PARENT_GEN

/-- A child is withdrawn at a fetch: the sweep that is still to come counts it (R128, R129). -/
def withdraw (n : Nat) (s : State) : State :=
  let t := slotOf s n
  let mark := fun (w : Sweep) =>
    if w.deep = (t.g1 TS.PARENT_DEEP == 1) ∧ w.slot = t.g1 TS.PARENT_SLOT ∧ w.gen = t.g1 TS.PARENT_GEN then { w with early := w.early + 1 } else w
  invalidate n 2 { s with vault := { s.vault with sweeps := s.vault.sweeps.map mark } }

/-- A strongroom write of the part's own: the caution state holds it, once (R418, Table 04.14). -/
def unlessCaution (h : Held) (f : State → State) (s : State) : State :=
  if inCaution s then { s with guard := { s.guard with held := if s.guard.held.contains h then s.guard.held else s.guard.held ++ [h] } } else f s

/-! Checks at key use (Table 04.7) -/

/-- Status of an order or job that names a slot without a valid key (R484). -/
def absentStatus (t : TSlot) : Nat :=
  if t.g0 TS.CAUSE = 4 then 3 else if t.g0 TS.CAUSE = 2 then 4 else if t.g0 TS.CAUSE = 3 then 5 else 2

/-- Checks 1 to 5 for an order or job: the status, and the state after a failed check has invalidated the key. `ok` is what the check word says, `use` the use bit needed (none for an attribute change), `fn` the caller. -/
def useKey (n : Nat) (use : Option Nat) (fn : Nat) (ok : Bool) (s : State) : Nat × State :=
  let t := slotOf s n
  if !t.valid then (absentStatus t, s)
  else if !ok then (3, slotBad n s)
  else if !parentSame s t && t.g0 TS.WOP == 1 then (4, unlessCaution (.withdraw n) (withdraw n) s)
  else if reached s (t.g2 TS.EXPIRY) then (5, unlessCaution (.expire n) (expire n) s)
  else if (match use with | some b => !t.bit b | none => false) || (fn != t.g0 TS.OWNER_FN && decide (fn < 16)) then (6, s)
  else (0, s)

/-- A deep slot as an unwrapping or derivation parent: valid, with the use bit and the generation asked for. -/
def deepParentOk (s : State) (d use : Nat) : Bool := dBit s d 0 && dBit s d use

/-! Writing keys -/

/-- STANDING_OK only on the classes of R130. -/
def standOk (a : Nat) : Bool := !nbit a 17 || [1, 3, 4, 6].contains (nbits a 8 3)

/-- ATTR bits an order or a blob gives: no reserved value. -/
def attrOk (a : Nat) : Bool := decide (nbits a 6 2 ≤ 1) && nbits a 8 3 != 7 && nbits a 25 39 == 0 && standOk a

/-- The OW bits of ATTR. -/
def attrMask : Nat := 0x3FFFC0

/-- Where a key comes from: none, or its parent with its generation and CASCADE. -/
structure KeyFrom where
  deep : Bool
  slot : Nat
  gen : Nat
  wop : Nat
  deriving DecidableEq, Repr

/-- A key is written into a slot (R115, R484): a valid key there is replaced first (CAUSE 1). `blob` is the handle of a fill. -/
def writeKey (n : Nat) (key : Bytes) (attr expiry : Nat) (src : Option KeyFrom) (blob : Option Nat) (alloc : Bool) (s : State) : State :=
  let s := if (slotOf s n).valid then invalidate n 1 s else s
  let old := slotOf s n
  let w0 := BitVec.ofNat 64 (1 + (match src with | some p => p.wop * 8 | none => 0) + (if blob.isSome then 16 else 0)
    + nbits attr 6 16 * 64)
  let w1 := BitVec.ofNat 64 (old.g1 TS.GEN + (match src with
    | some p => p.gen * 2 ^ 16 + p.slot * 2 ^ 32 + b2n p.deep * 2 ^ 46 + 2 ^ 47
    | none => 0))
  let w2 := BitVec.ofNat 64 (expiry % 2 ^ 32 + (match blob with | some h => h * 2 ^ 32 + 2 ^ 52 | none => 0))
  let s := sealSlot n ⟨w0, w1, w2, keyOf key, 0, 0, false, alloc⟩ s
  if reached s expiry then expire n s else s

/-- A fresh mask for a deep slot's key. -/
def maskFor (len512 : Bool) (s : State) : BitVec 512 := if len512 then s.draw else (s.draw >>> 256) <<< 256

/-- A key is written into a deep slot with the attribute bits given: SOURCE 0 derived, 1 random, 2 standing blob, 3 order. -/
def writeDeep (d : Nat) (key : Bytes) (attr source : Nat) (s : State) : State :=
  let gen := (deepOf s d).g DS.GEN
  let m := maskFor (nbit attr 4) s
  let w := BitVec.ofNat 64 (1 + source * 4 + nbits attr 4 11 * 16 + gen * 2 ^ 16 + s.seconds * 2 ^ 32)
  sealDeep d ⟨w, deepKeyOf key ^^^ m, m, 0⟩ s.drew

/-- An attribute word an order may write into a deep slot (R113): REMASK 10 to 20, no reserved or RO bit. -/
def deepAttrOk (a : Nat) : Bool :=
  decide (10 ≤ nbits a 10 5) && decide (nbits a 10 5 ≤ 20) && nbits a 0 4 == 0 && nbits a 15 49 == 0

/-! Blobs (R120, R121) -/

/-- What opening a blob gives: 0, 1 KEK_INVALID or 2 BLOB_BAD, and its content. -/
structure Opened where
  res : Nat
  key : Bytes
  attr : Nat
  expiry : Nat
  handle : Nat
  parent : Nat
  pgen : Nat
  target : Nat
  deriving DecidableEq, Repr

/-- Uses of a blob: a cellar fill of a handle, KEY_INSTALL, DEEP_IMPORT, a standing blob of an index. -/
inductive BlobUse | fill (h : Nat) | install | deepImport | standing (i : Nat)
  deriving DecidableEq, Repr

def be (b : Bytes) (off n : Nat) : Nat := beNat (slice b off n)

def failed (r : Nat) : Opened := ⟨r, [], 0, 0, 0, 0, 0, 0⟩

/-- MAGIC, VERSION, FLAGS and HANDLE fit the use (step 2 of R123, R121). -/
def headerOk (b : Bytes) : BlobUse → Bool
  | .fill h => be b 0 2 == 0x4256 && be b 2 1 == 1 && be b 3 1 == 0 && be b 4 4 == h
  | .install => be b 0 2 == 0x4256 && be b 2 1 == 1 && be b 3 1 == 0 && decide (be b 4 4 < 2 ^ 20)
  | .deepImport => be b 0 2 == 0x4256 && be b 2 1 == 2 && be b 3 1 == 0 && decide (be b 4 4 < 2 ^ 20)
  | .standing i => be b 0 2 == 0x4256 && (be b 2 1 == 1 || be b 2 1 == 2) && be b 3 1 == 1 && be b 4 4 == i

/-- The parent a use admits: deep slot 3 or 8 to 63 for the cellar, 8 to 63 for DEEP_IMPORT, 1 for a standing blob. -/
def parentOk (s : State) (p : Nat) : BlobUse → Bool
  | .standing _ => p == 0x8001
  | .deepImport => decide (0x8008 ≤ p) && decide (p < 0x8040) && dBit s (p % 64) DS.U_WRAP
  | _ => (p == 0x8003 || decide (0x8008 ≤ p) && decide (p < 0x8040)) && dBit s (p % 64) DS.U_WRAP

/-- The content a use admits. What an order refuses with UNSUPPORTED is left to the order: STANDING_OK on another class (R130), an attribute word of a deep slot (R113). -/
def contentOk (v2 : Bool) (attr : Nat) : BlobUse → Bool
  | .standing _ =>
    if v2 then deepAttrOk attr
    else nbits attr 0 6 == 0 && nbits attr 22 3 == 0 && attrOk attr && [1, 3, 4, 6].contains (nbits attr 8 3)
  | .deepImport => nbits attr 0 4 == 0 && nbits attr 16 48 == 0
  | .install => nbits attr 0 6 == 0 && nbits attr 22 3 == 0 && attrOk (attr - attr / 2 ^ 17 % 2 * 2 ^ 17) && [0, 1, 3, 4, 6].contains (nbits attr 8 3)
  | .fill _ => nbits attr 0 6 == 0 && nbits attr 22 3 == 0 && attrOk attr && [0, 1, 3, 4, 6].contains (nbits attr 8 3)

/-- TARGET is 0 in all but standing blobs (Table 04.8). -/
def targetOk (b : Bytes) : BlobUse → Bool
  | .standing _ => true
  | _ => be b 12 4 == 0

/-- The bytes after a shorter key are 0x00 (Table 04.9). -/
def paddedKey (v2 : Bool) (attr : Nat) (pt : Bytes) : Bool :=
  if v2 then nbit attr 4 || (slice pt 32 32).all (· == 0) else nbits attr 6 2 == 1 || (slice pt 16 16).all (· == 0)

/-- Opens a blob under its parent, in the order of R123. -/
def openBlob (u : BlobUse) (b : Bytes) (s : State) : Opened :=
  let v2 := be b 2 1 == 2
  let p := be b 8 2
  if !headerOk b u then failed 2
  else if !dBit s (p % 64) 0 || (deepOf s (p % 64)).g DS.GEN != be b 10 2 then failed 1
  else if !parentOk s p u then failed 2
  else match keyUnwrapPad (deep256 s (p % 64)) (slice b 16 (if v2 then 96 else 64)) with
    | none => failed 2
    | some pt =>
      let k := if v2 then 64 else 32
      let tail := if v2 then 72 else 44
      let attr := be pt k 8
      if pt.length != (if v2 then 88 else 56) then failed 2
      else if slice pt tail 12 != slice b 4 12 then failed 2
      else if v2 && be pt 84 4 != 0 then failed 2
      else if !targetOk b u || !paddedKey v2 attr pt || !contentOk v2 attr u then failed 2
      else ⟨0, slice pt 0 k, attr, if v2 then 0 else be pt 40 4, be b 4 4, p % 64, be b 10 2, be b 12 4⟩

/-- A blob made for the attic (R130): VERSION 0x02 for a deep slot, 0x01 for a traffic slot, parent deep slot 1. -/
def standingBlob (s : State) (index target : Nat) (key : Bytes) (attr expiry : Nat) : Bytes :=
  let v2 := nbit target 15
  let head := natBe 2 0x4256 ++ natBe 1 (if v2 then 2 else 1) ++ natBe 1 1 ++ natBe 4 index ++ natBe 2 0x8001 ++ natBe 2 ((deepOf s 1).g DS.GEN) ++ natBe 4 target
  let pt := slice key 0 (if v2 then 64 else 32) ++ natBe 8 attr ++ (if v2 then [] else natBe 4 expiry) ++ head.drop 4 ++ (if v2 then zeros 4 else [])
  head ++ keyWrapPad (deep256 s 1) pt

/-! Cached slots (R125) -/

/-- Does a valid key-map word name a handle (R122). -/
def handleNamed (s : State) (h : Nat) : Bool :=
  s.assoc.any (fun e => e.2.ans.any (fun a =>
    nbit a.map.toNat 20 && nbits a.map.toNat 0 20 == h && (a.valid || a.inflight != 0)))

def freeIn (s : State) (alloc bad : Bool) (n : Nat) : Bool :=
  let t := slotOf s n
  !t.valid && !inUse s n && t.alloc == alloc && t.bit 1 == bad

def cachedRange (s : State) : List Nat := (List.range (16384 - pinTop s)).map (pinTop s + ·)

/-- A slot a fill may evict. -/
def evictable (s : State) (n : Nat) : Bool :=
  let t := slotOf s n
  t.valid && t.bit 4 && !t.parentLike && !inUse s n && (!t.bit 2 || !handleNamed s (t.g2 TS.HANDLE))

/-- The eligible slots in the order the clock hand meets them. -/
def clockOrder (s : State) : List Nat :=
  let l := (cachedRange s).filter (evictable s)
  l.filter (fun n => decide (s.vault.clockHand ≤ n)) ++ l.filter (fun n => decide (n < s.vault.clockHand))

/-- Eviction: the key goes, GEN stays, CAUSE 5; the slot stays in the fill pool. -/
def evict (n : Nat) (s : State) : State :=
  let t := slotOf s n
  let s := sealSlot n { (((t.p0 TS.VALID 0).p0 TS.ORPHAN 0).p0 TS.CAUSE 5).p2 TS.HANDLE_VALID 0 with key := 0 } s
  bump Reg.SRM_CNT_EVICT 1 { s with vault := { s.vault with clockHand := n + 1 } }

def clearRefd (l : List Nat) (s : State) : State := l.foldl (fun s n => setSlot n { slotOf s n with refd := false } s) s

/-- A slot for a fill: free with BAD 0, free with BAD 1, or evicted; none when the fill must wait. -/
def fillSlot (s : State) : Option (Nat × State) :=
  match (cachedRange s).find? (freeIn s false false) with
  | some n => some (n, s)
  | none => match (cachedRange s).find? (freeIn s false true) with
    | some n => some (n, s)
    | none =>
      let order := clockOrder s
      match order.find? (fun n => !(slotOf s n).refd) with
      | some n => some (n, evict n (clearRefd (order.takeWhile (· ≠ n)) s))
      | none => match order with
        | n :: _ => some (n, evict n (clearRefd order s))
        | [] => none

/-- A slot for a key the part allocates by order or for a tub: the allocation pool first, then the fill pool (R483). -/
def allocSlot (s : State) : Option Nat :=
  match (cachedRange s).find? (freeIn s true false) with
  | some n => some n
  | none => match (cachedRange s).find? (freeIn s true true) with
    | some n => some n
    | none => match (cachedRange s).find? (freeIn s false false) with
      | some n => some n
      | none => (cachedRange s).find? (freeIn s false true)

/-- Free cached slots of both pools (Table 04.16). -/
def cachedFree (s : State) : Nat := ((cachedRange s).filter (fun n => !(slotOf s n).valid && !inUse s n)).length

/-! Fills (R123, R124) -/

/-- Does a cellar handle hold a blob. -/
def cellarUsed (s : State) (h : Nat) : Bool := (memBytes s (blobAt h) 80).any (fun b => b != 0)

/-- A fill's outcome: 0 and the slot, 1 KEK_INVALID, 2 BLOB_BAD, 3 already expired, 4 it must wait. -/
def fillKey (h : Nat) (ecc : Ecc) (s : State) : Nat × Nat × State :=
  let (ok, s) := readSector (blobAt h / 256) ecc s
  let b := memBytes s (blobAt h) 80
  let s := if ok then fetchDeep (be b 8 2 % 64) s else s
  let o := if ok then openBlob (.fill h) b s else failed 2
  if o.res = 1 then (1, 0, event Ev.KEK_INVALID [h] (bump Reg.SRM_CNT_KEK_INVALID 1 s))
  else if o.res = 2 then (2, 0, event Ev.BLOB_BAD [h] (bump Reg.SRM_CNT_BLOB_BAD 1 s))
  else if reached s o.expiry then (3, 0, event Ev.KEY_EXPIRED [h] s)
  else match fillSlot s with
    | none =>
      let due := match s.vault.cacheFullAt with | some t => decide (t + 1000000000 ≤ s.time.up) | none => true
      (4, 0, if due then event Ev.CACHE_FULL [h] { s with vault := { s.vault with cacheFullAt := some s.time.up } } else s)
    | some (n, s) =>
      let src : KeyFrom := ⟨true, o.parent, o.pgen, b2n (dBit s o.parent 8)⟩
      (0, n, bump Reg.SRM_CNT_FILL 1 (writeKey n o.key o.attr o.expiry (some src) (some h) false s))

/-! Commands -/

/-- KEY_EXPIRED (R118): a key whose EXPIRY is reached is invalidated with CAUSE 3; the caution state holds the write (R418). -/
def execKeyExpired (slot : Fin 16384) (s : State) : Ans :=
  let t := slotOf s slot.val
  .next (onlyIf (s.live && t.valid && reached s (t.g2 TS.EXPIRY)) (unlessCaution (.expire slot.val) (expire slot.val)) s)

/-- SLOT_SWEEP (R116, R117): the background sweep finds the check words of some slots wrong. -/
def execSlotSweep (bad : List (Fin 16384)) (badDeep : List (Fin 64)) (s : State) : Ans :=
  .next (onlyIf s.live (fun s =>
    let s := bad.foldl (fun s n => if (slotOf s n.val).valid then slotBad n.val s else s) s
    badDeep.foldl (fun s d => if dBit s d.val 0 then deepBad d.val s else s) s) s)

/-- SLOT_ZEROIZE (R54, R119): an invalidated slot that is no longer in use is zeroized and free. -/
def execSlotZeroize (slot : Fin 16384) (s : State) : Ans :=
  let t := slotOf s slot.val
  .next (onlyIf (s.live && !t.valid && !inUse s slot.val && t.key != 0) (sealSlot slot.val { t with key := 0 }) s)

/-- A child meets the sweep of its parent (R128). -/
def sweepSlot (w : Sweep) (acc : Nat × Nat × State) (n : Nat) : Nat × Nat × State :=
  let (x, o, s) := acc
  let t := slotOf s n
  if t.valid && t.g1 TS.HAS_PARENT == 1 && (t.g1 TS.PARENT_DEEP == 1) == w.deep && t.g1 TS.PARENT_SLOT == w.slot && t.g1 TS.PARENT_GEN == w.gen then
    if t.g0 TS.WOP = 1 then (x + 1, o, invalidate n 2 s)
    else if t.g0 TS.ORPHAN = 1 then (x, o, s)
    else (x, o + 1, sealSlot n (t.p0 TS.ORPHAN 1) s)
  else (x, o, s)

def sweepAll (w : Sweep) (s : State) : State :=
  let s := { s with vault := { s.vault with sweeps := s.vault.sweeps.erase w } }
  let (x, o, s) := (s.vault.slots.map (·.1)).foldl (sweepSlot w) (w.early, 0, s)
  event Ev.CASCADE_DONE [(if w.deep then 0x8000 else 0) + w.slot, w.gen, x, o] s

/-- CASCADE_SWEEP (R129): the sweep after an invalidation withdraws or orphans the children of the old generation; the caution state holds these writes. -/
def execCascadeSweep (deep : Bool) (slot : Fin 16384) (s : State) : Ans :=
  match s.vault.sweeps.find? (fun w => w.deep == deep && w.slot == slot.val) with
  | some w => .next (onlyIf s.live (unlessCaution (.sweep deep slot.val) (sweepAll w)) s)
  | none => .next s

/-- A re-mask: a fresh mask, the same key (R114). -/
def remask (d : Nat) (s : State) : State :=
  let x := deepOf s d
  let k := x.share ^^^ x.mask
  let m := maskFor (dBit s d 4) s
  sealDeep d ⟨fset x.w DS.LAST_REMASK s.seconds, k ^^^ m, m, 0⟩ s.drew

/-- A re-mask verifies the check word first (R116); `ok` is 0 where the slot's storage has failed since. -/
def remaskChecked (d : Nat) (ok : Bool) (s : State) : State := if ok && deepWhole s d then remask d s else deepBad d s

/-- DEEP_REMASK (R114, R116): the mask of a valid deep slot is replaced; its check is verified; the caution state holds it. -/
def execDeepRemask (d : Fin 64) (ok : Bool) (s : State) : Ans :=
  .next (onlyIf (s.live && dBit s d.val 0) (unlessCaution (.remask d.val ok) (remaskChecked d.val ok)) s)

end Sys2Proof.Machine
end

