-- ==== Sys2Proof/Machine/AssocRec.lean ====
section
/-! DEFINITION. Association records as their 256 bytes (Table 02.2 and R107), and what an enabled tributary does to the reading of a record. -/
namespace Sys2Proof.Machine

/-- The first two bytes of an entry. -/
def AnEnt.word (e : AnEnt) : Nat := e.slot % 2 ^ 14 + b2n e.valid * 2 ^ 14 + b2n e.retiring * 2 ^ 15

/-- An AN entry as its 56 bytes (Table 02.4). -/
def anBytes (e : AnEnt) : Bytes :=
  natBe 2 e.word ++ zeros 2 ++ natBe 4 e.ssci ++ natBe 12 e.salt ++ natBe 4 e.inflight ++ natBe 8 e.nextPn ++ natBe 8 e.lowestPn ++ natBe 16 e.dupMap

/-- A pointer entry as its 32 bytes (R107). -/
def ptrBytes (e : AnEnt) : Bytes :=
  natBe 2 e.word ++ zeros 2 ++ natBe 4 e.salt ++ natBe 4 e.epoch ++ natBe 4 e.inflight ++ natBe 8 e.nextPn ++ zeros 8

/-- A MACsec record (Table 02.2). -/
def scBytes (r : ARec) : Bytes :=
  natBe 8 r.sci ++ natBe 8 r.limit ++ natBe 4 r.ctrl.toNat ++ natBe 4 r.window ++ natBe 4 r.warn ++ natBe 4 r.maxLag ++ r.ans.flatMap anBytes

/-- A tributary's record (R107). -/
def tubRecBytes (r : ARec) : Bytes :=
  natBe 4 r.ctrl.toNat ++ zeros 4 ++ natBe 8 r.limit ++ natBe 8 r.warn ++ zeros 8 ++ r.ans.flatMap ptrBytes ++ zeros 96

def wordEnt (w : Nat) (e : AnEnt) : AnEnt := { e with slot := nbits w 0 14, valid := nbit w 14, retiring := nbit w 15 }

def anFrom (b : Bytes) (e : AnEnt) : AnEnt :=
  { wordEnt (be b 0 2) e with ssci := be b 4 4, salt := be b 8 12, inflight := be b 20 4, nextPn := be b 24 8, lowestPn := be b 32 8, dupMap := be b 40 16 }
def ptrFrom (b : Bytes) (e : AnEnt) : AnEnt :=
  { wordEnt (be b 0 2) e with salt := be b 4 4, epoch := be b 8 4, inflight := be b 12 4, nextPn := be b 16 8 }

def zipEnts (f : Nat → AnEnt → AnEnt) (l : List AnEnt) : List AnEnt := (List.range 4).map (fun i => f i (l.getD i an0))

/-- A record's bytes read as a MACsec record; the key map and the counters are not part of them. -/
def scFrom (b : Bytes) (r : ARec) : ARec :=
  { r with
    sci := be b 0 8, limit := be b 8 8, ctrl := BitVec.ofNat 32 (be b 16 4), window := be b 20 4, warn := be b 24 4, maxLag := be b 28 4
    ans := zipEnts (fun i e => anFrom (b.drop (32 + 56 * i)) e) r.ans }

def tubRecFrom (b : Bytes) (r : ARec) : ARec :=
  { r with
    sci := 0, limit := be b 8 8, ctrl := BitVec.ofNat 32 (be b 0 4), window := 0, warn := be b 16 8, maxLag := 0
    ans := zipEnts (fun i e => ptrFrom (b.drop (32 + 32 * i)) e) r.ans }

/-- An enabled tributary of either direction names a record: it reads as R107 lays it out (log entry 68). -/
def isTubRec (s : State) (a : Nat) : Bool := tribNames s 0 a || tribNames s 1 a

def recordBytes (s : State) (a : Nat) : Bytes := if isTubRec s a then tubRecBytes (arec s a) else scBytes (arec s a)

/-- A record's stored bytes read under the other layout; a record still at its reset values is at those of that layout (log entry 68). -/
def asTubRec (r : ARec) : ARec := if r = assoc0 0 then tubRec0 else tubRecFrom (scBytes r) r
def asScRec (r : ARec) : ARec := if r = tubRec0 then assoc0 0 else scFrom (tubRecBytes r) r

/-- A change of a tributary's configuration may change how a record's bytes are read. -/
def reshape (a : Nat) (before after : State) : State :=
  if isTubRec before a = isTubRec after a then after
  else if isTubRec after a then setArec a (asTubRec (arec after a)) after
  else setArec a (asScRec (arec after a)) after

/-- A write to an LFR register takes effect. -/
def lfrApply (off : Nat) (v : W64) (s : State) : State :=
  let s' := s.setReg off v
  if (0x402000 ≤ off ∧ off < 0x403000 ∨ 0x404000 ≤ off ∧ off < 0x405000) ∧ off % 0x40 = 0 then
    reshape (fget v Fd.LFR_TRIB_CFG_ASSOC) s (reshape (fget (s.reg off) Fd.LFR_TRIB_CFG_ASSOC) s s')
  else s'

end Sys2Proof.Machine
end

