-- ==== Sys2Proof/Machine/Loader.lean ====
section
/-! DEFINITION. The load checks of Niano code (R171 to R173, R181 to R185, R195, R204). -/
namespace Sys2Proof.Machine

/-- Fields of an instruction word (Table 06.6). -/
def iOp (w : Nat) : Nat := nbits w 25 7
def iRd (w : Nat) : Nat := nbits w 20 5
def iRb (w : Nat) : Nat := nbits w 10 5
def iFn (w : Nat) : Nat := nbits w 3 7
def iPt (w : Nat) : Nat := nbits w 22 3
def iPf (w : Nat) : Nat := nbits w 19 3

/-- The two predicates of a compare or a lookup differ, p0 apart (R184). -/
def predsDiffer (pt pf : Nat) : Bool := pt != pf || pt == 0

/-- The reasons and subcodes an image may hold (R195). -/
def dropCode (reason sub : Nat) : Bool := if reason = 0x11 then decide (sub < 0xF0) else [0x01, 0x09, 0x0E].contains reason && sub == 0

/-- A word that the load accepts in a program of n bundles (R182 to R185, R187, R191, R195, R204). -/
def wordLoads (n w : Nat) : Bool :=
  let op := iOp w
  if op = 0x00 then nbits w 3 22 == 0
  else if op = 0x01 then decide (iFn w ≤ 0x13) && (!(iFn w == 0x10 || iFn w == 0x11 || iFn w == 0x12) || iRb w == 0)
  else if 0x02 ≤ op ∧ op ≤ 0x05 then true
  else if 0x06 ≤ op ∧ op ≤ 0x08 then nbits w 9 6 == 0
  else if op = 0x09 ∨ op = 0x0A then decide (nbits w 9 6 + nbits w 3 6 + 1 ≤ 64)
  else if op = 0x0B then true
  else if op = 0x0C then nbits w 19 1 == 0
  else if op = 0x10 then nbits w 3 3 == 0 && predsDiffer (iPt w) (iPf w)
  else if op = 0x11 then (decide (nbits w 3 3 < 6) || nbits w 12 2 == 0) && predsDiffer (iPt w) (iPf w)
  else if op = 0x12 then nbits w 3 8 == 0 && predsDiffer (iPt w) (iPf w)
  else if op = 0x18 then nbits w 16 4 == 0 && decide (nbits w 3 13 < n)
  else if op = 0x19 then nbits w 3 12 == 0
  else if op = 0x20 ∨ op = 0x21 then nbits w 3 1 == 0
  else if op = 0x22 ∨ op = 0x23 then nbits w 3 4 == 0
  else if op = 0x28 ∨ op = 0x29 then nbits w 15 5 == 0
  else if op = 0x30 then decide (nbits w 11 4 < 2) && nbits w 3 2 == 0 && predsDiffer (nbits w 8 3) (nbits w 5 3)
  else if op = 0x31 ∨ op = 0x33 then true
  else if op = 0x32 then iRd w == 0
  else if op = 0x3B then nbits w 3 4 == 0 && dropCode (nbits w 19 6) (nbits w 11 8)
  else if 0x38 ≤ op ∧ op ≤ 0x3C then nbits w 3 4 == 0
  else if op = 0x40 then decide (iFn w < 8)
  else if op = 0x48 then decide (iFn w < 3)
  else if op = 0x70 then nbits w 3 5 == 0 && !(decide (16 ≤ nbits w 8 5) && decide (nbits w 8 5 ≤ 23))
  else false

/-- The classes slot B takes (Table 06.1). -/
def slotBLoads (w : Nat) : Bool := decide (iOp w ≤ 0x0C) || (decide (0x10 ≤ iOp w) && decide (iOp w ≤ 0x12)) || iOp w == 0x28

/-- The general register a word writes; g0 never conflicts. -/
def regWritten (w : Nat) : Nat :=
  let op := iOp w
  if (0x01 ≤ op ∧ op ≤ 0x0C) ∨ op = 0x18 ∨ op = 0x19 ∨ op = 0x20 ∨ op = 0x28 ∨ op = 0x30 ∨ op = 0x31 then iRd w
  else if op = 0x40 then (if iFn w = 1 then 0 else iRd w)
  else if op = 0x48 then (if iFn w = 2 then iRd w else 0)
  else if op = 0x70 then nbits w 8 5
  else 0

/-- The predicates a word writes, p0 apart; PRED is all of them. -/
def predsWritten (w : Nat) : List Nat :=
  let op := iOp w
  if 0x10 ≤ op ∧ op ≤ 0x12 then [iPt w, iPf w].filter (· != 0)
  else if op = 0x30 then [nbits w 8 3, nbits w 5 3].filter (· != 0)
  else if op = 0x29 ∧ nbits w 3 12 = 0x108 then [1, 2, 3, 4, 5, 6, 7]
  else []

/-- A bundle that the load accepts (R172, R173). -/
def bundleLoads (n : Nat) (b : Nat × Nat) : Bool :=
  wordLoads n b.1 && wordLoads n b.2 && slotBLoads b.2 &&
  (regWritten b.1 != regWritten b.2 || regWritten b.1 == 0) &&
  (predsWritten b.1).all (fun p => !(predsWritten b.2).contains p)

/-- Code of a program or an image as its bundles: slot A first, each word little-endian (R171). -/
def codeOf : Nat → Bytes → List (Nat × Nat)
  | 0, _ => []
  | n + 1, b => (leNat (slice b 0 4), leNat (slice b 4 4)) :: codeOf n (b.drop 8)

/-- Every bundle of a code loads. -/
def codeLoads (code : List (Nat × Nat)) : Bool := code.all (bundleLoads code.length)

end Sys2Proof.Machine
end

