-- ==== Sys2Proof/Machine/Ptp.lean ====
section
/-! DEFINITION. The transparent clock (R347 to R350): how a residence time reaches correctionField, and the pending Syncs of an egress port. -/
namespace Sys2Proof.Machine

/-- Replaces n bytes at an offset by a number. -/
def putBe (b : Bytes) (off n v : Nat) : Bytes := overlay b off (natBe n v)

/-- The ones' complement sum of the 16-bit words of a byte list that starts at an even offset of its checksum. -/
def sum16 : Bytes → Nat
  | a :: b :: t => (a.toNat * 256 + b.toNat + sum16 t) % 65535
  | [a] => a.toNat * 256
  | [] => 0

/-- Swaps the bytes of a 16-bit word. -/
def swap16 (n : Nat) : Nat := n % 256 * 256 + n / 256 % 256

/-- correctionField after r units of 2^-16 ns are added, as a signed 64-bit sum (R348). -/
def addCorrection (b : Bytes) (p : PtpAt) (r : Int) : Bytes :=
  putBe b (p.hdr + 8) 8 (unsigned 64 (signed 64 (beNat (slice b (p.hdr + 8) 8)) + r))

/-- UDP/IPv6: the two trailing bytes that keep the checksum right; none where the UDP payload has no room behind the message. -/
def fixV6 (old new : Bytes) (p : PtpAt) : Option Bytes :=
  let len := b16 old (p.hdr + 2)
  if b16 old (p.udp + 4) < 8 + len + 2 ∨ old.length < p.hdr + len + 2 then none
  else
    let before := sum16 (slice old (p.hdr + 8) 8)
    let after := sum16 (slice new (p.hdr + 8) 8)
    let t := b16 old (p.hdr + len)
    let t := if len % 2 = 1 then swap16 t else t
    let t' := (t + 65535 + before - after) % 65535
    some (putBe new (p.hdr + len) 2 (if len % 2 = 1 then swap16 t' else t'))

/-- The message with its correction; none where it passes uncorrected. -/
def corrected (b : Bytes) (p : PtpAt) (r : Int) : Option Bytes :=
  let new := addCorrection b p r
  if p.ip = 4 then some (putBe new (p.udp + 6) 2 0) else if p.ip = 6 then fixV6 b new p else some new

/-- What matches a Follow_Up to its Sync: sourcePortIdentity, domain, sequenceId. -/
def syncKey (b : Bytes) (p : PtpAt) : Bytes := slice b (p.hdr + 20) 10 ++ slice b (p.hdr + 4) 1 ++ slice b (p.hdr + 30) 2

/-- twoStepFlag of a message. -/
def twoStep (b : Bytes) (p : PtpAt) : Bool := nbit (b8 b (p.hdr + 6)) 1

def uncorrected (b : Bytes) (s : State) : Bytes × State := (b, bump Reg.TIM_CNT_PTP_UNCORR 1 s)

def tryCorrect (b : Bytes) (p : PtpAt) (r : Int) (s : State) : Bytes × State :=
  match corrected b p r with
  | some b' => (b', bump Reg.TIM_CNT_PTP_CORR 1 s)
  | none => uncorrected b s

/-- A Sync waits for its Follow_Up; the port keeps 64. -/
def pendSync (e : Nat) (k : Bytes) (r : Nat) (s : State) : State :=
  let l := tget nil0 s.time.syncs e ++ [(k, r)]
  { s with time := { s.time with syncs := tput nil0 s.time.syncs e (l.drop (l.length - 64)) } }

/-- A message leaves for egress e with residence time r in units of 2^-16 ns: an event message takes r, a two-step Sync leaves r for its Follow_Up. `no` says that no residence is known (R350, R356). Frames without a PTP message pass. -/
def residence (e : Nat) (b : Bytes) (r : Nat) (no : Bool) (s : State) : Bytes × State :=
  match ptpFind s b with
  | none => (b, s)
  | some p =>
    if ptpType b p = 8 then
      match (tget nil0 s.time.syncs e).find? (fun x => x.1 == syncKey b p) with
      | some x => tryCorrect b p x.2 { s with time := { s.time with syncs := tput nil0 s.time.syncs e ((tget nil0 s.time.syncs e).erase x) } }
      | none => uncorrected b s
    else if (ptpEvent s b).isNone then (b, s)
    else if no then uncorrected b s
    else if ptpType b p = 0 ∧ twoStep b p then (b, pendSync e (syncKey b p) r s)
    else tryCorrect b p r s

/-- A TIME_SET step came after a frame (Table 13.4). -/
def steppedSince (s : State) (inAt : Nat) : Bool := inAt != s.time.steps

/-- Residence in units of 2^-16 ns between two instants in units of 250 ps. -/
def residenceOf (later earlier : Nat) : Nat := (later - earlier) * 16384

/-- TIM_STATUS.STATE is LOCKED. -/
def locked (s : State) : Bool := s.fld Reg.TIM_STATUS Fd.TIM_STATUS_STATE == 1

/-- What a client MAC makes of a frame as it starts (Table 13.2): the residence from the line timestamp, or from the shim's TSTAMP (R350). -/
def atEgress (e : Nat) (f : QFrame) (s : State) : Bytes × State :=
  let now := s.time.now * 4
  if f.tsKind = 1 then residence e f.data (residenceOf now f.ts) (steppedSince s f.inAt) s
  else if f.tsKind = 2 then
    let r := (now + 2 ^ 32 - f.ts) % 2 ^ 32
    residence e f.data (r * 16384) (steppedSince s f.inAt || !locked s || decide (2 ^ 31 ≤ r)) s
  else if f.tsKind = 3 then residence e f.data 0 true s
  else (f.data, s)

end Sys2Proof.Machine
end

