-- ==== Sys2Proof/Machine/Deliver.lean ====
section
/-! DEFINITION. What follows the screen on the way to a client queue: the command gate (R321 to R338), the crosscut buffer (R378, R379) and elimination (R380). -/
namespace Sys2Proof.Machine

/-- A frame on its way to a queue: its colour, the index of its deciding rule, the elimination stream its shim names. -/
structure Bound where
  frame : QFrame
  queue : Nat
  color : Nat
  rule : Option Nat
  stream : Option Nat
  reserved : Bool

def Bound.admitIn (x : Bound) (wrOk : Bool) (s : State) : State := admitFrame x.queue ⟨x.frame, x.color, x.reserved, wrOk⟩ s
def Bound.drop (x : Bound) (reason : Nat) (s : State) : State := frameDrop x.queue x.frame reason s

/-! The crosscut buffer (R378, R379) -/

def xcPort (s : State) (p : Nat) (f : Fld) : Nat := s.fld (Reg.TWN_XC_BIND p) f
def isRepl (s : State) (p : Nat) : Bool := decide (p < 32) && xcPort s p Fd.TWN_XC_BIND_REPL == 1
def isProxy (s : State) (p : Nat) : Bool := decide (p < 32) && xcPort s p Fd.TWN_XC_BIND_PROXY == 1

/-- The shim of Table 14.11. -/
def xcShim (len dir cls : Nat) (yellow : Bool) (port : Nat) (stream : Option Nat) : Nat :=
  len * 2 ^ 50 + dir * 2 ^ 48 + cls * 2 ^ 45 + b2n yellow * 2 ^ 44 + port * 2 ^ 39 +
    (match stream with | some x => 2 ^ 38 + x * 2 ^ 28 | none => 0)

def xcBytes (s : State) : Nat := (s.twin.xcBuf.map (fun e => 8 + e.data.length)).sum

/-- A frame joins the crosscut buffer, or finds its 4 MiB full. -/
def xcPut (x : XcCopy) (s : State) : Bool × State :=
  if 4 * 2 ^ 20 < xcBytes s + 8 + x.data.length then (false, s)
  else (true, { s with twin := { s.twin with
    xcBuf := s.twin.xcBuf ++ [x], xcAt := if s.twin.xcBuf = [] then s.time.up else s.twin.xcAt } })

/-- The copy a REPL port makes of an R-TAG frame (R378): nothing while the session is down or above 16,000 bytes. -/
def xcCopy (port flags : Nat) (data : Bytes) (cls : Nat) (yellow : Bool) (d : Drop) (s : State) : State :=
  if isRepl s port && hasFlag flags 0x040 && s.twin.link.up && decide (data.length ≤ 16000) then
    let (ok, s) := xcPut ⟨xcShim data.length 0 cls yellow (xcPort s port Fd.TWN_XC_BIND_PEER_PORT) none, data, port, d.queue⟩ s
    if ok then s else bump Reg.TWN_CNT_XC_DROP 1 (dropped d s)
  else s

/-! Elimination (R380) -/

/-- Where an R-TAG lies. -/
def rtagAt (s : State) (b : Bytes) : Option Nat := if etype s b = 0xF1C1 ∧ l2Off s b + 6 ≤ b.length then some (l2Off s b) else none
def rtagSeq (b : Bytes) (off : Nat) : Nat := b16 b (off + 4)

def elimF (s : State) (x : Nat) (f : Fld) : Nat := s.fld (Reg.TWN_ELIM_CFG x) f

/-- The stream of a frame: the one its shim names, else the first valid one whose RULE decided it. -/
def streamOf (s : State) (x : Bound) : Option Nat :=
  match rtagAt s x.frame.data with
  | none => none
  | some _ =>
    match x.stream with
    | some n => if elimF s n Fd.TWN_ELIM_CFG_VALID = 1 then some n else none
    | none => match x.rule with
      | some r => (List.range 1024).find? (fun n => elimF s n Fd.TWN_ELIM_CFG_VALID == 1 && elimF s n Fd.TWN_ELIM_CFG_RULE == r)
      | none => none

/-- The vector recovery algorithm of IEEE 802.1CB: the recovery state after a sequence number that is accepted; none where it is discarded. -/
def elimStep (e : Option Elim) (hist seq now : Nat) : Option Elim :=
  match e with
  | none => some ⟨seq, 1, now⟩
  | some e =>
    let d := (seq + 65536 - e.latest) % 65536
    if d = 0 then none
    else if d < 32768 then
      if hist ≤ d then none else some ⟨seq, (e.hist * 2 ^ d + 1) % 2 ^ hist, now⟩
    else
      let back := 65536 - d
      if hist ≤ back ∨ nbit e.hist back then none else some ⟨e.latest, e.hist + 2 ^ back, now⟩

def elimOf (s : State) (n : Nat) : Option Elim := tget none0 s.twin.elims n
def setElim (n : Nat) (e : Option Elim) (s : State) : State := { s with twin := { s.twin with elims := tput none0 s.twin.elims n e } }

/-- Elimination would accept a frame of the stream. -/
def elimAccepts (s : State) (n : Nat) (b : Bytes) (off : Nat) : Bool :=
  (elimStep (elimOf s n) (elimF s n Fd.TWN_ELIM_CFG_HISTORY) (rtagSeq b off) s.time.up).isSome

def stripAt (b : Bytes) (off n : Nat) : Bytes := b.take off ++ b.drop (off + n)

/-- Step 7b and admission: a frame of an elimination stream is accepted, its R-TAG removed where STRIP says, or dropped with ELIM_DUP. -/
def eliminate (x : Bound) (wrOk : Bool) (s : State) : State :=
  match streamOf s x, rtagAt s x.frame.data with
  | some n, some off =>
    match elimStep (elimOf s n) (elimF s n Fd.TWN_ELIM_CFG_HISTORY) (rtagSeq x.frame.data off) s.time.up with
    | some e =>
      let b := if elimF s n Fd.TWN_ELIM_CFG_STRIP = 1 then stripAt x.frame.data off 6 else x.frame.data
      ({ x with frame := { x.frame with data := b } } : Bound).admitIn wrOk (setElim n (some e) s)
    | none => bump Reg.TWN_CNT_ELIM_DUP 1 (x.drop 0x17 s)
  | _, _ => x.admitIn wrOk s

/-- After the gate: a frame for a PROXY port crosses the crosscut, every other goes to elimination. A frame that finds the session down or is longer than 16,000 bytes is lost like one that finds the buffer full (log entry 38). -/
def afterGate (x : Bound) (wrOk : Bool) (s : State) : State :=
  let p := x.queue / 8
  if x.queue < 256 ∧ isProxy s p then
    let shim := xcShim x.frame.data.length 1 x.frame.cls x.frame.yellow (xcPort s p Fd.TWN_XC_BIND_PEER_PORT) (streamOf s x)
    let (ok, s) := if s.twin.link.up && decide (x.frame.data.length ≤ 16000) then xcPut ⟨shim, x.frame.data, x.frame.port, some x.queue⟩ s else (false, s)
    if ok then s else bump Reg.TWN_CNT_XC_DROP 1 (x.drop 0x02 s)
  else eliminate x wrOk s

/-! The command gate (R321 to R338) -/

/-- The seal's fields (Table 12.1). -/
structure Seal where
  len : Nat
  sig : Bytes
  keyId : Nat
  counter : Nat
  alg : Nat
  cover : Nat
  deriving DecidableEq, Repr

/-- The well-formed seal at the end of a frame (R323, R325). -/
def sealOf (b : Bytes) : Option Seal :=
  let n := b.length
  let alg := b8 b (n - 4)
  let t := if alg = 1 then 80 else 112
  if n < 16 ∨ b16 b (n - 2) ≠ 0x4353 ∨ (alg ≠ 1 ∧ alg ≠ 2) ∨ 2 ≤ b8 b (n - 3) ∨ beNat (slice b (n - 12) 8) = 0 ∨ n < t + 14 then none
  else some ⟨t, slice b (n - t) (t - 16), beNat (slice b (n - 16) 4), beNat (slice b (n - 12) 8), alg, b8 b (n - 3)⟩

/-- The signed message M (R324). -/
def sealedMsg (s : State) (b : Bytes) (x : Seal) : Bytes :=
  let from_ := if x.cover = 1 then l2Off s b else 0
  ascii "BD3208 CMD" ++ (b.take (b.length - x.len)).drop from_ ++ slice b (b.length - 16) 16

def gkey (s : State) (id : Nat) : Option GKey := tget none0 s.gate.keys id
def flowF (s : State) (f : Nat) (x : Fld) : Nat := s.fld (Reg.GATE_FLOW_CFG f) x
/-- The gate flow of a rule (R328). -/
def flowOf (s : State) (rule : Option Nat) : Option Nat :=
  match rule with
  | some r => (List.range 1024).find? (fun f => flowF s f Fd.GATE_FLOW_CFG_VALID == 1 && flowF s f Fd.GATE_FLOW_CFG_RULE == r)
  | none => none

/-- Counters a drop adds to: the global one, the flow's, and its event; data names flow, key id, counter and port (R341). -/
def gateCount (reason : Nat) (flow : Option Nat) (vals : List Nat) (s : State) : State :=
  let (g, f, ev) :=
    if reason = 0x12 then (Reg.GATE_CNT_UNSIGNED, Reg.GATE_FCNT_UNSIGNED, Ev.GATE_UNSIGNED)
    else if reason = 0x13 then (Reg.GATE_CNT_BADSIG, Reg.GATE_FCNT_BADSIG, Ev.GATE_BADSIG)
    else if reason = 0x14 then (Reg.GATE_CNT_REPLAY, Reg.GATE_FCNT_REPLAY, Ev.GATE_REPLAY)
    else (Reg.GATE_CNT_RATE, Reg.GATE_FCNT_RATE, Ev.GATE_RATE)
  let s := bump g 1 s
  let s := match flow with | some k => bump (f k) 1 s | none => s
  event ev vals s

/-- A refused frame of the gate. -/
def gateDrop (x : Bound) (reason : Nat) (flow : Option Nat) (keyId counter : Nat) (s : State) : State :=
  gateCount reason flow [flow.getD 0xFFFF, keyId, counter, x.frame.port] (x.drop reason s)

/-- A counter is acceptable to a key's window (R333); the floor never lets one above 2^64 - 1 pass. -/
def acceptable (k : GKey) (c : Nat) : Bool := decide (k.n < c) || (decide (c + 63 ≥ k.n) && decide (c ≤ k.n) && !nbit k.map (k.n - c))

/-- A key's window after a release: bit i of the map stands for N - i. -/
def windowSet (k : GKey) (c : Nat) : GKey :=
  if k.n < c then { k with n := c, map := (if c - k.n < 64 then k.map * 2 ^ (c - k.n) % 2 ^ 64 else 0) ||| 1 }
  else { k with map := setNbit k.map (k.n - c) true }

/-- Tokens of a gate flow now, in 10^-9 (R332). -/
def gateTokens (s : State) (f : Nat) : Nat :=
  min (flowF s f Fd.GATE_FLOW_CFG_BURST * 1000000000)
    (tget nat0 s.gate.tokens f + s.fld (Reg.GATE_FLOW_RATE f) Fd.GATE_FLOW_RATE_RATE * (s.time.up - tget nat0 s.gate.tokenAt f))

def setGateTokens (f v : Nat) (s : State) : State :=
  { s with gate := { s.gate with tokens := tput nat0 s.gate.tokens f v, tokenAt := tput nat0 s.gate.tokenAt f s.time.up } }

def gentry (s : State) (k : Nat) : Option GEntry := tget none0 s.gate.entries k
def setGentry (k : Nat) (e : Option GEntry) (s : State) : State := { s with gate := { s.gate with entries := tput none0 s.gate.entries k e } }

/-- A gate-queue entry lies in no withheld sector (R288). -/
def entryWhole (s : State) (k : Nat) : Bool := s.mem.withheld.all (fun n => !(decide (gateAt k ≤ 256 * n) && decide (256 * n < gateAt (k + 1))))

/-- The lowest free gate-queue entry. -/
def freeEntry (s : State) : Option Nat :=
  (List.range (s.gate.entries.length + s.mem.withheld.length + 1)).find? (fun k => decide (k < 16384) && (gentry s k).isNone && entryWhole s k)

def stagingUsed (s : State) : Nat :=
  (s.gate.entries.map (fun e => match e.2 with | some g => if g.frame.hbm then 0 else g.frame.data.length | none => 0)).sum

/-- A frame that passed check 6 takes its entry: staging SRAM while its 2 MiB have room, else the entry's area under the region's key. -/
def gateHold (x : Bound) (k f : Nat) (sl : Seal) (wrOk : Bool) (s : State) : State :=
  let hbm := decide (2 * 2 ^ 20 < stagingUsed s + x.frame.data.length)
  if hbm && !wrOk then x.drop 0x0F s
  else
    let i := regionKey s 4
    let cells := if hbm then (List.range (ceilDiv x.frame.data.length 256)).map (gateAt k / 256 + ·) else []
    let fr := { x.frame with hbm := hbm, resv := true, mkey := i, kgen := kgenOf s i, cells := cells }
    let e : GEntry := ⟨f, x.rule.getD 0, fr, x.queue, sl.keyId, sl.counter, sl.alg, sl.sig, sealedMsg s x.frame.data sl, none, s.gate.nextSeq, s.time.up,
      s.time.up + 1000000 * s.fld Reg.GATE_CFG Fd.GATE_CFG_MAX_WAIT, s.fld Reg.GATE_CFG Fd.GATE_CFG_RESERVE⟩
    let s := setGentry k (some e) (storeCells cells i s)
    { s with gate := { s.gate with nextSeq := s.gate.nextSeq + 1 } }

/-- A copy of a frame already released, where elimination is enabled for its flow (R338). -/
def gateCopy (x : Bound) (n : Nat) (f : Nat) (sl : Seal) (s : State) : State :=
  match rtagAt s x.frame.data with
  | some off =>
    if elimAccepts s n x.frame.data off then gateDrop x 0x14 (some f) sl.keyId sl.counter s
    else bump Reg.TWN_CNT_ELIM_DUP 1 (x.drop 0x17 s)
  | none => gateDrop x 0x14 (some f) sl.keyId sl.counter s

/-- Check 6, for a frame that has a token and a free entry. -/
def gateCheck6 (x : Bound) (k f : Nat) (sl : Seal) (key : GKey) (wrOk : Bool) (s : State) : State :=
  if acceptable key sl.counter then gateHold x k f sl wrOk s
  else if s.gate.released.contains (sl.keyId, sl.counter, sl.sig) then
    match streamOf s x with
    | some n => gateCopy x n f sl s
    | none => gateDrop x 0x14 (some f) sl.keyId sl.counter s
  else gateDrop x 0x14 (some f) sl.keyId sl.counter s

/-- Checks 1 to 6 of Table 12.2, in order. -/
def gateEnter (x : Bound) (wrOk : Bool) (s : State) : State :=
  let flow := flowOf s x.rule
  match sealOf x.frame.data with
  | none => gateDrop x 0x12 flow 0 0 s
  | some sl =>
    match flow with
    | none => gateDrop x 0x12 none sl.keyId sl.counter s
    | some f =>
      match gkey s sl.keyId with
      | none => gateDrop x 0x13 (some f) sl.keyId sl.counter s
      | some key =>
        if key.alg ≠ sl.alg ∨ key.sets &&& flowF s f Fd.GATE_FLOW_CFG_SETS = 0 then gateDrop x 0x13 (some f) sl.keyId sl.counter s
        else if gateTokens s f < 1000000000 then gateDrop x 0x15 (some f) sl.keyId sl.counter s
        else
          let s := setGateTokens f (gateTokens s f - 1000000000) s
          match freeEntry s with
          | none => gateDrop x 0x15 (some f) sl.keyId sl.counter s
          | some k => gateCheck6 x k f sl key wrOk s

/-- A verified frame bound for a client port: through the gate where its rule designates it, else on (Table 01.2, steps 7a to 8). -/
def deliver (x : Bound) (gated : Bool) (wrOk : Bool) (s : State) : State :=
  if gated then gateEnter x wrOk s else afterGate x wrOk s

end Sys2Proof.Machine
end

