-- ==== Sys2Proof/Machine/Ingress.lean ====
section
/-! DEFINITION. Frames as they arrive at a client or line MAC (R12, R34 to R39, R47, R141, R142): classification, policing, punts and the domain backlog. -/
namespace Sys2Proof.Machine

/-! Received pause (R271) -/

/-- ns that a paused class has been held and that Q_CNT_PAUSED_US does not count yet. -/
def pausedFor (s : State) (x : Queue) : Nat := x.pausedNs + (s.time.up - x.pausedAt)

/-- A pause of a class ends: the time held is counted in µs, and what is left of a µs is kept. -/
def endPause (p c : Nat) (s : State) : State :=
  let q := queueAt p c
  let x := queueOf s q
  match x.pausedUntil with
  | some _ => bump (Reg.Q_CNT_PAUSED_US q) (pausedFor s x / 1000)
      (setQueue q { x with pausedUntil := none, pausedLong := false, pausedNs := pausedFor s x % 1000 } s)
  | none => s

/-- A class is paused for a number of quanta of 512 bit times at the port's rate; 0 ends the pause. -/
def pauseClass (p c quanta : Nat) (s : State) : State :=
  if quanta = 0 then endPause p c s
  else
    let q := queueAt p c
    let x := queueOf s q
    let till := s.time.up + ceilDiv (quanta * 512000) (max 1 (portRate s p))
    setQueue q { x with pausedUntil := some till, pausedAt := if x.pausedUntil.isSome then x.pausedAt else s.time.up } s

/-- A received PAUSE frame: all classes while PAUSE_RX = 1. -/
def takePause (p quanta : Nat) (s : State) : State :=
  if pfcField s p Fd.WND_PFC_CFG_PAUSE_RX = 1 then (List.range 8).foldl (fun s c => pauseClass p c quanta s) s else s

/-- A received PFC frame: the named priorities that RX_EN enables. -/
def takePfc (p en : Nat) (quanta : Nat → Nat) (s : State) : State :=
  ((List.range 8).filter (fun c => nbit en c && nbit (pfcField s p Fd.WND_PFC_CFG_RX_EN) c)).foldl (fun s c => pauseClass p c (quanta c) s) s

/-! Work items -/

/-- A work item of a domain with nothing assigned yet. -/
def newItem (dom port : Nat) (data : Bytes) (ts : Nat) : Item :=
  { dom := dom, port := port, data := data, len := data.length, cls := 0, color := 0, assoc := none, queue := 0, epoch := 0, an := 0, pn := 0
    tag := 0, rule := 0, flags := 0, ts := ts, trib := 0, fn := 0, res := 0, gal := 0, st := .waiting, key := none, noKey := none
    counted := false, loaded := 0, salt := 0, ssci := 0, tagOff := 0, tci := 0, pn32 := 0, sci := 0, txAssoc := 0, at_ := 0, ptpAt := none
    ctrl := 0, target := 0, rx := [], passed := false, inAt := 0, mscCfg := 0, tpid := 0
    mkey := 0, kgen := 0, kepoch := 0, hdr := [], path := 0, gone := none, sealBy := none, cells := [] }

/-- The registers of a line port that a classified frame finishes under (R66). -/
def captured (p : Nat) (it : Item) (s : State) : Item := { it with mscCfg := s.reg (Reg.MSC_PORT_CFG (p - 32)), tpid := s.reg Reg.MSC_TPID }

/-! Domain backlogs (R141, R142) -/

def domF (s : State) (d : Nat) (f : Fld) : Nat := s.fld (Reg.GAL_DOM_CFG d) f
def backlogOf (s : State) (d : Nat) : List Item := tget nil0 s.gal.backlog d
def setBacklog (d : Nat) (l : List Item) (s : State) : State := { s with gal := { s.gal with backlog := tput nil0 s.gal.backlog d l } }
/-- Bytes of a domain that wait for dispatch. -/
def backlogBytes (s : State) (d : Nat) : Nat := ((backlogOf s d).map (fun it => it.len)).sum

/-- A client port's domain crosses BACKLOG_XOFF or BACKLOG_XON (R142; log entry 33 for a backlog equal to the threshold). -/
def backlogPfc (d : Nat) (s : State) : State :=
  let b := backlogBytes s d
  if 32 ≤ d then s
  else if s.gal.paused.contains d then
    if b < 1024 * domF s d Fd.GAL_DOM_CFG_BACKLOG_XON ∨ pfcField s d Fd.WND_PFC_CFG_TX_EN = 0 then
      pfcOff d (List.range 8) { s with gal := { s.gal with paused := s.gal.paused.erase d } }
    else s
  else if pfcField s d Fd.WND_PFC_CFG_TX_EN ≠ 0 ∧ 1024 * domF s d Fd.GAL_DOM_CFG_BACKLOG_XOFF < b then
    pfcOn d (List.range 8) { s with gal := { s.gal with paused := s.gal.paused ++ [d] } }
  else s

/-- The domain has room for an item of a length. -/
def backlogRoom (s : State) (d len : Nat) : Bool := decide (backlogBytes s d + len ≤ 1024 * domF s d Fd.GAL_DOM_CFG_BACKLOG_MAX)

def backlogPush (it : Item) (s : State) : State := backlogPfc it.dom (setBacklog it.dom (backlogOf s it.dom ++ [{ it with inAt := s.time.steps }]) s)

/-- An item enters its domain's backlog, or is dropped whole with ENGINE_BACKLOG. -/
def backlogEnter (it : Item) (s : State) : State := if backlogRoom s it.dom it.len then backlogPush it s else itemDrop it 0x10 s

/-! Client ingress (Table 01.1, steps 1 to 4) -/

/-- A drop before a queue was chosen. -/
def earlyDrop (port : Nat) (assoc : Option Nat) (ts : Nat) (data : Bytes) (reason : Nat) : Drop := ⟨port, reason, none, assoc, port, ts, data⟩

/-- Class and colour that a copy from the crosscut brings along, in place of the ones the port would give (log entry 39). -/
structure Brought where
  cls : Nat
  yellow : Bool

def colourOf (p : Nat) (br : Option Brought) (k : Class) (data : Bytes) (s : State) : Nat × State :=
  match br with | some b => (b2n b.yellow, s) | none => police p k data s

/-- A policed client frame of a port bound to tributaries: into its tributary queue. -/
def toTributary (p t : Nat) (k : Class) (cls color : Nat) (data : Bytes) (ts : Nat) (wrOk : Bool) (s : State) : State :=
  let q := queueFor s p k (64 + t) cls
  let f : QFrame := ⟨data, p, cls, color == 1, false, k.flags, ts, some (tribAssoc s 0 t), false, 0, 0, s.time.up, none, false, [], 0, s.time.steps, none, false, []⟩
  admitFrame q ⟨f, color, isControlFlags k.flags, wrOk⟩ s

/-- A policed client frame of a port bound to an Ethernet-mode line port: into its domain's backlog. -/
def toDomain (p line a : Nat) (k : Class) (cls color : Nat) (data : Bytes) (ts : Nat) (s : State) : State :=
  let it := newItem p p data ts
  let it := { it with cls := cls, color := color, assoc := some a, queue := queueFor s p k (32 + line) cls, rule := k.rule, flags := k.flags, res := k.res, target := 32 + line }
  backlogEnter (captured (32 + line) it s) s

/-- A client frame that the MAC forwards, and a copy that enters at a PROXY port (R378). -/
def clientIngress (p : Nat) (br : Option Brought) (data : Bytes) (ts : Nat) (wrOk : Bool) (s : State) : State :=
  let (k, s) := classify p data true s
  let d := earlyDrop p none ts data
  if fget k.res RR.DROP = 1 then dropped (d 0x09) s
  else
    let s := learnEvent (peerKey (outerVid s data) (sa data)) p (learnRes p 0) s
    let cls := match br with | some b => b.cls | none => classOf s p k data
    if lineFramed s p then
      let t := if fget k.res RR.TRIB_VALID = 1 then fget k.res RR.TRIB else s.fld (Reg.TBL_PORT_CFG p) Fd.TBL_PORT_CFG_DEF_TRIB
      if !(tribOn s 0 t && tribClient s 0 t == p) then dropped (d 0x09) s
      else
        let (color, s) := colourOf p br k data (requestAssoc (tribAssoc s 0 t) s)
        let note : Drop := ⟨p, 0x01, some (queueFor s p k (64 + t) cls), some (tribAssoc s 0 t), p, ts, data⟩
        if color = 2 then dropped note s
        else toTributary p t k cls color data ts wrOk (xcCopy p k.flags data cls (color == 1) { note with reason := 0x02 } s)
    else match boundLine s p with
      | none => dropped (d 0x09) s
      | some line =>
        match clientAssoc s p line k with
        | none => dropped (d 0x09) s
        | some a =>
          let (color, s) := colourOf p br k data (requestAssoc a s)
          let note : Drop := ⟨p, 0x01, some (queueFor s p k (32 + line) cls), some a, p, ts, data⟩
          if color = 2 then dropped note s
          else toDomain p line a k cls color data ts (xcCopy p k.flags data cls (color == 1) { note with reason := 0x02 } s)

/-- What the MAC of a client port makes of a frame (Table 11.6). -/
def clientMac (p : Nat) (data : Bytes) (chk : RxCheck) (ts : Nat) (ecc : List (Nat × Nat)) (wrOk : Bool) (s : State) : State :=
  let s := macCountRx p data chk s
  match macClass s p data chk with
  | .drop r => dropped (earlyDrop p none ts data r) s
  | .discard => s
  | .pause => takePause p (b16 data 16) s
  | .pfc => takePfc p (b8 data 17) (fun c => b16 data (18 + 2 * c)) s
  | .forward => clientIngress p none data ts wrOk (tableEcc ecc s)

/-- CLIENT_FRAME_RX (R12, R30): a whole frame arrives on a client port that is up, whatever its line port does. -/
def execClientFrameRx (port : Fin 32) (data : Bytes) (chk : RxCheck) (ts : Nat) (ecc : List (Nat × Nat)) (wrOk : Bool) (s : State) : Ans :=
  .next (onlyIf (s.live && s.mode == 2 && portUp s port.val) (clientMac port.val data chk ts ecc wrOk) s)

/-- PFC_RX (R271): a PAUSE or PFC frame is received; on a line port it is discarded. -/
def pfcFrame (p : Nat) (pause : Option Nat) (en : Nat) (quanta : Nat → Nat) (s : State) : State :=
  let size := bump (Reg.MAC_CNT_RX_SIZE p 0) 1
  if 32 ≤ p then bump (Reg.MAC_CNT_RX_CTRL_DISCARD p) 1 (size s)
  else match pause with
    | some q => takePause p q (bump (Reg.MAC_CNT_RX_PAUSE p) 1 (size s))
    | none => takePfc p en quanta ((List.range 8).foldl (fun s c => if nbit en c then bump (Reg.MAC_CNT_RX_PFC p c) 1 s else s) (size s))

def execPfcRx (port : Fin 64) (pause : Option (BitVec 16)) (en : Byte) (quanta : List (BitVec 16)) (s : State) : Ans :=
  .next (onlyIf (trafficOn s && portUp s port.val)
    (pfcFrame port.val (pause.map (·.toNat)) en.toNat (fun c => (quanta.getD c 0).toNat)) s)

/-- PAUSE_EXPIRE (R271): the pause time of a class has run out. -/
def execPauseExpire (port : Fin 32) (cls : Fin 8) (s : State) : Ans :=
  let x := queueOf s (queueAt port.val cls.val)
  .next (onlyIf (s.live && (match x.pausedUntil with | some t => decide (t ≤ s.time.up) | none => false)) (endPause port.val cls.val) s)

/-- PAUSE_LONG (R277): a class has been held for 100 ms without a break. -/
def execPauseLong (port : Fin 32) (cls : Fin 8) (s : State) : Ans :=
  let q := queueAt port.val cls.val
  let x := queueOf s q
  .next (onlyIf (s.live && x.pausedUntil.isSome && !x.pausedLong && decide (x.pausedAt + 100000000 ≤ s.time.up))
    (fun s => event Ev.PAUSE_LONG [port.val, q] (setQueue q { x with pausedLong := true } s)) s)

/-- PFC_REFRESH (R270): PFC is sent again every QUANTA / 2 while the part holds the priority. -/
def execPfcRefresh (port : Fin 32) (cls : Fin 8) (s : State) : Ans :=
  .next (onlyIf (trafficOn s && priorityHeld s port.val cls.val && pfcDue s port.val cls.val)
    (fun s => sendPfc port.val cls.val (pfcField s port.val Fd.WND_PFC_CFG_QUANTA) s) s)

/-! Line ingress in Ethernet mode (Table 02.5) -/

def mscF (s : State) (line : Nat) (f : Fld) : Nat := s.fld (Reg.MSC_PORT_CFG line) f
def macsecOn (s : State) (line : Nat) : Bool := mscF s line Fd.MSC_PORT_CFG_MACSEC_EN == 1

/-- TCI bits of a SecTAG at an offset. -/
def tciBit (b : Bytes) (off i : Nat) : Bool := nbit (b8 b (off + 2)) i
/-- Bytes of a SecTAG: 16 with the SCI, 8 without. -/
def secTagLen (b : Bytes) (off : Nat) : Nat := if tciBit b off 5 then 16 else 8

/-- The channel-independent tests of R38. A frame too short for its SecTAG and ICV fails them too, which the list of R38 does not name (log entry 114). -/
def badTag (s : State) (line : Nat) (b : Bytes) (off : Nat) : Bool :=
  let sl := b8 b (off + 3)
  let head := off + secTagLen b off + 16
  decide (b.length < head) || tciBit b off 7 || tciBit b off 4 || (tciBit b off 5 && tciBit b off 6) || (tciBit b off 3 && !tciBit b off 2) ||
  decide (48 ≤ sl) || (sl != 0 && sl != b.length - head) || decide (mscF s line Fd.MSC_PORT_CFG_CLEAR_TAGS < tagCount s b)

/-- The SCI of a SecTAG, explicit or implicit (R39); none when SC = 0 and the implicit value is looked for under InPktsNoSCI. -/
def frameSci (s : State) (line : Nat) (b : Bytes) (off : Nat) : Nat :=
  if tciBit b off 5 then beNat (slice b (off + 8) 8)
  else if tciBit b off 6 then sa b * 65536 + 1
  else (s.reg (Reg.MSC_PORT_SCI line)).toNat

/-- An EAPOL frame is punted by the classifier (R34). -/
def eapolPunt (line : Nat) (data : Bytes) (ts : Nat) (s : State) : State :=
  let (ok, s) := pushRx (mscF s line Fd.MSC_PORT_CFG_MKA_FN) ⟨1, 32 + line, 0, none, none, 32 + line, ts⟩ data s
  if ok then s else dropped (earlyDrop (32 + line) none ts data 0x02) s

/-- The item of a line frame that the classifier accepts, through policing into its backlog. -/
def lineItem (line client : Nat) (k : Class) (it : Item) (s : State) : State :=
  let p := 32 + line
  let cls := classOf s p k it.data
  let it := { it with cls := cls, queue := queueFor s p k client cls, rule := k.rule, flags := k.flags, res := k.res, target := client }
  let s := match it.assoc with | some a => requestAssoc a s | none => s
  let (color, s) := police p k it.data s
  if color = 2 then itemDrop { it with color := color } 0x01 s
  else backlogEnter (captured p { it with color := color } s) s

/-- Checks 2 to 4 of Table 02.5 on a well-formed SecTAG. -/
def taggedIngress (line client : Nat) (k : Class) (data : Bytes) (ts : Nat) (s : State) : State :=
  let p := 32 + line
  let off := l2Off s data
  let sci := frameSci s line data off
  let pn := beNat (slice data (off + 4) 4)
  let an := b8 data (off + 2) % 4
  match findSci s line sci with
  | none => dropped (earlyDrop p none ts data 0x09) (bumpMsc line (if tciBit data off 5 then MP.IN_UNKNOWN_SCI else MP.IN_NO_SCI) s)
  | some (_, e) =>
    let a := fget e.res ⟨0, 20⟩
    let r := arec s a
    if !(r.an an).valid then dropped (earlyDrop p (some a) ts data 0x09) (bumpAssoc a CN.NOT_USING 1 s)
    else if !xpn r.ctrl ∧ pn = 0 then dropped (earlyDrop p (some a) ts data 0x09) (bumpMsc line MP.IN_BAD_TAG s)
    else
      let it := newItem p p data ts
      lineItem line client k { it with assoc := some a, an := an, tagOff := off, tci := data.getD (off + 2) 0, pn32 := pn, sci := sci, txAssoc := e.res >>> 20 } s

/-- A frame without a SecTAG (R34, R35). -/
def untaggedIngress (line client : Nat) (k : Class) (data : Bytes) (ts : Nat) (s : State) : State :=
  let p := 32 + line
  if fget k.res RR.CLEAR_OK = 1 then lineItem line client k (newItem p p data ts) s
  else dropped (earlyDrop p none ts data 0x09) (bumpMsc line MP.IN_NO_TAG s)

/-- A frame that the classifier lets pass nowhere: NO_SA, and InPktsNoTag for one that counts as untagged (R35, R65). -/
def noWay (line : Nat) (tagged : Bool) (data : Bytes) (ts : Nat) (s : State) : State :=
  dropped (earlyDrop (32 + line) none ts data 0x09) (if tagged then s else bumpMsc line MP.IN_NO_TAG s)

/-- A frame that a line MAC forwards: rule, EAPOL, binding, SecTAG (R233, R34, R485, Table 02.5). -/
def lineIngress (line : Nat) (data : Bytes) (ts : Nat) (s : State) : State :=
  let p := 32 + line
  let tagged := macsecOn s line && etype s data == 0x88E5
  let (k, s) := classify p data (macsecOn s line) s
  if fget k.res RR.DROP = 1 then noWay line tagged data ts s
  else if !tagged && hasFlag k.flags fEapol then eapolPunt line data ts s
  else match boundClient s line with
    | none => noWay line tagged data ts s
    | some client =>
      if !tagged then untaggedIngress line client k data ts s
      else if badTag s line data (l2Off s data) then dropped (earlyDrop p none ts data 0x09) (bumpMsc line MP.IN_BAD_TAG s)
      else taggedIngress line client k data ts s

def lineMac (line : Nat) (data : Bytes) (chk : RxCheck) (ts : Nat) (ecc : List (Nat × Nat)) (s : State) : State :=
  let p := 32 + line
  let s := macCountRx p data chk s
  match macClass s p data chk with
  | .drop r => dropped (earlyDrop p none ts data r) s
  | .forward => lineIngress line data ts (tableEcc ecc s)
  | _ => s

/-- LINE_FRAME_RX (R47): a whole frame arrives on an Ethernet-mode line port that is up. -/
def execLineFrameRx (port : Fin 32) (data : Bytes) (chk : RxCheck) (ts : Nat) (ecc : List (Nat × Nat)) (s : State) : Ans :=
  .next (onlyIf (trafficOn s && portUp s (32 + port.val)) (lineMac port.val data chk ts ecc) s)

end Sys2Proof.Machine
end

