-- ==== Sys2Proof/Machine/Trunks.lean ====
section
/-! DEFINITION. Trunks of the line framer (R73, R96 to R101): their configuration, merge groups, and the start of an epoch change. -/
namespace Sys2Proof.Machine

def txCfg (s : State) (n : Nat) (f : Fld) : Nat := s.fld (Reg.LFR_TRUNK_CFG n) f
def rxCfg (s : State) (n : Nat) (f : Fld) : Nat := s.fld (Reg.LFR_TRUNK_RXCFG n) f
def txOn (s : State) (n : Nat) : Bool := txCfg s n Fd.LFR_TRUNK_CFG_EN == 1
def rxOn (s : State) (n : Nat) : Bool := rxCfg s n Fd.LFR_TRUNK_RXCFG_EN == 1

/-- Lanes of a WIDTH code; 5 to 7 are reserved. -/
def widthOf (c : Nat) : Nat := if c ≤ 4 then 2 ^ c else 0
def txWidth (s : State) (n : Nat) : Nat := widthOf (txCfg s n Fd.LFR_TRUNK_CFG_WIDTH)
def rxWidth (s : State) (n : Nat) : Nat := widthOf (rxCfg s n Fd.LFR_TRUNK_RXCFG_WIDTH)

/-- The trunk and lane-in-trunk that a line lane serves in a direction (width and enable by direction). -/
def laneIn (on : Nat → Bool) (width : Nat → Nat) (s : State) (lane : Nat) : Option (Nat × Nat) :=
  ((List.range 16).filter on).findSome? (fun n =>
    ((List.range (width n)).find? (fun i => trunkLane s n i == some lane)).map (fun i => (n, i)))

def laneTx (s : State) (lane : Nat) : Option (Nat × Nat) := laneIn (txOn s) (txWidth s) s lane
def laneRx (s : State) (lane : Nat) : Option (Nat × Nat) := laneIn (rxOn s) (rxWidth s) s lane

/-! Merge groups -/

def tribLinks (s : State) (dir : Nat) : List (Nat × Nat) :=
  ((List.range 64).filter (fun t => tribOn s dir t && tribMerge s dir t)).map (fun t => (tribTrunk s dir t, tribMate s dir t))

/-- The trunks that links join to those given; k rounds. -/
def grow (links : List (Nat × Nat)) : Nat → List Nat → List Nat
  | 0, g => g
  | k + 1, g => grow links k ((List.range 16).filter (fun n =>
      g.contains n || links.any (fun e => (e.1 == n && g.contains e.2) || (e.2 == n && g.contains e.1))))

/-- A trunk's merge group, lowest number first. -/
def groupOf (s : State) (dir n : Nat) : List Nat := grow (tribLinks s dir) 16 [n]
/-- The trunk that keeps the group's epoch count. -/
def leadOf (s : State) (dir n : Nat) : Nat := (groupOf s dir n).headD n

/-! Trunk state -/

def txTrunkOf (s : State) (n : Nat) : TxTrunk := tget txTrunk0 s.lfr.tx n
def setTxTrunk (n : Nat) (x : TxTrunk) (s : State) : State := { s with lfr := { s.lfr with tx := tput txTrunk0 s.lfr.tx n x } }
def rxTrunkOf (s : State) (n : Nat) : RxTrunk := tget rxTrunk0 s.lfr.rx n
def setRxTrunk (n : Nat) (x : RxTrunk) (s : State) : State := { s with lfr := { s.lfr with rx := tput rxTrunk0 s.lfr.rx n x } }

def txTribOf (s : State) (t : Nat) : TxTrib := tget txTrib0 s.lfr.txTribs t
def setTxTrib (t : Nat) (x : TxTrib) (s : State) : State := { s with lfr := { s.lfr with txTribs := tput txTrib0 s.lfr.txTribs t x } }
def rxTribOf (s : State) (t : Nat) : RxTrib := tget rxTrib0 s.lfr.rxTribs t
def setRxTrib (t : Nat) (x : RxTrib) (s : State) : State := { s with lfr := { s.lfr with rxTribs := tput rxTrib0 s.lfr.rxTribs t x } }

def epochTx (s : State) (n : Nat) : Nat := s.fld (Reg.LFR_TRUNK_EPOCH n) Fd.LFR_TRUNK_EPOCH_EPOCH_TX
def epochRx (s : State) (n : Nat) : Nat := s.fld (Reg.LFR_TRUNK_EPOCH n) Fd.LFR_TRUNK_EPOCH_EPOCH_RX

/-- Tributaries of a direction whose primary trunk lies in a list. -/
def tribsOn (s : State) (dir : Nat) (trunks : List Nat) : List Nat :=
  (List.range 64).filter (fun t => tribOn s dir t && trunks.contains (tribTrunk s dir t))

/-- An epoch change runs on the group of a transmit trunk. -/
def changing (s : State) (n : Nat) : Bool := (groupOf s 0 n).any (fun m => (txTrunkOf s m).announcing)

/-- An epoch change starts: ANN goes out on every trunk of the group, which it claims (R96, R225). -/
def announce (code fn t src seq n : Nat) (s : State) : State :=
  (groupOf s 0 n).foldl (fun s m =>
    addClaim ⟨.txTrunk m, code, fn, t, src, seq⟩ (setTxTrunk m { txTrunkOf s m with announcing := true, announced := 0, counted := false } s)) s

/-- An epoch change of the part's own (R101): not while one runs or another order holds a trunk of the group. -/
def autoEpoch (n : Nat) (s : State) : State :=
  if changing s n || (groupOf s 0 n).any (fun m => (claimOn s (.txTrunk m)).isSome) then s else announce 0x004 0 0 3 0 n s

end Sys2Proof.Machine
end

