-- ==== Sys2Proof/Machine/Dispatcher.lean ====
section
/-! DEFINITION. The dispatcher (R22 to R24, R44, R46, R55, R94, R143 to R145, R486) and the end of a fill (R123, R124). -/
namespace Sys2Proof.Machine

/-! The key of an entry (Table 04.7 check 1, R122, R484) -/

/-- The handle a key-map word names when it is blob-backed. -/
def AnEnt.handle (e : AnEnt) : Option Nat := if nbit e.map.toNat 20 then some (nbits e.map.toNat 0 20) else none
def AnEnt.mapFailed (e : AnEnt) : Bool := nbit e.map.toNat 21

/-- Where an entry's key stands. -/
inductive KeyAt | here | fill (h : Nat) | gone (reason : Nat)
  deriving DecidableEq, Repr

/-- Reason of a frame whose slot holds no valid key (R484). -/
def slotGone (t : TSlot) : Nat := if t.g0 TS.CAUSE = 4 then 0x08 else 0x07

def keyAt (s : State) (e : AnEnt) : KeyAt :=
  let t := slotOf s e.slot
  match e.handle with
  | some h =>
    if t.valid && t.g2 TS.HANDLE_VALID == 1 && t.g2 TS.HANDLE == h then .here
    else if e.mapFailed then .gone 0x07 else .fill h
  | none => if t.valid then .here else .gone (slotGone t)

/-! Use of a transmit SC (R55) -/

/-- The entry in use is exhausted: its next packet number lies above USAGE_LIMIT. -/
def exhausted (r : ARec) : Bool := (r.an (r.c AC.CUR_AN)).valid && decide (r.limit < (r.an (r.c AC.CUR_AN)).nextPn)

/-- The SC moves to NEXT_AN, or stops, at its usage limit; a STOPPED SC with a next SA runs again. -/
def settle1 (r : ARec) : ARec :=
  if (r.c AC.STATE = 1 ∧ exhausted r) ∨ (r.c AC.STATE = 2 ∧ r.c AC.NEXT_VALID = 1) then
    if r.c AC.NEXT_VALID = 1 then
      let old := r.c AC.CUR_AN
      let r := r.setAn old { r.an old with retiring := true }
      let new := r.c AC.NEXT_AN
      (((r.setAn new { r.an new with retiring := false }).setC AC.CUR_AN new).setC AC.NEXT_VALID 0).setC AC.STATE 1
    else r.setC AC.STATE 2
  else r

/-- NEXT_AN can be exhausted too. -/
def settled (r : ARec) : ARec := settle1 (settle1 r)

/-- An SA reaches its warning margin (R55, R101): KEY_CHANGE_REQUEST once per SA. -/
def warnDue (r : ARec) (e : AnEnt) : Bool := e.valid && !e.warned && decide (r.limit - r.warn ≤ e.nextPn)
def warn (a i : Nat) (s : State) : State :=
  let e := (arec s a).an i
  if warnDue (arec s a) e then event Ev.KEY_CHANGE_REQUEST [a, i, e.nextPn] (setAnOf a i { e with warned := true } s) else s

/-- What the settling of an SC raises: each SC change is one event, and an entry that stops being CUR_AN may already be drained (R54). -/
def settleTx (a : Nat) (s : State) : State :=
  let r := arec s a
  let r' := settled r
  let old := r.c AC.CUR_AN
  let new := r'.c AC.CUR_AN
  let s := setArec a r' s
  let s := if old ≠ new then drained a old (event Ev.KEY_SWITCHED [a, new, (r'.an new).nextPn] s) else s
  let s := if r'.c AC.STATE = 2 ∧ r.c AC.STATE ≠ 2 then event Ev.ASSOC_STOPPED [a, new, (r'.an new).nextPn] s else s
  warn a new s

/-! What becomes of an item at the head of its domain -/

/-- The outcome of steps 1 and 2 of R143 before the key's own checks. -/
inductive Plan
  /-- The domain waits: for a record (R235) or for the first epoch after a reset (R99). -/
  | wait
  /-- Parks, on a fill of a handle where one is asked for (R22). -/
  | park (fill : Option Nat)
  | drop (reason : Nat) (badTag : Bool)
  /-- Dispatched without a key; the reason is the one a SEAL takes (R486). -/
  | bare (noKey : Option Nat)
  | keyed (an slot pn : Nat)
  deriving DecidableEq, Repr

def planKey (s : State) (e : AnEnt) (an pn : Nat) : Plan :=
  match keyAt s e with
  | .here => .keyed an e.slot pn
  | .fill h => .park (some h)
  | .gone r => .drop r false

/-- The reason R486 gives for an SC without a usable SA. -/
def noSaReason (r : ARec) : Nat := if r.c AC.STATE = 0 then 0x09 else if r.c AC.STATE = 2 then 0x06 else 0x07

/-- A frame on a transmit SC. -/
def planTx (s : State) (it : Item) (r : ARec) : Plan :=
  let e := r.an (r.c AC.CUR_AN)
  if !e.valid ∨ e.retiring ∨ r.c AC.STATE = 2 then
    if 96 ≤ it.dom ∨ hasFlag it.flags fEapol ∨ hasFlag it.flags fClearOk then .bare (some (noSaReason r)) else .drop (noSaReason r) false
  else planKey s e (r.c AC.CUR_AN) e.nextPn

/-- The full packet number of an XPN frame (R46). -/
def recoverPn (lowest pn32 : Nat) : Nat :=
  (lowest / 2 ^ 32 + (if pn32 < lowest % 2 ^ 32 then 1 else 0)) * 2 ^ 32 + pn32

/-- A frame on a receive SC (R46, R57, Table 02.5 checks 5 and 6). -/
def planRx (s : State) (it : Item) (r : ARec) : Plan :=
  let e := r.an it.an
  if !e.valid then .drop 0x07 false
  else
    let pn := if xpn r.ctrl then recoverPn e.lowestPn it.pn32 % 2 ^ 64 else it.pn32
    match planKey s e it.an pn with
    | .keyed an sl p => if xpn r.ctrl ∧ p = 0 then .drop 0x09 true else .keyed an sl p
    | x => x

/-- A closed tub (R94, R96, R100, R101). -/
def planTubTx (s : State) (it : Item) (r : ARec) : Plan :=
  let n := it.dom - 64
  let ep := epochTx s n
  let e := r.an (ep % 4)
  let derived := txCfg s n Fd.LFR_TRUNK_CFG_DERIVE == 1
  if (txTrunkOf s n).lastSwitch.isNone then .wait
  else if r.c AC.TUB_STATE = 2 then .drop 0x06 false
  else if derived && (!e.valid || e.epoch != ep) then .park none
  else if !e.valid ∨ e.retiring then .drop 0x07 false
  else if r.limit < e.nextPn then (if changing s n then .wait else .drop 0x06 false)
  else planKey s e (ep % 4) e.nextPn

/-- A received tub (R97, R100, R101). -/
def planTubRx (s : State) (it : Item) (r : ARec) : Plan :=
  let n := it.path
  let x := rxTrunkOf s n
  let e := r.an (it.kepoch % 4)
  let derived := rxCfg s n Fd.LFR_TRUNK_RXCFG_DERIVE == 1
  if x.reject ∨ x.olds.any (fun o => o.dropped && o.epoch == it.kepoch) then .drop 0x07 false
  else if e.valid ∧ (!derived ∨ e.epoch = it.kepoch) then planKey s e (it.kepoch % 4) it.pn
  else if derived ∧ epochRx s n ≤ it.kepoch then .park none
  else .drop 0x07 false

/-- The plan for an item as the records stand. -/
def planOf (s : State) (it : Item) : Plan :=
  match it.assoc with
  | none => .bare none
  | some a =>
    if s.cls.fetching.contains a then .wait
    else if (arec s a).memBad then .drop 0x0F false
    else if it.dom < 32 then planTx s it (settled (arec s a))
    else if it.dom < 64 then planRx s it (arec s a)
    else if it.dom < 80 then planTubTx s it (arec s a)
    else if it.dom < 96 then planTubRx s it (arec s a)
    else if (arec s a).c AC.DIR = 0 ∧ !tribNames s 0 a ∧ !tribNames s 1 a then planTx s it (settled (arec s a))
    else .bare none

/-! Parking (R22 to R24) -/

/-- Asks for the fill of a handle, unless one runs or fills are stopped. -/
def askFill (h : Nat) (s : State) : State :=
  if s.vault.fills.contains h || !s.flag Reg.SRM_CFG Fd.SRM_CFG_FILL_EN then s
  else { s with vault := { s.vault with fills := s.vault.fills ++ [h] } }

/-- Parked items that still miss their key ask for its fill (R125, Table 04.14: FILL_EN set back to 1). -/
def askAgain (s : State) : State :=
  s.gal.parked.foldl (fun s it => match planOf s it with | .park (some h) => askFill h s | _ => s) s

/-- Sectors of the 64 MiB park area (Table 10.1), less those withheld. -/
def parkRoom (s : State) : Nat := regionSectors 2 - withheldIn s 2
def parkUsed (s : State) : Nat := (s.gal.parked.map (fun it => ceilDiv it.len 256)).sum

/-- An item leaves the dispatcher without a tag. -/
def refuse (it : Item) (reason : Nat) (badTag : Bool) (s : State) : State :=
  itemDrop it reason (if badTag then bumpMsc (it.dom - 32) MP.IN_BAD_TAG s else s)

def park (it : Item) (fill : Option Nat) (s : State) : State :=
  let s := bump Reg.SRM_CNT_MISS 1 s
  if parkRoom s < parkUsed s + ceilDiv it.len 256 then refuse it 0x05 false s
  else
    let i := regionKey s 2
    let l := pickCells 2 (ceilDiv it.len 256) s
    let it := { it with flags := it.flags ||| fParked, mkey := i, kgen := kgenOf s i, cells := l }
    let s := storeCells l i s.drew
    let s := { s with gal := { s.gal with parked := s.gal.parked ++ [it] } }
    match fill with | some h => askFill h s | none => s

/-! The head of a domain -/

def sameAssoc (a b : Item) : Bool := a.assoc.isSome && a.assoc == b.assoc

/-- The oldest parked item of a domain that no longer waits and has none of its association before it (R23). -/
def readyParked (s : State) (d : Nat) : Option (Item × Plan) :=
  (s.gal.parked.filter (fun it => it.dom == d && (s.gal.parked.find? (sameAssoc it)) == some it)).findSome? (fun it =>
    match planOf s it with
    | .park _ => none
    | p => some (it, p))

/-- The item that the domain serves next, whether it comes from the park, and its plan. Later frames of a parked association park behind it, save those that take no key (R486). -/
def headOf (s : State) (d : Nat) : Option (Item × Bool × Plan) :=
  match readyParked s d with
  | some (it, p) => some (it, true, p)
  | none =>
    match backlogOf s d with
    | [] => none
    | it :: _ =>
      match planOf s it with
      | .park f => some (it, false, .park f)
      | .wait => some (it, false, .wait)
      | .bare nk => some (it, false, .bare nk)
      | .drop r bad => some (it, false, if s.gal.parked.any (sameAssoc it) && !decide (it.dom < 32) then .park none else .drop r bad)
      | p => some (it, false, if s.gal.parked.any (sameAssoc it) then .park none else p)

def takeHead (it : Item) (parked : Bool) (s : State) : State :=
  if parked then { s with gal := { s.gal with parked := s.gal.parked.erase it } }
  else backlogPfc it.dom (setBacklog it.dom (backlogOf s it.dom).tail s)

/-! Tags and galleries (R19, R144, R145) -/

def itemOf (s : State) (tag : Nat) : Option Item := tget none0 s.gal.items tag
def setItem (tag : Nat) (it : Option Item) (s : State) : State := { s with gal := { s.gal with items := tput none0 s.gal.items tag it } }
def tagsOf (s : State) (d : Nat) : List Nat := tget nil0 s.gal.tags d
def setTags (d : Nat) (l : List Nat) (s : State) : State := { s with gal := { s.gal with tags := tput nil0 s.gal.tags d l } }
/-- Tags in the pool; an item whose tag the screen has already taken back holds none (R155). -/
def tagsFree (s : State) : Nat := 65536 - (s.gal.items.filter (fun e => decide (e.1 < 65536))).length

/-- Items assigned to a gallery and not yet ended. -/
def galLoad (s : State) (g : Nat) : Nat :=
  (s.gal.items.filter (fun e => match e.2 with
    | some it => it.gal == g && (match it.st with | .queued => true | .running _ => true | _ => false)
    | none => false)).length

def galOnline (s : State) (g : Nat) : Bool := nbit (s.reg Reg.GAL_ONLINE).toNat g && !s.gal.draining.contains g

/-- The gallery of fewer items of two; the first on a tie. -/
def lighter (s : State) (a b : Option Nat) : Option Nat :=
  match a, b with
  | some x, some y => if galLoad s y < galLoad s x then some y else some x
  | none, y => y
  | x, none => x

/-- The online gallery with the fewest items, below 48; ties by the rotating pointer (R144). -/
def pickGallery (s : State) : Option Nat :=
  let order := (List.range 64).map (fun i => (s.gal.rotate + i) % 64)
  (order.filter (fun g => galOnline s g && decide (galLoad s g < 48))).foldl (fun a g => lighter s a (some g)) none

/-- Bytes of the 8 MiB in-flight area in use. -/
def inFlight (s : State) : Nat := (s.gal.items.map (fun e => match e.2 with | some it => it.len | none => 0)).sum

/-- Step 3 of R143: a tag, in-flight room and a gallery. -/
def mayGo (s : State) (it : Item) : Bool :=
  decide ((tagsOf s it.dom).length < domF s it.dom Fd.GAL_DOM_CFG_TAG_MAX) && decide (0 < tagsFree s) &&
  decide (inFlight s + it.len ≤ 8 * 2 ^ 20) && (pickGallery s).isSome

/-- LOW_WATER of GAL_TAGS follows the free tags, and the pool's emptiness is timed. -/
def noteTags (s : State) : State :=
  let f := tagsFree s
  let s := if f < s.fld Reg.GAL_TAGS Fd.GAL_TAGS_LOW_WATER then s.setFld Reg.GAL_TAGS Fd.GAL_TAGS_LOW_WATER f else s
  if f = 0 then { s with gal := { s.gal with stallAt := some (s.gal.stallAt.getD s.time.up) } } else { s with gal := { s.gal with stallAt := none } }

/-- Steps 4 and 5: the item has its tag, epoch, entry and key, and stands in a gallery's queue. -/
def place1 (it : Item) (tag : Nat) (s : State) : State :=
  match pickGallery s with
  | none => s
  | some g =>
    let e := dispatchEpoch s
    let it := { it with tag := tag, gal := g, st := .queued, epoch := e, at_ := s.time.up }
    let s := setTags it.dom (tagsOf s it.dom ++ [tag]) (setItem tag (some it) s)
    let s := { s with gal := { s.gal with queues := tput nil0 s.gal.queues g (tget nil0 s.gal.queues g ++ [tag]), rotate := (s.gal.rotate + 1) % 64 } }
    noteTags (bump Reg.GAL_CNT_DISPATCH 1 (enterEpoch e s))

/-- The header of a tub as it is sealed (Table 03.6): pointer, SEQ and epoch set at dispatch. -/
def tubHeader (h : Bytes) (ptr trib seq ep : Nat) : Bytes :=
  [BitVec.ofNat 8 (ptr * 64 + trib)] ++ slice h 1 3 ++ natBe 6 seq ++ [BitVec.ofNat 8 ep] ++ zeros 5

/-- Departure instant and residence of a PTP message toward a line port (R349): t_p in units of 250 ps of part time. -/
def giveDeparture (it : Item) (s : State) : Item × State :=
  if it.dom < 32 then
    let tp := s.time.now * 4 + s.fld Reg.TIM_CFG Fd.TIM_CFG_PTP_LEAD * 4000
    let (b, s) := residence it.target it.data (residenceOf tp it.ts) (steppedSince s it.inAt) s
    ({ it with data := b, ptpAt := if hasFlag it.flags fPtp then some tp else none }, s)
  else (it, s)

/-- The sequence value of a transmit item, taken from its entry (R44, R94). -/
def takePn (a an : Nat) (s : State) : State :=
  let e := (arec s a).an an
  setAnOf a an { e with nextPn := e.nextPn + 1 } s

/-- AUTO_EPOCH at the warning margin (R101). -/
def warnTub (n a an : Nat) (s : State) : State :=
  let due := warnDue (arec s a) ((arec s a).an an)
  let s := warn a an s
  if due && txCfg s n Fd.LFR_TRUNK_CFG_AUTO_EPOCH == 1 then autoEpoch n s else s

/-- An item whose key passed every check is dispatched. -/
def goKeyed (it : Item) (a an slot pn tag : Nat) (s : State) : State :=
  let r := arec s a
  let e := r.an an
  let t := slotOf s slot
  let it := { it with
    an := an, pn := pn, counted := true, key := some ⟨slot, t.key, t.g0 TS.LEN == 1⟩, salt := e.salt, ssci := e.ssci, ctrl := r.ctrl
    sci := if it.dom < 32 ∨ 96 ≤ it.dom then r.sci else it.sci }
  let s := enterInflight a an (fetchSlot slot s)
  if it.dom < 32 ∨ 96 ≤ it.dom then
    let (it, s) := giveDeparture it s
    place1 it tag (warn a an (takePn a an s))
  else if 64 ≤ it.dom ∧ it.dom < 80 then
    let ep := epochTx s (it.dom - 64)
    place1 { it with kepoch := ep, hdr := tubHeader it.hdr (ep % 4) it.trib pn ep } tag (warnTub (it.dom - 64) a an (takePn a an s))
  else place1 it tag s

/-- An item without a key is dispatched. -/
def goBare (it : Item) (nk : Option Nat) (tag : Nat) (s : State) : State :=
  let (it, s) := giveDeparture it s
  place1 { it with noKey := nk, ctrl := match it.assoc with | some a => (arec s a).ctrl | none => 0 } tag s

/-- A stalled dispatch (R145). -/
def stall (s : State) : State := bump Reg.GAL_CNT_STALL 1 s

/-- A parked item is read back from HBM as it goes. -/
def unpark (it : Item) (parked : Bool) (ecc : Ecc) (s : State) : Bool × State := if parked then readCells it.cells ecc s else (true, s)

/-- Steps 3 to 5 for an item that passed step 2. -/
def launch (it : Item) (parked : Bool) (tag : Nat) (ecc : Ecc) (go : Item → State → State) (s : State) : State :=
  if !mayGo s it then stall s
  else if (itemOf s tag).isSome then s
  else
    let s := takeHead it parked s
    let (ok, s) := unpark it parked ecc s
    if ok then go { it with cells := [] } s else refuse it 0x0F false s

/-- The settling that a frame on a transmit SC brings with it. -/
def settleFor (it : Item) (s : State) : State :=
  match it.assoc with
  | some a => if it.dom < 32 ∨ (96 ≤ it.dom ∧ (arec s a).c AC.DIR = 0 ∧ !tribNames s 0 a ∧ !tribNames s 1 a) then settleTx a s else s
  | none => s

/-- Reason of a frame whose key fails a check of Table 04.7 after the first. -/
def useReason (st : Nat) : Nat := if st = 4 ∨ st = 5 then 0x07 else 0x08

/-- A tub whose association has no key left stops it (R101). -/
def stopTub (it : Item) (s : State) : State :=
  match it.assoc with
  | some a =>
    let r := arec s a
    if 64 ≤ it.dom ∧ it.dom < 80 ∧ r.c AC.TUB_STATE ≠ 2 then
      let i := epochTx s (it.dom - 64) % 4
      event Ev.ASSOC_STOPPED [a, i, (r.an i).nextPn] (setArec a (r.setC AC.TUB_STATE 2) s)
    else s
  | none => s

/-- One item at the head of its domain. -/
def serve (it : Item) (parked : Bool) (plan : Plan) (tag : Nat) (keyOk : Bool) (ecc : Ecc) (s : State) : State :=
  match plan with
  | .wait => s
  | .park f => park it f (takeHead it parked s)
  | .drop r bad =>
    let s := settleFor it s
    let s := if r = 0x06 then stopTub it s else s
    refuse it r bad (takeHead it parked s)
  | .bare nk => launch it parked tag ecc (fun it s => goBare it nk tag s) (settleFor it s)
  | .keyed an slot pn =>
    let s := settleFor it s
    let (st, s) := useKey slot (some TS.U_AEAD) 16 keyOk s
    if st ≠ 0 then refuse it (useReason st) false (takeHead it parked s)
    else match it.assoc with
      | some a => launch it parked tag ecc (fun it s => goKeyed it a an slot pn tag s) s
      | none => s

def dispatchStep (d tag : Nat) (keyOk : Bool) (ecc : Ecc) (s : State) : State :=
  let s := askAgain s
  match headOf s d with
  | some (it, parked, plan) => serve it parked plan tag keyOk ecc s
  | none => s

/-- DISPATCH (R143): the dispatcher serves the head of a domain. -/
def execDispatch (dom : Fin 112) (tag : Fin 65536) (keyOk : Bool) (ecc : Ecc) (s : State) : Ans :=
  .next (onlyIf (trafficOn s) (dispatchStep dom.val tag.val keyOk ecc) s)

/-- TAG_STALL (R145): the pool has been empty for 10 µs, reported once per second at most. -/
def execTagStall (s : State) : Ans :=
  let due := (match s.gal.stallAt with | some t => decide (t + 10000 ≤ s.time.up) | none => false) &&
    (match s.gal.stallRaised with | some t => decide (t + 1000000000 ≤ s.time.up) | none => true)
  .next (onlyIf (s.live && due && tagsFree s == 0) (fun s => event Ev.TAG_STALL [] { s with gal := { s.gal with stallRaised := some s.time.up } }) s)

/-! Fills (R123, R124) -/

/-- A fill's result reaches the map words of a handle that parked items name: SLOT, or FAILED. -/
def fillInto (h : Nat) (slot : Option Nat) (s : State) (it : Item) : State :=
  match it.assoc with
  | none => s
  | some a =>
    let put := fun (e : AnEnt) =>
      if e.handle = some h then
        match slot with
        | some n => { e with slot := n }
        | none => { e with map := e.map ||| 0x200000 }
      else e
    setArec a { arec s a with ans := (arec s a).ans.map put } s

/-- One fill runs to its end. -/
def fillRun (h : Nat) (ecc : Ecc) (s : State) : State :=
  let (r, n, s) := fillKey h ecc s
  if r = 4 then s
  else
    let s := { s with vault := { s.vault with fills := s.vault.fills.erase h } }
    s.gal.parked.foldl (fillInto h (if r = 0 then some n else none)) s

/-- KEY_FILL_DONE (R123): the cellar engine fills a key that was asked for; the caution state holds it (R137). -/
def execKeyFillDone (handle : Fin 1048576) (ecc : Ecc) (s : State) : Ans :=
  .next (onlyIf (s.live && s.vault.fills.contains handle.val) (fun s =>
    if inCaution s then
      if s.guard.held.any (fun h => match h with | .fill x _ => x == handle.val | _ => false) then s
      else { s with guard := { s.guard with held := s.guard.held ++ [.fill handle.val ecc] } }
    else fillRun handle.val ecc s) s)

end Sys2Proof.Machine
end

