-- ==== Sys2Proof/Machine/Encode.lean ====
section
/-! DEFINITION. How an instruction word spells each Niano instruction (R171, R182 to R184, Tables 06.6 to 06.9, 06.11, 06.12): the fields of its format and what they hold. Fields that an instruction does not use are not looked at here; the load check says which of them must be 0. -/
namespace Sys2Proof.Machine

/-- A field of a word and its value: lowest bit, width, value. -/
abbrev WordField := Nat × Nat × Nat

/-- A word holds every field given. -/
def spelled (w : Nat) (l : List WordField) : Bool := l.all (fun f => nbits w f.1 f.2.1 == f.2.2)

/-! The formats of Table 06.6 -/

/-- The major opcode and the guard, which every word has. -/
def wOp (op : Nat) (gd : Prd) : List WordField := [(25, 7, op), (0, 3, gd.val)]
def wRd (r : Reg) : WordField := (20, 5, r.val)
def wRa (r : Reg) : WordField := (15, 5, r.val)
def wRb (r : Reg) : WordField := (10, 5, r.val)
def wFn (n : Nat) : WordField := (3, 7, n)
def wPt (p : Prd) : WordField := (22, 3, p.val)
def wPf (p : Prd) : WordField := (19, 3, p.val)

def aluNo : AluFn → Nat
  | .add => 0x00 | .sub => 0x01 | .land => 0x02 | .lor => 0x03 | .lxor => 0x04 | .andn => 0x05 | .shl => 0x06 | .shr => 0x07 | .sar => 0x08
  | .rol => 0x09 | .mul => 0x0A | .mulhu => 0x0B | .smin => 0x0C | .smax => 0x0D | .umin => 0x0E | .umax => 0x0F | .clz => 0x10 | .popc => 0x11 | .bswap => 0x12

def condNo : Cond → Nat
  | .eq => 0 | .ne => 1 | .lt => 2 | .ge => 3 | .ltu => 4 | .geu => 5 | .bs => 6 | .bc => 7

def pfnNo : PFn → Nat
  | .land => 0 | .lor => 1 | .lxor => 2 | .andn => 3

/-! The instructions of Table 06.7 -/

/-- An instruction of the classes that either slot takes. -/
def sopFields (gd : Prd) : SOp → List WordField
  | .nop => wOp 0x00 gd
  | .alu fn rd ra rb => wOp 0x01 gd ++ [wRd rd, wRa ra, wRb rb, wFn (aluNo fn)]
  | .hash rd ra rb => wOp 0x01 gd ++ [wRd rd, wRa ra, wRb rb, wFn 0x13]
  | .addi rd ra imm => wOp 0x02 gd ++ [wRd rd, wRa ra, (3, 12, imm.toNat)]
  | .andi rd ra imm => wOp 0x03 gd ++ [wRd rd, wRa ra, (3, 12, imm.toNat)]
  | .ori rd ra imm => wOp 0x04 gd ++ [wRd rd, wRa ra, (3, 12, imm.toNat)]
  | .xori rd ra imm => wOp 0x05 gd ++ [wRd rd, wRa ra, (3, 12, imm.toNat)]
  | .shli rd ra sh => wOp 0x06 gd ++ [wRd rd, wRa ra, (3, 12, sh.val)]
  | .shri rd ra sh => wOp 0x07 gd ++ [wRd rd, wRa ra, (3, 12, sh.val)]
  | .sari rd ra sh => wOp 0x08 gd ++ [wRd rd, wRa ra, (3, 12, sh.val)]
  | .ext rd ra pos wid1 => wOp 0x09 gd ++ [wRd rd, wRa ra, (9, 6, pos.val), (3, 6, wid1.val)]
  | .ins rd ra pos wid1 => wOp 0x0A gd ++ [wRd rd, wRa ra, (9, 6, pos.val), (3, 6, wid1.val)]
  | .movi rd sx imm => wOp 0x0B gd ++ [wRd rd, (19, 1, if sx then 1 else 0), (3, 16, imm.toNat)]
  | .movu rd imm => wOp 0x0C gd ++ [wRd rd, (3, 16, imm.toNat)]
  | .mfs rd sr => wOp 0x28 gd ++ [wRd rd, (3, 12, sr.toNat)]
  | .cmp c ra rb pt pf => wOp 0x10 gd ++ [wPt pt, wPf pf, (14, 5, ra.val), (9, 5, rb.val), (6, 3, condNo c)]
  | .cmpi c ra imm pt pf => wOp 0x11 gd ++ [wPt pt, wPf pf, (14, 5, ra.val), (6, 8, imm.toNat), (3, 3, condNo c)]
  | .plog fn pa pb pt pf => wOp 0x12 gd ++ [wPt pt, wPf pf, (16, 3, pa.val), (13, 3, pb.val), (11, 2, pfnNo fn)]

/-- An atomic (Table 06.11) or a sync function (Table 06.12), with the registers it uses. -/
def wAtom (gd : Prd) (fn : Nat) (rs : List WordField) : List WordField := wOp 0x40 gd ++ wFn fn :: rs
def wSync (gd : Prd) (fn : Nat) (rs : List WordField) : List WordField := wOp 0x48 gd ++ wFn fn :: rs

/-- The fields of slot A for each Niano row; no other command is spelled by a word. -/
def wordFields : Instr → List WordField
  | .nop _ gd _ => sopFields gd .nop
  | .alu _ gd fn rd ra rb _ => sopFields gd (.alu fn rd ra rb)
  | .hash _ gd rd ra rb _ => sopFields gd (.hash rd ra rb)
  | .addi _ gd rd ra imm _ => sopFields gd (.addi rd ra imm)
  | .andi _ gd rd ra imm _ => sopFields gd (.andi rd ra imm)
  | .ori _ gd rd ra imm _ => sopFields gd (.ori rd ra imm)
  | .xori _ gd rd ra imm _ => sopFields gd (.xori rd ra imm)
  | .shli _ gd rd ra sh _ => sopFields gd (.shli rd ra sh)
  | .shri _ gd rd ra sh _ => sopFields gd (.shri rd ra sh)
  | .sari _ gd rd ra sh _ => sopFields gd (.sari rd ra sh)
  | .ext _ gd rd ra pos wid1 _ => sopFields gd (.ext rd ra pos wid1)
  | .ins _ gd rd ra pos wid1 _ => sopFields gd (.ins rd ra pos wid1)
  | .movi _ gd rd sx imm _ => sopFields gd (.movi rd sx imm)
  | .movu _ gd rd imm _ => sopFields gd (.movu rd imm)
  | .cmp _ gd c ra rb pt pf _ => sopFields gd (.cmp c ra rb pt pf)
  | .cmpi _ gd c ra imm pt pf _ => sopFields gd (.cmpi c ra imm pt pf)
  | .plog _ gd fn pa pb pt pf _ => sopFields gd (.plog fn pa pb pt pf)
  | .mfs _ gd rd sr _ => sopFields gd (.mfs rd sr)
  | .br _ gd rl target _ => wOp 0x18 gd ++ [wRd rl, (3, 13, target.toNat)]
  | .jr _ gd rd ra _ => wOp 0x19 gd ++ [wRd rd, wRa ra]
  | .wld _ gd rd ra off size sx _ _ => wOp 0x20 gd ++ [wRd rd, wRa ra, (7, 8, off.toNat), (5, 2, size.val), (4, 1, if sx then 1 else 0)]
  | .wst _ gd rs ra off size _ => wOp 0x21 gd ++ [wRd rs, wRa ra, (7, 8, off.toNat), (5, 2, size.val)]
  | .wins _ gd n1 ra off _ => wOp 0x22 gd ++ [wRd n1, wRa ra, (7, 8, off.toNat)]
  | .wdel _ gd n1 ra off _ => wOp 0x23 gd ++ [wRd n1, wRa ra, (7, 8, off.toNat)]
  | .mts _ gd rs sr _ => wOp 0x29 gd ++ [wRd rs, (3, 12, sr.toNat)]
  | .lkp _ gd rd ra tbl pt pf _ _ => wOp 0x30 gd ++ [wRd rd, wRa ra, (11, 4, tbl.val), (8, 3, pt.val), (5, 3, pf.val)]
  | .mtr _ gd rd ra rb _ => wOp 0x31 gd ++ [wRd rd, wRa ra, wRb rb]
  | .cnt _ gd ra rb _ => wOp 0x32 gd ++ [wRa ra, wRb rb]
  | .put _ gd ra _ => wOp 0x33 gd ++ [wRa ra]
  | .sealEnd _ gd _ => wOp 0x38 gd
  | .openEnd _ gd _ => wOp 0x39 gd
  | .passEnd _ gd _ => wOp 0x3A gd
  | .dropEnd _ gd reason sub _ => wOp 0x3B gd ++ [(19, 6, reason.val), (11, 8, sub.toNat)]
  | .puntEnd _ gd fn _ => wOp 0x3C gd ++ [(7, 4, fn.val)]
  | .ald _ gd rd ra _ _ => wAtom gd 0x00 [wRd rd, wRa ra]
  | .ast _ gd _ ra rb _ _ => wAtom gd 0x01 [wRa ra, wRb rb]
  | .aadd _ gd rd ra rb _ _ => wAtom gd 0x02 [wRd rd, wRa ra, wRb rb]
  | .aand _ gd rd ra rb _ _ => wAtom gd 0x03 [wRd rd, wRa ra, wRb rb]
  | .aor _ gd rd ra rb _ _ => wAtom gd 0x04 [wRd rd, wRa ra, wRb rb]
  | .axor _ gd rd ra rb _ _ => wAtom gd 0x05 [wRd rd, wRa ra, wRb rb]
  | .aswp _ gd rd ra rb _ _ => wAtom gd 0x06 [wRd rd, wRa ra, wRb rb]
  | .acas _ gd rd ra rb _ _ => wAtom gd 0x07 [wRd rd, wRa ra, wRb rb]
  | .fence _ gd _ => wSync gd 0x00 []
  | .syncYield _ gd _ => wSync gd 0x01 []
  | .waitev _ gd rd rb _ => wSync gd 0x02 [wRd rd, wRb rb]
  | .ord _ gd code rd _ _ => wOp 0x70 gd ++ [(13, 12, code.toNat), (8, 5, rd.val)]
  | _ => []

end Sys2Proof.Machine
end

