-- ==== Sys2Proof/Machine/Niano.lean ====
section
/-! DEFINITION. What one Niano bundle does (chapter 06): its context, the results of both slots, faults, and the shared path by which every instruction issues. -/
namespace Sys2Proof.Machine

/-! Threads -/

def galThread (s : State) (g t : Nat) : Thread := tget thread0 s.gal.threads (16 * g + t)
def setGalThread (g t : Nat) (h : Thread) (s : State) : State :=
  { s with gal := { s.gal with threads := tput thread0 s.gal.threads (16 * g + t) h } }
def threadOf (s : State) : Thr → Thread
  | .gal g t => galThread s g.val t.val
  | .fore t => foreThread s t.val
def setThread (x : Thr) (h : Thread) (s : State) : State :=
  match x with
  | .gal g t => setGalThread g.val t.val h s
  | .fore t => setForeThread t.val h s

/-- A predicate; p0 is true (R175). -/
def Thread.p (h : Thread) (i : Nat) : Bool := i == 0 || nbit h.preds i
def Thread.setP (h : Thread) (i : Nat) (v : Bool) : Thread := if i = 0 then h else { h with preds := setNbit h.preds i v }

/-- The image a gallery's item runs: all online galleries hold the same (R156). -/
def imageOf (s : State) (e : Nat) : Option Image := tget none0 s.gal.images e

/-- Entry point of a domain: the five domain classes, then the fault entry (R181). -/
def entryOf (d : Nat) : Nat := if d < 32 then 0 else if d < 64 then 1 else if d < 80 then 2 else if d < 96 then 3 else 4

/-- What a bundle sees: its thread, the thread's registers, and its item in a gallery. -/
structure Ctx where
  who : Thr
  h : Thread
  item : Option Item
  s : State

def Ctx.isFore (c : Ctx) : Bool := match c.who with | .fore _ => true | _ => false
/-- The order domain of the item; 127 on the foreman. -/
def Ctx.dom (c : Ctx) : Nat := match c.item with | some it => it.dom | none => 127
/-- The code the thread runs; none for firmware. -/
def Ctx.code (c : Ctx) : Option (List (Nat × Nat)) :=
  match c.who with
  | .gal _ _ => match c.item with
    | some it => (imageOf c.s it.epoch).map (fun i => i.code)
    | none => none
  | .fore t => (running c.s t.val).map (fun r => (r.b.progs.getD r.idx ⟨[], []⟩).code)
/-- Bundles of that code. -/
def Ctx.codeLen (c : Ctx) : Option Nat := c.code.map List.length

/-- The bundle at the thread's place spells an instruction in slot A with slot B beside it (R171, R182); any does in firmware, whose code is not the model's. -/
def spells (c : Ctx) (i : Instr) (b : SlotB) : Bool :=
  match c.code with
  | some l => match l[c.h.pc]? with
    | some w => spelled w.1 (wordFields i) && spelled w.2 (sopFields b.guard b.op)
    | none => true
  | none => true

/-! The result of a slot -/

/-- What a slot writes, where the thread goes next, and what it does outside the thread; `ends` says that the item ends here (R146). -/
structure Eff where
  regs : List (Nat × W64)
  preds : List (Nat × Bool)
  pc : Option Nat
  win : Option (Bytes × Nat)
  act : State → State
  ends : Option (State → State)

/-- A slot's result: an effect, or a fault with its code, its argument and what it leaves behind outside the thread (R198). -/
inductive Res'
  | ok (e : Eff) 
  | fault (code : Nat) (arg : W64) (post : State → State)

def noEff : Eff := ⟨[], [], none, none, id, none⟩
def okReg (rd : Nat) (v : W64) : Res' := .ok { noEff with regs := [(rd, v)] }
def bad (code : Nat) (arg : W64) : Res' := .fault code arg id

/-! Fault codes (Table 06.14) -/
namespace FC
def BRANCH_RANGE : Nat := 0x01
def PRIV : Nat := 0x02
def CONTEXT : Nat := 0x03
def WINDOW_RANGE : Nat := 0x04
def WINDOW_FULL : Nat := 0x05
def WINDOW_RO : Nat := 0x06
def SR_RO : Nat := 0x07
def SR_UNDEF : Nat := 0x08
def TABLE_KEY : Nat := 0x09
def METER_RANGE : Nat := 0x0A
def COUNTER_RANGE : Nat := 0x0B
def STATE_RANGE : Nat := 0x0C
def STATE_POISON : Nat := 0x0D
def QUEUE : Nat := 0x0E
def FRAME_END : Nat := 0x0F
def DATA_ALIGN : Nat := 0x10
def CELL : Nat := 0x11
end FC

/-! ALU, compare and move (Tables 06.7 to 06.9) -/

def clz64 (a : W64) : Nat := ((List.range 65).find? (fun k => decide (a.toNat < 2 ^ k))).elim 0 (fun k => 64 - k)
def popc64 (a : W64) : Nat := ((List.range 64).filter (fun i => nbit a.toNat i)).length

def aluFn (fn : AluFn) (a b : W64) : W64 :=
  let sh := b.toNat % 64
  match fn with
  | .add => a + b
  | .sub => a - b
  | .land => a &&& b
  | .lor => a ||| b
  | .lxor => a ^^^ b
  | .andn => a &&& ~~~ b
  | .shl => a <<< sh
  | .shr => a >>> sh
  | .sar => a.sshiftRight sh
  | .rol => a.rotateLeft sh
  | .mul => a * b
  | .mulhu => BitVec.ofNat 64 (a.toNat * b.toNat / 2 ^ 64)
  | .smin => if a.toInt ≤ b.toInt then a else b
  | .smax => if a.toInt ≤ b.toInt then b else a
  | .umin => if a.toNat ≤ b.toNat then a else b
  | .umax => if a.toNat ≤ b.toNat then b else a
  | .clz => BitVec.ofNat 64 (clz64 a)
  | .popc => BitVec.ofNat 64 (popc64 a)
  | .bswap => BitVec.ofNat 64 (leNat (natBe 8 a.toNat))

def condHolds (c : Cond) (a b : W64) : Bool :=
  match c with
  | .eq => a == b
  | .ne => a != b
  | .lt => decide (a.toInt < b.toInt)
  | .ge => decide (b.toInt ≤ a.toInt)
  | .ltu => decide (a.toNat < b.toNat)
  | .geu => decide (b.toNat ≤ a.toNat)
  | .bs => nbit a.toNat (b.toNat % 64)
  | .bc => !nbit a.toNat (b.toNat % 64)

def pfnHolds (fn : PFn) (a b : Bool) : Bool :=
  match fn with
  | .land => a && b
  | .lor => a || b
  | .lxor => a != b
  | .andn => a && !b

/-- The bits of ra inserted into rd at pos (INS). -/
def insBits (d a : W64) (pos wid : Nat) : W64 := fset d ⟨pos, wid⟩ a.toNat

/-! Special registers (Tables 06.2 and 06.4) -/

/-- Item fields by descriptor number. -/
def descriptor (it : Item) (wlen n : Nat) : Nat :=
  if n = 0x000 then it.dom
  else if n = 0x001 then (if 96 ≤ it.dom then 0x3F else if 64 ≤ it.dom then it.dom % 16 else it.port)
  else if n = 0x002 then it.len
  else if n = 0x003 then wlen
  else if n = 0x004 then it.cls
  else if n = 0x005 then it.color
  else if n = 0x006 then it.assoc.getD 0
  else if n = 0x007 then it.queue
  else if n = 0x008 then it.epoch
  else if n = 0x009 then it.an
  else if n = 0x00A then it.pn
  else if n = 0x00B then it.tag % 65536
  else if n = 0x00C then it.rule
  else if n = 0x00D then it.flags
  else if n = 0x00E then it.ts
  else if n = 0x00F then (if 64 ≤ it.dom ∧ it.dom < 96 then 64 + it.trib else 0)
  else if n = 0x010 then it.fn
  else it.res.toNat

/-- The source of a foreman thread's program. -/
def progFn (s : State) (t : Nat) : Nat := match running s t with | some r => r.b.fn | none => 0

/-- Engine cycles since the engine started: 2.5 GHz in a gallery, 1.0 GHz on the foreman; the model's time moves in ticks of 8 ns (log entry 40). -/
def cycles (c : Ctx) : Nat :=
  match c.who with
  | .gal g _ => (c.s.time.up - tget nat0 c.s.gal.started g.val) * 5 / 2
  | .fore _ => c.s.time.up - c.s.fore.started

/-- The special registers of Table 06.4 below 0x200, for slot k. -/
def special (k : Nat) (c : Ctx) (n : Nat) : Option W64 :=
  if n = 0x100 then some (match c.who with | .gal _ t => BitVec.ofNat 64 t.val | .fore t => BitVec.ofNat 64 t.val)
  else if n = 0x101 then some (match c.who with | .gal g _ => BitVec.ofNat 64 g.val | .fore _ => 0x40)
  else if n = 0x102 then some (BitVec.ofNat 64 (cycles c))
  else if n = 0x103 then some (BitVec.ofNat 64 c.s.time.now)
  else if n = 0x104 then some (BitVec.ofNat 64 c.h.steps)
  else if n = 0x105 then some (BitVec.ofNat 64 c.h.fcode)
  else if n = 0x106 then some (BitVec.ofNat 64 c.h.fpc)
  else if n = 0x107 then some c.h.farg
  else if n = 0x108 then some (BitVec.ofNat 64 (c.h.preds % 256 ||| 1))
  else if n = 0x109 then some ((Config.random (c.s.draws + k)).setWidth 64)
  else none

/-- The foreman-only registers. -/
def foreSpecial (c : Ctx) (t n : Nat) : Option W64 :=
  let r := running c.s t
  if n = 0x200 then some (BitVec.ofNat 64 (match r with | some r => r.b.seq | none => 0))
  else if n = 0x201 then some (BitVec.ofNat 64 (progFn c.s t))
  else if n = 0x202 then some (BitVec.ofNat 64 (match r with | some r => r.b.signer | none => 0))
  else if n = 0x203 then some (BitVec.ofNat 64 c.s.attic.lifecycle)
  else if n = 0x204 then some (BitVec.ofNat 64 c.s.mode)
  else if n = 0x205 then some (BitVec.ofNat 64 c.s.fore.event)
  else none

def isForeSr (n : Nat) : Bool := decide (0x200 ≤ n) && decide (n ≤ 0x205)

def drewTo (k : Nat) (s : State) : State := if k = 0 then s.drew else s.drew.drew

def mfsRes (k : Nat) (c : Ctx) (rd sr : Nat) : Res' :=
  let arg := BitVec.ofNat 64 sr
  if sr < 0x012 then
    match c.item with
    | some it => okReg rd (BitVec.ofNat 64 (descriptor it c.h.wlen sr))
    | none => bad FC.SR_UNDEF arg
  else if isForeSr sr then
    match c.who with
    | .fore t => (match foreSpecial c t.val sr with | some v => okReg rd v | none => bad FC.SR_UNDEF arg)
    | _ => bad FC.PRIV arg
  else match special k c sr with
    | some v => .ok { noEff with regs := [(rd, v)], act := if sr = 0x109 then drewTo k else id }
    | none => bad FC.SR_UNDEF arg

/-! The classes that either slot takes -/

def sopRes (k : Nat) (o : SOp) (c : Ctx) : Res' :=
  let g := fun (r : Reg) => c.h.g r.val
  match o with
  | .nop => .ok noEff
  | .alu fn rd ra rb => okReg rd.val (aluFn fn (g ra) (g rb))
  | .hash rd ra rb => okReg rd.val (BitVec.ofNat 64 (hashWord (g ra) (g rb).toNat))
  | .addi rd ra imm => okReg rd.val (g ra + imm.signExtend 64)
  | .andi rd ra imm => okReg rd.val (g ra &&& imm.setWidth 64)
  | .ori rd ra imm => okReg rd.val (g ra ||| imm.setWidth 64)
  | .xori rd ra imm => okReg rd.val (g ra ^^^ imm.setWidth 64)
  | .shli rd ra sh => okReg rd.val (g ra <<< sh.val)
  | .shri rd ra sh => okReg rd.val (g ra >>> sh.val)
  | .sari rd ra sh => okReg rd.val ((g ra).sshiftRight sh.val)
  | .ext rd ra pos w => okReg rd.val (BitVec.ofNat 64 (nbits (g ra).toNat pos.val (w.val + 1)))
  | .ins rd ra pos w => okReg rd.val (insBits (g rd) (g ra) pos.val (w.val + 1))
  | .movi rd sx imm => okReg rd.val (if sx then imm.signExtend 64 else imm.setWidth 64)
  | .movu rd imm => okReg rd.val ((g rd <<< 16) ||| imm.setWidth 64)
  | .mfs rd sr => mfsRes k c rd.val sr.toNat
  | .cmp cd ra rb pt pf =>
    let v := condHolds cd (g ra) (g rb)
    .ok { noEff with preds := [(pt.val, v), (pf.val, !v)] }
  | .cmpi cd ra imm pt pf =>
    let v := condHolds cd (g ra) (imm.setWidth 64)
    .ok { noEff with preds := [(pt.val, v), (pf.val, !v)] }
  | .plog fn pa pb pt pf =>
    let v := pfnHolds fn (c.h.p pa.val) (c.h.p pb.val)
    .ok { noEff with preds := [(pt.val, v), (pf.val, !v)] }

/-! Faults (R202) -/

/-- Ends a management program with a status (its completion follows with PROGRAM_END). -/
def endProgram (t status : Nat) (s : State) : State :=
  match running s t with
  | some r => setRunning t (some { r with status := some (r.status.getD status) }) s
  | none => s

/-- A fault of a bundle: slot 0 is A, 1 is B. The foreman raises PROG_FAULT for a state word's error (R198). -/
def takeFault (c : Ctx) (slot code : Nat) (arg : W64) (s : State) : State :=
  let h := { c.h with fcode := code, fpc := c.h.pc % 8192 + slot * 8192, farg := arg, steps := min (c.h.steps + 1) 0xFFFF }
  match c.who with
  | .gal g t =>
    let ep := match c.item with | some it => it.epoch | none => 0
    let entry := match imageOf s ep with | some i => i.entries.getD 5 0 | none => 0
    event Ev.PROG_FAULT [code, h.fpc, arg.toNat, g.val * 4 + ep]
      (bump Reg.GAL_CNT_PROG_FAULT 1 (setGalThread g.val t.val { h with pc := entry } s))
  | .fore t =>
    let s := if code = FC.STATE_POISON then event Ev.PROG_FAULT [code, h.fpc, arg.toNat, 0x40 * 4] s else s
    endProgram t.val 0x11 (setForeThread t.val (if t.val = 0 then { h with pc := h.pc + 1 } else h) s)

/-! Commit -/

def writeRegs : List (Nat × W64) → Thread → Thread
  | [], h => h
  | (r, v) :: t, h => writeRegs t (h.setG r v)
def writePreds : List (Nat × Bool) → Thread → Thread
  | [], h => h
  | (p, v) :: t, h => writePreds t (h.setP p v)

/-- Both slots commit together (R173); a frame end then ends the item. -/
def commit (c : Ctx) (a b : Eff) (s : State) : State :=
  let h := writePreds b.preds (writeRegs b.regs (writePreds a.preds (writeRegs a.regs c.h)))
  let h := match a.win with | some (w, n) => { h with win := w, wlen := n } | none => h
  let h := { h with pc := a.pc.getD (h.pc + 1), steps := min (h.steps + 1) 0xFFFF }
  let s := b.act (a.act (setThread c.who h s))
  match a.ends with | some f => f s | none => s

/-! Issue -/

/-- The item that runs on a gallery thread. -/
def itemOn (s : State) (g t : Nat) : Option Item :=
  match (galThread s g t).tag with
  | some tag => match itemOf s tag with
    | some it => if it.gal = g ∧ it.st = .running t then some it else none
    | none => none
  | none => none

/-- A foreman thread runs a program and no order of it waits. -/
def foreRuns (s : State) (t : Nat) : Bool :=
  s.mainOn && !s.held && foreOn s &&
  (t == 0 || (match running s t with | some r => r.status.isNone | none => false)) &&
  !s.fore.waits.any (fun o => o.t == t && decide (o.code < 4096)) &&
  !s.guard.held.any (fun h => match h with | .order o => o.t == t | _ => false)

/-- The thread may issue a bundle: it holds an item within its step limit, or a program (R147, R179, R219). -/
def ctxOf (who : Thr) (s : State) : Option Ctx :=
  match who with
  | .gal g t =>
    if nbit (s.reg Reg.GAL_ONLINE).toNat g.val ∧ trafficOn s then
      match itemOn s g.val t.val with
      | some it =>
        if (galThread s g.val t.val).steps < s.fld Reg.GAL_CFG Fd.GAL_CFG_STEP_MAX then some ⟨who, galThread s g.val t.val, some it, s⟩ else none
      | none => none
    else none
  | .fore t =>
    if foreRuns s t.val then
      let c : Ctx := ⟨who, foreThread s t.val, none, s⟩
      match c.codeLen with
      | some n => if c.h.pc < n then some c else none
      | none => some c
    else none

/-- A gallery thread whose next bundle lies beyond its image faults in place of issuing (R185). -/
def beyond (c : Ctx) : Bool :=
  !c.isFore && (match c.codeLen with | some n => decide (n ≤ c.h.pc) | none => false)

/-- One slot under its guard (R174). -/
def guarded (c : Ctx) (gd : Prd) (f : Ctx → Res') : Res' := if c.h.p gd.val then f c else .ok noEff

/-- One bundle issues: every fault is found before any effect, that of slot A first (R173). -/
def bundle (c : Ctx) (gd : Prd) (a : Ctx → Res') (b : SlotB) (s : State) : State :=
  if beyond c then takeFault c 0 FC.BRANCH_RANGE (BitVec.ofNat 64 c.h.pc) s
  else match guarded c gd a, guarded c b.guard (sopRes 1 b.op) with
    | .fault code arg post, _ => takeFault c 0 code arg (post s)
    | .ok _, .fault code arg post => takeFault c 1 code arg (post s)
    | .ok ea, .ok eb => commit c ea eb s

/-- Issues the bundle that a thread's code spells, on a thread that may issue; else nothing changes (log entries 3 and 41). -/
def issue (i : Instr) (who : Thr) (gd : Prd) (a : Ctx → Res') (b : SlotB) (s : State) : State :=
  match ctxOf who s with
  | some c => if spells c i b then bundle c gd a b s else s
  | none => s

end Sys2Proof.Machine
end

