-- ==== Sys2Proof/Machine/Engine.lean ====
section
/-! DEFINITION. The meanings of the Niano instructions: what slot A does, one meaning per row (R183 to R199). -/
namespace Sys2Proof.Machine

/-! Either-slot classes -/

def execNop (t : Thr) (gd : Prd) (b : SlotB) (s : State) : Ans := .next (issue (.nop t gd b) t gd (sopRes 0 .nop) b s)
def execAlu (t : Thr) (gd : Prd) (fn : AluFn) (rd ra rb : Reg) (b : SlotB) (s : State) : Ans := .next (issue (.alu t gd fn rd ra rb b) t gd (sopRes 0 (.alu fn rd ra rb)) b s)
def execHash (t : Thr) (gd : Prd) (rd ra rb : Reg) (b : SlotB) (s : State) : Ans := .next (issue (.hash t gd rd ra rb b) t gd (sopRes 0 (.hash rd ra rb)) b s)
def execAddi (t : Thr) (gd : Prd) (rd ra : Reg) (imm : BitVec 12) (b : SlotB) (s : State) : Ans := .next (issue (.addi t gd rd ra imm b) t gd (sopRes 0 (.addi rd ra imm)) b s)
def execAndi (t : Thr) (gd : Prd) (rd ra : Reg) (imm : BitVec 12) (b : SlotB) (s : State) : Ans := .next (issue (.andi t gd rd ra imm b) t gd (sopRes 0 (.andi rd ra imm)) b s)
def execOri (t : Thr) (gd : Prd) (rd ra : Reg) (imm : BitVec 12) (b : SlotB) (s : State) : Ans := .next (issue (.ori t gd rd ra imm b) t gd (sopRes 0 (.ori rd ra imm)) b s)
def execXori (t : Thr) (gd : Prd) (rd ra : Reg) (imm : BitVec 12) (b : SlotB) (s : State) : Ans := .next (issue (.xori t gd rd ra imm b) t gd (sopRes 0 (.xori rd ra imm)) b s)
def execShli (t : Thr) (gd : Prd) (rd ra : Reg) (sh : Fin 64) (b : SlotB) (s : State) : Ans := .next (issue (.shli t gd rd ra sh b) t gd (sopRes 0 (.shli rd ra sh)) b s)
def execShri (t : Thr) (gd : Prd) (rd ra : Reg) (sh : Fin 64) (b : SlotB) (s : State) : Ans := .next (issue (.shri t gd rd ra sh b) t gd (sopRes 0 (.shri rd ra sh)) b s)
def execSari (t : Thr) (gd : Prd) (rd ra : Reg) (sh : Fin 64) (b : SlotB) (s : State) : Ans := .next (issue (.sari t gd rd ra sh b) t gd (sopRes 0 (.sari rd ra sh)) b s)
def execExt (t : Thr) (gd : Prd) (rd ra : Reg) (pos wid1 : Fin 64) (b : SlotB) (s : State) : Ans := .next (issue (.ext t gd rd ra pos wid1 b) t gd (sopRes 0 (.ext rd ra pos wid1)) b s)
def execIns (t : Thr) (gd : Prd) (rd ra : Reg) (pos wid1 : Fin 64) (b : SlotB) (s : State) : Ans := .next (issue (.ins t gd rd ra pos wid1 b) t gd (sopRes 0 (.ins rd ra pos wid1)) b s)
def execMovi (t : Thr) (gd : Prd) (rd : Reg) (sx : Bool) (imm : BitVec 16) (b : SlotB) (s : State) : Ans := .next (issue (.movi t gd rd sx imm b) t gd (sopRes 0 (.movi rd sx imm)) b s)
def execMovu (t : Thr) (gd : Prd) (rd : Reg) (imm : BitVec 16) (b : SlotB) (s : State) : Ans := .next (issue (.movu t gd rd imm b) t gd (sopRes 0 (.movu rd imm)) b s)
def execCmp (t : Thr) (gd : Prd) (c : Cond) (ra rb : Reg) (pt pf : Prd) (b : SlotB) (s : State) : Ans := .next (issue (.cmp t gd c ra rb pt pf b) t gd (sopRes 0 (.cmp c ra rb pt pf)) b s)
def execCmpi (t : Thr) (gd : Prd) (c : Cond) (ra : Reg) (imm : BitVec 8) (pt pf : Prd) (b : SlotB) (s : State) : Ans := .next (issue (.cmpi t gd c ra imm pt pf b) t gd (sopRes 0 (.cmpi c ra imm pt pf)) b s)
def execPlog (t : Thr) (gd : Prd) (fn : PFn) (pa pb pt pf : Prd) (b : SlotB) (s : State) : Ans := .next (issue (.plog t gd fn pa pb pt pf b) t gd (sopRes 0 (.plog fn pa pb pt pf)) b s)
def execMfs (t : Thr) (gd : Prd) (rd : Reg) (sr : BitVec 12) (b : SlotB) (s : State) : Ans := .next (issue (.mfs t gd rd sr b) t gd (sopRes 0 (.mfs rd sr)) b s)

/-! Branches (R185) -/

def linkReg (rl : Reg) (c : Ctx) : List (Nat × W64) := [(rl.val, BitVec.ofNat 64 (c.h.pc + 1))]

def brRes (rl : Reg) (target : BitVec 13) (c : Ctx) : Res' := .ok { noEff with regs := linkReg rl c, pc := some target.toNat }

def jrRes (rd ra : Reg) (c : Ctx) : Res' :=
  let a := c.h.g ra.val
  if decide (2 ^ 13 ≤ a.toNat) || (match c.codeLen with | some n => decide (n ≤ a.toNat) | none => false) then bad FC.BRANCH_RANGE a
  else .ok { noEff with regs := linkReg rd c, pc := some a.toNat }

/-- BR (R185). -/
def execBr (t : Thr) (gd : Prd) (rl : Reg) (target : BitVec 13) (b : SlotB) (s : State) : Ans := .next (issue (.br t gd rl target b) t gd (brRes rl target) b s)
/-- JR (R185). -/
def execJr (t : Thr) (gd : Prd) (rd ra : Reg) (b : SlotB) (s : State) : Ans := .next (issue (.jr t gd rd ra b) t gd (jrRes rd ra) b s)

/-! Window and foreman data space (R186, R187, R206) -/

def sizeBytes (size : Fin 4) : Nat := 2 ^ size.val
def effAddr (c : Ctx) (ra : Reg) (off : Byte) : Nat := (c.h.g ra.val + off.setWidth 64).toNat
/-- A loaded value. -/
def loaded (b : Bytes) (sx : Bool) : W64 :=
  if sx then BitVec.ofInt 64 (signed (8 * b.length) (beNat b)) else BitVec.ofNat 64 (beNat b)
/-- The low bytes of a register in network order. -/
def stored (v : W64) (n : Nat) : Bytes := (natBe 8 v.toNat).drop (8 - n)

/-- A permission of the access table: R 0, W 1, U 2, A 3 (R408). -/
def permits (s : State) (target master perm : Nat) : Bool := nbit (tget byte0 s.host.access (target * 32 + master)).toNat perm

/-- May a foreman thread access a landing cell: the access table and range of its master, then the token. -/
def foreCell (c : Ctx) (t cell perm : Nat) : Option Res' :=
  let fn := progFn c.s t
  let master := if t = 0 then mForeman else fn
  let arg := BitVec.ofNat 64 cell
  if !permits c.s 0x15 master perm || (t != 0 && !ownsCell c.s fn cell) then some (.fault FC.CELL arg (violation master 0x15 cell))
  else if tokenOf c.s cell ≠ 1 then some (bad FC.CELL arg)
  else none

def landingLo : Nat := 0x100000000
def landingHi : Nat := 0x100000000 + 65536 * 4096

def foreLoad (c : Ctx) (t rd a n : Nat) (sx : Bool) (ecc : Ecc) : Res' :=
  let arg := BitVec.ofNat 64 a
  if a % n ≠ 0 then bad FC.DATA_ALIGN arg
  else if a < 0x10000 then okReg rd (loaded ((List.range n).map (fun i => tget byte0 c.s.fore.scratch (t * 0x10000 + a + i))) sx)
  else if landingLo ≤ a ∧ a < landingHi then
    let m := landingAt 0 + (a - landingLo)
    match foreCell c t ((a - landingLo) / 4096) 0 with
    | some r => r
    | none =>
      let read := readSector (m / 256) ecc
      if (read c.s).1 then .ok { noEff with regs := [(rd, loaded (memBytes c.s m n) sx)], act := useCells t [(a - landingLo) / 4096] }
      else .fault FC.CELL arg (fun s => (read s).2)
  else bad FC.WINDOW_RANGE arg

def putScratch : Nat → Bytes → Table Byte → Table Byte
  | _, [], m => m
  | a, b :: t, m => putScratch (a + 1) t (tput byte0 m a b)

def foreStore (c : Ctx) (t a : Nat) (v : Bytes) : Res' :=
  let arg := BitVec.ofNat 64 a
  if a % v.length ≠ 0 then bad FC.DATA_ALIGN arg
  else if a < 0x10000 then
    .ok { noEff with act := fun s => { s with fore := { s.fore with scratch := putScratch (t * 0x10000 + a) v s.fore.scratch } } }
  else if landingLo ≤ a ∧ a < landingHi then
    let m := landingAt 0 + (a - landingLo)
    match foreCell c t ((a - landingLo) / 4096) 1 with
    | some r => r
    | none =>
      let write := memWrite m v .good
      if (write c.s).1 then .ok { noEff with act := fun s => useCells t [(a - landingLo) / 4096] (write s).2 } else .fault FC.CELL arg (fun s => (write s).2)
  else bad FC.WINDOW_RANGE arg

def wldRes (rd ra : Reg) (off : Byte) (size : Fin 4) (sx : Bool) (ecc : Ecc) (c : Ctx) : Res' :=
  let a := effAddr c ra off
  let n := sizeBytes size
  match c.who with
  | .gal _ _ => if 256 < a + n then bad FC.WINDOW_RANGE (BitVec.ofNat 64 a) else okReg rd.val (loaded (slice c.h.win a n) sx)
  | .fore t => foreLoad c t.val rd.val a n sx ecc

/-- The window of these domains is read-only (R176). -/
def windowRo (c : Ctx) : Bool := decide (32 ≤ c.dom) && decide (c.dom < 96)

def wstRes (rs ra : Reg) (off : Byte) (size : Fin 4) (c : Ctx) : Res' :=
  let a := effAddr c ra off
  let v := stored (c.h.g rs.val) (sizeBytes size)
  let arg := BitVec.ofNat 64 a
  match c.who with
  | .gal _ _ =>
    if windowRo c then bad FC.WINDOW_RO arg
    else if c.h.wlen < a + v.length then bad FC.WINDOW_RANGE arg
    else .ok { noEff with win := some (overlay c.h.win a v, c.h.wlen) }
  | .fore t => foreStore c t.val a v

/-- The item of a thread changed. -/
def onItem (who : Thr) (f : Item → Item) (s : State) : State :=
  match (threadOf s who).tag with
  | some tag => match itemOf s tag with
    | some it => setItem tag (some (f it)) s
    | none => s
  | none => s

def winsRes (n1 : Fin 32) (ra : Reg) (off : Byte) (c : Ctx) : Res' :=
  let a := effAddr c ra off
  let n := n1.val + 1
  let arg := BitVec.ofNat 64 a
  if c.isFore then bad FC.CONTEXT arg
  else if windowRo c then bad FC.WINDOW_RO arg
  else if c.h.wlen < a then bad FC.WINDOW_RANGE arg
  else if 256 < c.h.wlen + n then bad FC.WINDOW_FULL arg
  else .ok { noEff with
    win := some (c.h.win.take a ++ zeros n ++ c.h.win.drop a, c.h.wlen + n), act := onItem c.who (fun it => { it with len := it.len + n }) }

def wdelRes (n1 : Fin 32) (ra : Reg) (off : Byte) (c : Ctx) : Res' :=
  let a := effAddr c ra off
  let n := n1.val + 1
  let arg := BitVec.ofNat 64 a
  if c.isFore then bad FC.CONTEXT arg
  else if windowRo c then bad FC.WINDOW_RO arg
  else if c.h.wlen < a + n then bad FC.WINDOW_RANGE arg
  else .ok { noEff with
    win := some (c.h.win.take a ++ c.h.win.drop (a + n), c.h.wlen - n), act := onItem c.who (fun it => { it with len := it.len - n }) }

/-- WLD (R186, R206). -/
def execWld (t : Thr) (gd : Prd) (rd ra : Reg) (off : Byte) (size : Fin 4) (sx : Bool) (ecc : Ecc) (b : SlotB) (s : State) : Ans :=
  .next (issue (.wld t gd rd ra off size sx ecc b) t gd (wldRes rd ra off size sx ecc) b s)
/-- WST (R186, R206). -/
def execWst (t : Thr) (gd : Prd) (rs ra : Reg) (off : Byte) (size : Fin 4) (b : SlotB) (s : State) : Ans := .next (issue (.wst t gd rs ra off size b) t gd (wstRes rs ra off size) b s)
/-- WINS (R187). -/
def execWins (t : Thr) (gd : Prd) (n1 : Fin 32) (ra : Reg) (off : Byte) (b : SlotB) (s : State) : Ans := .next (issue (.wins t gd n1 ra off b) t gd (winsRes n1 ra off) b s)
/-- WDEL (R187). -/
def execWdel (t : Thr) (gd : Prd) (n1 : Fin 32) (ra : Reg) (off : Byte) (b : SlotB) (s : State) : Ans := .next (issue (.wdel t gd n1 ra off b) t gd (wdelRes n1 ra off) b s)

/-! MTS (R178, R188) -/

def mtsRes (rs : Reg) (sr : BitVec 12) (c : Ctx) : Res' :=
  let n := sr.toNat
  let v := c.h.g rs.val
  let arg := BitVec.ofNat 64 n
  if n < 0x012 then
    if c.isFore then bad FC.SR_UNDEF arg
    else if n = 0x004 then .ok { noEff with act := onItem c.who (fun it => { it with cls := v.toNat % 8 }) }
    else if n = 0x005 then .ok { noEff with act := onItem c.who (fun it => { it with color := min (v.toNat % 4) 2 }) }
    else bad FC.SR_RO arg
  else if n = 0x108 then .ok { noEff with preds := (List.range 8).map (fun i => (i, nbit v.toNat i)) }
  else if 0x100 ≤ n ∧ n ≤ 0x109 then bad FC.SR_RO arg
  else if isForeSr n then
    if !c.isFore then bad FC.PRIV arg
    else if n = 0x205 then
      .ok { noEff with act := fun s => { s with fore := { s.fore with event := s.fore.event &&& (0xFFFF ^^^ (v.toNat % 0x10000)) } } }
    else bad FC.SR_RO arg
  else bad FC.SR_UNDEF arg

/-- MTS (R178, R188). -/
def execMts (t : Thr) (gd : Prd) (rs : Reg) (sr : BitVec 12) (b : SlotB) (s : State) : Ans := .next (issue (.mts t gd rs sr b) t gd (mtsRes rs sr) b s)

/-! Lookup, meter, counter, queue (R189 to R192) -/

def lkpAnswer (rd : Reg) (pt pf : Prd) (r : Option W64) (act : State → State) : Res' :=
  .ok { noEff with regs := [(rd.val, r.getD 0)], preds := [(pt.val, r.isSome), (pf.val, r.isNone)], act := act }

/-- A lookup, in the tables as the ECC errors found at this access leave them (R245); they go with the bundle's other effects (R173). -/
def lkpRes (rd ra : Reg) (tbl : Fin 2) (pt pf : Prd) (ecc : List (Nat × Nat)) (c : Ctx) : Res' :=
  let key := (c.h.g ra.val).toNat
  let v := tableEcc ecc c.s
  if tbl.val = 0 then
    if 2 ^ 60 ≤ key then bad FC.TABLE_KEY (c.h.g ra.val)
    else lkpAnswer rd pt pf ((findPeer v key).map (fun e => e.2.res)) (fun s => (lookPeer key (tableEcc ecc s)).2)
  else match c.item with
    | some it =>
      lkpAnswer rd pt pf ((matchRule v (ruleKey v (descriptor it c.h.wlen 0x001) it.flags c.h.win)).map (fun e => e.2.res)) (tableEcc ecc)
    | none => bad FC.CONTEXT 0

/-- LKP (R189). -/
def execLkp (t : Thr) (gd : Prd) (rd ra : Reg) (tbl : Fin 2) (pt pf : Prd) (ecc : List (Nat × Nat)) (b : SlotB) (s : State) : Ans :=
  .next (issue (.lkp t gd rd ra tbl pt pf ecc b) t gd (lkpRes rd ra tbl pt pf ecc) b s)

def mtrRes (rd ra rb : Reg) (c : Ctx) : Res' :=
  let m := (c.h.g ra.val).toNat
  match c.item with
  | none => bad FC.CONTEXT 0
  | some it =>
    if 65536 ≤ m then bad FC.METER_RANGE (c.h.g ra.val)
    else
      let n := if rb.val = 0 then it.len else (c.h.g rb.val).toNat
      let col := (meterFrame m n it.color c.s).1
      .ok { noEff with
        regs := [(rd.val, BitVec.ofNat 64 col)]
        act := fun s => onItem c.who (fun it => { it with color := col }) (meterFrame m n it.color s).2 }

/-- MTR (R190). -/
def execMtr (t : Thr) (gd : Prd) (rd ra rb : Reg) (b : SlotB) (s : State) : Ans := .next (issue (.mtr t gd rd ra rb b) t gd (mtrRes rd ra rb) b s)

/-- Adds to one counter of the program counter bank; half range raises COUNTER_HALF of subsystem 4 (R312). -/
def bumpBank (k n : Nat) (s : State) : State :=
  let old := tget nat0 s.gal.pcnt k
  let s' := { s with gal := { s.gal with pcnt := tput nat0 s.gal.pcnt k (count40 old n) } }
  if crossedHalf old n then event (Ev.COUNTER_HALF 4) [k / 2, k % 2] s' else s'

def cntRes (ra rb : Reg) (c : Ctx) : Res' :=
  let k := (c.h.g ra.val).toNat
  match c.item with
  | none => bad FC.CONTEXT 0
  | some it =>
    if 131072 ≤ k then bad FC.COUNTER_RANGE (c.h.g ra.val)
    else
      let n := if rb.val = 0 then it.len else (c.h.g rb.val).toNat
      .ok { noEff with act := fun s => bumpBank (2 * k + 1) n (bumpBank (2 * k) 1 s) }

/-- CNT (R191). -/
def execCnt (t : Thr) (gd : Prd) (ra rb : Reg) (b : SlotB) (s : State) : Ans := .next (issue (.cnt t gd ra rb b) t gd (cntRes ra rb) b s)

def putRes (ra : Reg) (c : Ctx) : Res' :=
  let q := (c.h.g ra.val).toNat
  match c.item with
  | none => bad FC.CONTEXT 0
  | some it =>
    if 1024 ≤ q ∨ windowRo c ∧ 64 ≤ it.dom ∨ egressOf q ≠ it.target then bad FC.QUEUE (c.h.g ra.val)
    else .ok { noEff with act := onItem c.who (fun it => { it with queue := q }) }

/-- PUT (R192); a tub has no egress queue to choose. -/
def execPut (t : Thr) (gd : Prd) (ra : Reg) (b : SlotB) (s : State) : Ans := .next (issue (.put t gd ra b) t gd (putRes ra) b s)

/-! Frame ends (R146, R148, R193 to R196) -/

/-- The thread is free again: registers, predicates and window zeroed (R175). -/
def freeThread (g t : Nat) (s : State) : State := setGalThread g t (clearThread (galThread s g t)) s

/-- The item on a gallery thread ends: what becomes of it, given its frame as the window left it. -/
def endWith (c : Ctx) (f : Item → State → State) (s : State) : State :=
  match c.who, c.h.tag with
  | .gal g t, some tag =>
    match itemOf s tag with
    | some it =>
      let it := { it with data := c.h.win.take c.h.wlen ++ it.data.drop it.loaded }
      freeThread g.val t.val (f it s)
    | none => s
  | _, _ => s

/-- The result of an item that its screen has given up: discarded, never emitted, counted no more (R155). -/
def discard (it : Item) (s : State) : State := setItem it.tag none (releaseKey it s)

/-- An item becomes a dropped tag: the drop is counted now, its key given back. -/
def dropTag (it : Item) (reason sub : Nat) (s : State) : State :=
  if it.gone.isSome then discard it s
  else setItem it.tag (some { it with st := .dropped reason sub, key := none }) (releaseKey it (itemDrop it reason s))

/-- An item ends without the cipher unit. -/
def plainEnd (st : IState) (passed : Bool) (it : Item) (s : State) : State :=
  if it.gone.isSome then discard it s
  else setItem it.tag (some { it with st := st, key := none, passed := passed }) (releaseKey it s)

/-- The item is a tub: its data is the payload, and the window held its header. -/
def isTub (it : Item) : Bool := decide (64 ≤ it.dom) && decide (it.dom < 96)

/-- The checks of R194: the drop reason, if any. -/
def leaveCheck (s : State) (it : Item) (extra : Nat) : Option Nat :=
  if it.color = 2 then some 0x01
  else if !isTub it && (decide (it.len < 14) || decide (maxLen s it.target < it.len + extra + 4)) then some 0x0E
  else none

/-- SEAL toward a line port: the bytes it adds. -/
def sealAdds (s : State) (it : Item) : Nat := if 32 ≤ it.target ∧ it.target < 64 then expansion s (it.target - 32) else 0

/-- An item passes to its gallery's cipher unit, where it takes a work context or waits for one (R148, R149). -/
def toUnit (it : Item) (s : State) : State := enterUnit it.gal (.item it.tag) (setItem it.tag (some it) s)

/-- SEAL of an item: to the cipher unit, or dropped (R35, R194, R486). -/
def sealItem (raw : Bytes) (it : Item) (s : State) : State :=
  let it := if isTub it then { it with data := raw } else it
  match leaveCheck s it (sealAdds s it) with
  | some r => dropTag it r 0 s
  | none =>
    match it.noKey with
    | some r => dropTag it r 0 s
    | none =>
      if !isTub it && (decide (it.target < 32) || !nbit it.mscCfg.toNat 0) then dropTag it 0x09 0 s
      else toUnit { it with st := .sealing } s

/-- The association names a transmit SC. -/
def onTxSc (s : State) (it : Item) : Bool :=
  match it.assoc with | some a => (arec s a).c AC.DIR == 0 && !tribNames s 0 a && !tribNames s 1 a | none => false

def endRes (c : Ctx) (ok : Bool) (f : Item → State → State) : Res' :=
  if c.isFore then bad FC.CONTEXT 0
  else if ok then .ok { noEff with ends := some (endWith c f) }
  else bad FC.FRAME_END (BitVec.ofNat 64 c.dom)

def rawOf (c : Ctx) : Bytes := match c.item with | some it => it.data | none => []

def sealRes (c : Ctx) : Res' :=
  let ok := decide (c.dom < 32) || (decide (64 ≤ c.dom) && decide (c.dom < 80)) ||
    (decide (96 ≤ c.dom) && (match c.item with | some it => onTxSc c.s it | none => false))
  endRes c ok (sealItem (rawOf c))

def openRes (c : Ctx) : Res' :=
  let ok := (decide (32 ≤ c.dom) && decide (c.dom < 64)) || (decide (80 ≤ c.dom) && decide (c.dom < 96))
  endRes c ok (fun it s => toUnit { it with data := rawOf c, rx := if isTub it then rawOf c else (rawOf c).take 128, st := .opening } s)

def passRes (c : Ctx) : Res' :=
  let ok := decide (c.dom < 32) || decide (96 ≤ c.dom) ||
    (decide (c.dom < 64) && (match c.item with | some it => hasFlag it.flags fClearOk | none => false))
  endRes c ok (fun it s => match leaveCheck s it 0 with | some r => dropTag it r 0 s | none => plainEnd .done true it s)

def dropRes (reason sub : Nat) (c : Ctx) : Res' :=
  endRes c true (fun it s => dropTag { it with data := rawOf c } reason sub s)

def puntItem (fn : Nat) (it : Item) (s : State) : State :=
  if it.gone.isSome then discard it s else
  let (ok, s) := pushRx fn ⟨1, descriptor it 0 0x001, 0, it.assoc, some it.queue, it.dom, it.ts⟩ it.data s
  if ok then plainEnd .punted false it s else dropTag it 0x02 0 s

def puntRes (fn : Nat) (c : Ctx) : Res' := endRes c (decide (c.dom < 64)) (puntItem fn)

/-- SEAL (R148, R193, R194). -/
def execSealEnd (t : Thr) (gd : Prd) (b : SlotB) (s : State) : Ans := .next (issue (.sealEnd t gd b) t gd sealRes b s)
/-- OPEN (R148, R193). -/
def execOpenEnd (t : Thr) (gd : Prd) (b : SlotB) (s : State) : Ans := .next (issue (.openEnd t gd b) t gd openRes b s)
/-- PASS (R148, R193, R194). -/
def execPassEnd (t : Thr) (gd : Prd) (b : SlotB) (s : State) : Ans := .next (issue (.passEnd t gd b) t gd passRes b s)

/-- The reasons and subcodes an image may hold (R195). -/
def dropLegal (reason sub : Nat) : Bool := if reason = 0x11 then decide (sub < 0xF0) else [0x01, 0x09, 0x0E].contains reason && sub == 0

/-- DROP (R148, R195); no loaded image holds another reason or subcode. -/
def execDropEnd (t : Thr) (gd : Prd) (reason : Fin 64) (sub : Byte) (b : SlotB) (s : State) : Ans :=
  .next (onlyIf (dropLegal reason.val sub.toNat) (issue (.dropEnd t gd reason sub b) t gd (dropRes reason.val sub.toNat) b) s)

/-- PUNT (R148, R196). -/
def execPuntEnd (t : Thr) (gd : Prd) (fn : Fin 16) (b : SlotB) (s : State) : Ans := .next (issue (.puntEnd t gd fn b) t gd (puntRes fn.val) b s)

/-! Atomics (R197, R198) -/

def stateWord (s : State) (i : Nat) : W64 := tget w640 s.gal.state i

/-- A state word written; it is no longer poisoned. -/
def putState (i : Nat) (v : W64) (s : State) : State :=
  { s with gal := { s.gal with state := tput w640 s.gal.state i v, poison := s.gal.poison.filter (· != i) } }

/-- A corrected error of a state word: counted, and reported with the engine that met it, 0x40 for the foreman, and the word's index (R170, R198). -/
def eccFixed (ecc : Ecc) (who : Thr) (i : Nat) (s : State) : State :=
  match ecc with
  | .corrected => event Ev.ECC_CORRECTED [(match who with | .gal g _ => g.val | .fore _ => 0x40), i] (bump Reg.GAL_CNT_ECC_CORR 1 s)
  | _ => s

/-- An atomic on word ra: `res` says whether rd takes the old word, `afresh` whether it writes a poisoned word anew; the old value of a poisoned word is free (log entry 42). -/
def atomRes (rd : Reg) (ra : Reg) (ecc : Ecc) (res afresh writes : Bool) (upd : W64 → W64) (c : Ctx) : Res' :=
  let i := (c.h.g ra.val).toNat
  let arg := c.h.g ra.val
  if 2 ^ 18 ≤ i then bad FC.STATE_RANGE arg
  else if c.s.gal.poison.contains i then
    if !afresh then bad FC.STATE_POISON arg
    else
      let m := Config.free c.s.draws
      .ok { noEff with regs := if res then [(rd.val, m)] else [], act := fun s => (putState i (upd m) s).drew }
  else if ecc = .bad then .fault FC.STATE_POISON arg (fun s => { s with gal := { s.gal with poison := s.gal.poison ++ [i] } })
  else
    let m := stateWord c.s i
    .ok { noEff with
      regs := if res then [(rd.val, m)] else []
      act := fun s => eccFixed ecc c.who i (if writes then putState i (upd m) s else s) }

/-- ALD (Table 06.11). -/
def execAld (t : Thr) (gd : Prd) (rd ra : Reg) (ecc : Ecc) (b : SlotB) (s : State) : Ans :=
  .next (issue (.ald t gd rd ra ecc b) t gd (atomRes rd ra ecc true false false id) b s)
/-- AST. -/
def execAst (t : Thr) (gd : Prd) (rd ra rb : Reg) (ecc : Ecc) (b : SlotB) (s : State) : Ans :=
  .next (issue (.ast t gd rd ra rb ecc b) t gd (fun c => atomRes rd ra ecc false true true (fun _ => c.h.g rb.val) c) b s)
/-- AADD. -/
def execAadd (t : Thr) (gd : Prd) (rd ra rb : Reg) (ecc : Ecc) (b : SlotB) (s : State) : Ans :=
  .next (issue (.aadd t gd rd ra rb ecc b) t gd (fun c => atomRes rd ra ecc true false true (fun m => m + c.h.g rb.val) c) b s)
/-- AAND. -/
def execAand (t : Thr) (gd : Prd) (rd ra rb : Reg) (ecc : Ecc) (b : SlotB) (s : State) : Ans :=
  .next (issue (.aand t gd rd ra rb ecc b) t gd (fun c => atomRes rd ra ecc true false true (fun m => m &&& c.h.g rb.val) c) b s)
/-- AOR. -/
def execAor (t : Thr) (gd : Prd) (rd ra rb : Reg) (ecc : Ecc) (b : SlotB) (s : State) : Ans :=
  .next (issue (.aor t gd rd ra rb ecc b) t gd (fun c => atomRes rd ra ecc true false true (fun m => m ||| c.h.g rb.val) c) b s)
/-- AXOR. -/
def execAxor (t : Thr) (gd : Prd) (rd ra rb : Reg) (ecc : Ecc) (b : SlotB) (s : State) : Ans :=
  .next (issue (.axor t gd rd ra rb ecc b) t gd (fun c => atomRes rd ra ecc true false true (fun m => m ^^^ c.h.g rb.val) c) b s)
/-- ASWP. -/
def execAswp (t : Thr) (gd : Prd) (rd ra rb : Reg) (ecc : Ecc) (b : SlotB) (s : State) : Ans :=
  .next (issue (.aswp t gd rd ra rb ecc b) t gd (fun c => atomRes rd ra ecc true true true (fun _ => c.h.g rb.val) c) b s)
/-- ACAS. -/
def execAcas (t : Thr) (gd : Prd) (rd ra rb : Reg) (ecc : Ecc) (b : SlotB) (s : State) : Ans :=
  .next (issue (.acas t gd rd ra rb ecc b) t gd (fun c => atomRes rd ra ecc true false true (fun m => if m = c.h.g rd.val then c.h.g rb.val else m) c) b s)

/-! SYNC (R199) -/

/-- FENCE (R199): every posted update of the model has reached its memory when its bundle commits, so nothing is left to wait for. -/
def execFence (t : Thr) (gd : Prd) (b : SlotB) (s : State) : Ans := .next (issue (.fence t gd b) t gd (fun _ => .ok noEff) b s)
/-- YIELD (R199). -/
def execSyncYield (t : Thr) (gd : Prd) (b : SlotB) (s : State) : Ans := .next (issue (.syncYield t gd b) t gd (fun _ => .ok noEff) b s)

/-- EVENT and rb. -/
def waitBits (c : Ctx) (rb : Reg) : W64 := BitVec.ofNat 64 c.s.fore.event &&& c.h.g rb.val

def waitevRes (rd rb : Reg) (c : Ctx) : Res' := if c.isFore then okReg rd.val (waitBits c rb) else bad FC.CONTEXT 0

/-- A bundle whose WAITEV still waits does not issue. -/
def waitevHolds (t : Thr) (gd : Prd) (rb : Reg) (s : State) : Bool :=
  match ctxOf t s with
  | some c => c.isFore && c.h.p gd.val && waitBits c rb == 0
  | none => false

/-- WAITEV (R199): waits, its bundle not issued, until an event that rb names is pending. -/
def execWaitev (t : Thr) (gd : Prd) (rd rb : Reg) (b : SlotB) (s : State) : Ans :=
  .next (onlyIf (!waitevHolds t gd rb s) (issue (.waitev t gd rd rb b) t gd (waitevRes rd rb) b) s)

/-! Threads and items (R146, R147, R159, R160, R175, R176) -/

/-- Before its first bundle an item's thread takes its window: 192 bytes of a frame, or a tub's header (R176). -/
def takeItem (g t : Nat) (it : Item) (s : State) : State :=
  let s := { s with gal := { s.gal with queues := tput nil0 s.gal.queues g (tget nil0 s.gal.queues g).tail } }
  match imageOf s it.epoch with
  | none => dropTag it 0x11 0xFC s
  | some im =>
    let w := if isTub it then slice it.hdr 0 16 else it.data.take 192
    let h := { clearThread (galThread s g t) with tag := some it.tag, win := w, wlen := w.length, pc := im.entries.getD (entryOf it.dom) 0 }
    setGalThread g t h (setItem it.tag (some { it with st := .running t, loaded := if isTub it then 0 else w.length }) s)

/-- THREAD_TAKE_ITEM (R146): a free thread takes the next item of its gallery's queue. -/
def execThreadTakeItem (g : Fin 64) (t : Fin 16) (s : State) : Ans :=
  .next (onlyIf (trafficOn s && nbit (s.reg Reg.GAL_ONLINE).toNat g.val && (galThread s g.val t.val).tag.isNone) (fun s =>
    match tget nil0 s.gal.queues g.val with
    | [] => s
    | tag :: _ => match itemOf s tag with
      | some it => takeItem g.val t.val it s
      | none => s) s)

/-- STEP_LIMIT (R147): a thread that has issued STEP_MAX bundles on its item is stopped. -/
def execStepLimit (g : Fin 64) (t : Fin 16) (s : State) : Ans :=
  match itemOn s g.val t.val with
  | some it =>
    .next (onlyIf (trafficOn s && decide (s.fld Reg.GAL_CFG Fd.GAL_CFG_STEP_MAX ≤ (galThread s g.val t.val).steps)) (fun s =>
      event Ev.STEP_LIMIT [g.val, t.val] (bump Reg.GAL_CNT_STEP_LIMIT 1 (freeThread g.val t.val (dropTag it 0x11 0xFF s)))) s)
  | none => .next s

end Sys2Proof.Machine
end

