-- ==== Sys2Proof/Machine/Cipher.lean ====
section
/-! DEFINITION. The cipher units (R36, R37, R40, R45, R92, R148 to R152) and galleries that go offline or come back (R160, R161). -/
namespace Sys2Proof.Machine

/-! Protected frames (R36, R37, R40, R45) -/

/-- The key of an item: as long as its slot's LEN says, whatever suite the record names (log entry 115). -/
def KeyUse.bytes (k : KeyUse) : Bytes := (natBe 32 k.key.toNat).take (if k.len256 then 32 else 16)

/-- Bytes that stay in clear behind the SecTAG (R40). -/
def confOffset (ctrl : W32) : Nat := [0, 30, 50, 0].getD (cfield ctrl AC.OFFSET) 0

/-- The 96-bit IV of a MACsec frame (R45): SCI and PN, or SALT xor (SSCI and the 64-bit PN) in the XPN suites. -/
def macsecIv (it : Item) : Bytes :=
  if xpn it.ctrl then natBe 12 ((it.ssci % 2 ^ 32 * 2 ^ 64 + it.pn) ^^^ it.salt) else natBe 8 it.sci ++ natBe 4 it.pn

/-- GCM with confidentiality, or GMAC over everything: what is sent for the text, and the tag. -/
def protect (key iv aad text : Bytes) (conf : Bool) : Bytes × Bytes :=
  if conf then
    let c := gcmCrypt key iv text
    (c, gcmTag key iv aad c)
  else (text, gcmTag key iv (aad ++ text) [])

/-- The SecTAG of a transmitted frame (R37): `len` bytes of user data follow it. -/
def secTag (it : Item) (inclSci : Bool) (len : Nat) : Bytes :=
  let conf := cfield it.ctrl AC.CONF
  [0x88, 0xE5, BitVec.ofNat 8 (b2n inclSci * 32 + conf * 12 + it.an), BitVec.ofNat 8 (if len < 48 then len else 0)] ++
    natBe 4 (it.pn % 2 ^ 32) ++ (if inclSci then natBe 8 it.sci else [])

/-- The frame a SEAL makes toward a line port (R36, R37, R40). -/
def sealFrame (s : State) (line : Nat) (it : Item) (k : KeyUse) : Bytes :=
  let off := 12 + 4 * min (mscF s line Fd.MSC_PORT_CFG_CLEAR_TAGS) (tagCount s it.data)
  let user := it.data.drop off
  let head := it.data.take off ++ secTag it (mscF s line Fd.MSC_PORT_CFG_INCL_SCI == 1) user.length ++ user.take (confOffset it.ctrl)
  let p := protect k.bytes (macsecIv it) head (user.drop (confOffset it.ctrl)) (cfield it.ctrl AC.CONF == 1)
  head ++ p.1 ++ p.2

/-- User bytes of a frame that leaves protected: what follows the addresses and the tags kept in clear. -/
def userLen (s : State) (line : Nat) (it : Item) : Nat :=
  it.data.length - (12 + 4 * min (mscF s line Fd.MSC_PORT_CFG_CLEAR_TAGS) (tagCount s it.data))

/-- OutPktsProtected or OutPktsEncrypted and their octets (R65). -/
def countSealed (it : Item) (octets : Nat) (s : State) : State :=
  match it.assoc with
  | some a =>
    let k := 16 * it.an + (if cfield it.ctrl AC.CONF = 1 then CN.OUT_ENC else CN.OUT_PROT)
    bumpAssoc a (k + 1) octets (bumpAssoc a k 1 s)
  | none => s

/-! Tubs (R92) -/

/-- The IV of a tub (Table 03.8). -/
def tubIv (salt pos tsel seq : Nat) : Bytes := natBe 4 salt ++ natBe 8 (pos * 2 ^ 63 + tsel * 2 ^ 60 + seq % 2 ^ 48)

/-- A sealed tub: header, ciphertext, tag. -/
def sealTub (s : State) (it : Item) (k : KeyUse) : Bytes :=
  let iv := tubIv it.salt s.position (txCfg s (it.dom - 64) Fd.LFR_TRUNK_CFG_TSEL) it.pn
  let p := protect k.bytes iv it.hdr it.data true
  it.hdr ++ p.1 ++ p.2

/-- The state as the registers of R66 stood when an item was classified. -/
def asClassified (line : Nat) (it : Item) (s : State) : State := (s.setReg (Reg.MSC_PORT_CFG line) it.mscCfg).setReg Reg.MSC_TPID it.tpid

/-- The time the cipher unit still needs for what lies behind the first 256 bytes: one 16-byte block per 500 ps (R149; log entry 135). -/
def restNs (n : Nat) : Nat := ceilDiv (ceilDiv (n - 256) 16) 2

/-- The unit has written the first 256 bytes, or the whole item: its context is free, or stays with the rest, and the key fetch lasts as long (R148, R150). -/
def unitWrote (it : Item) (slot n : Nat) (s : State) : State :=
  if n ≤ 256 then leaveUnit it.gal (.item it.tag) none (unfetch slot s)
  else leaveUnit it.gal (.item it.tag) (some (.rest slot (s.time.up + restNs n))) s

/-- A sealed item: its bytes as they leave, and what is counted. -/
def sealDone (it : Item) (k : KeyUse) (s : State) : State :=
  let line := it.target - 32
  let out := if isTub it then sealTub s it k else sealFrame (asClassified line it s) line it k
  let octets := userLen (asClassified line it s) line it
  let by_ := if out.length ≤ 256 then none else some (it.gal, s.time.up + restNs out.length)
  let s := setItem it.tag (some { it with data := out, st := .done, key := none, sealBy := by_ }) (unitWrote it k.slot out.length s)
  if isTub it then s else countSealed it octets s

/-- The cipher unit hands over a SEAL, with the key its context holds; an item without a key is one whose SC gave it none (R486). -/
def sealEnds (it : Item) (key : BitVec 512) (s : State) : State :=
  match it.key with
  | some k =>
    if it.gone.isSome then discard it (leaveUnit it.gal (.item it.tag) none s)
    else sealDone it { k with key := key.setWidth 256 } s
  | none => dropTag it 0x09 0 (leaveUnit it.gal (.item it.tag) none s)

/-- The item of a tag that is in a state: the one that holds the tag, else one the screen has given up. -/
def unitItem (s : State) (tag : Nat) (st : IState) : Option Item :=
  s.gal.items.findSome? (fun e => match e.2 with
    | some it => if e.1 % 65536 = tag ∧ it.tag = e.1 ∧ it.st = st then some it else none
    | none => none)

/-- SEAL_HANDOVER (R150): the cipher unit hands a sealed item to the screen when its first 256 bytes, or all of it, are written. -/
def execSealHandover (tag : Fin 65536) (s : State) : Ans :=
  match unitItem s tag.val .sealing with
  | some it => match unitKey s it.gal (.item it.tag) with
    | some key => .next (onlyIf s.live (sealEnds it key) s)
    | none => .next s
  | none => .next s

/-- A context whose unit has written the rest of its item. -/
def endRest (s : State) (e : Nat × CipherCtx) : State :=
  match e.2.work with
  | some (.rest slot u) => if u ≤ s.time.up then loadUnit (e.1 / 4) (setCtx e.1 { e.2 with work := none } (unfetch slot s)) else s
  | _ => s
def endRests (s : State) : State := s.gal.ctxs.foldl endRest s

/-! OPEN (R151, R152) -/

/-- What OPEN finds: whether the tag matches, and the plaintext. -/
structure OpenRes where
  ok : Bool
  data : Bytes
  deriving DecidableEq, Repr

/-- A protected frame opened: the SecTAG and the ICV leave it. -/
def openFrame (it : Item) (k : KeyUse) : OpenRes :=
  let n := it.data.length
  let start := it.tagOff + secTagLen it.data it.tagOff
  let user := (it.data.take (n - 16)).drop start
  let enc := nbit it.tci.toNat 3
  let aad := it.data.take start ++ user.take (confOffset it.ctrl)
  let text := user.drop (confOffset it.ctrl)
  let iv := macsecIv it
  let tag := if enc then gcmTag k.bytes iv aad text else gcmTag k.bytes iv (aad ++ text) []
  let plain := if enc then gcmCrypt k.bytes iv text else text
  ⟨tag == it.data.drop (n - 16), it.data.take it.tagOff ++ user.take (confOffset it.ctrl) ++ plain⟩

/-- The trunk whose twin position and TSEL a received tub's IV takes: the tributary's primary trunk (R92). -/
def openTub (s : State) (it : Item) (k : KeyUse) : OpenRes :=
  let n := tribTrunk s 1 it.trib
  let iv := tubIv it.salt (rxCfg s n Fd.LFR_TRUNK_RXCFG_PEER_TWIN) (rxCfg s n Fd.LFR_TRUNK_RXCFG_PEER_TSEL) it.pn
  let c := it.data.take (it.data.length - 16)
  ⟨gcmTag k.bytes iv it.hdr c == it.data.drop (it.data.length - 16), gcmCrypt k.bytes iv c⟩

def openOf (s : State) (it : Item) : OpenRes :=
  match it.key with
  | some k => if isTub it then openTub s it k else openFrame it k
  | none => ⟨false, []⟩

/-- InPktsNotValid of an SA (R65). -/
def countNotValid (it : Item) (s : State) : State :=
  match it.assoc with
  | some a => bumpAssoc a (16 * it.an + CN.IN_NOT_VALID) 1 s
  | none => s

/-- A tub whose verification failed is remembered for the frames it held (R17). -/
def noteFailed (it : Item) (s : State) : State :=
  let x := rxTribOf s it.trib
  setRxTrib it.trib { x with failed := x.failed ++ [(it.kepoch, it.pn)] } s

/-- Verification fails (R152): the plaintext is gone, the tag goes to the screen as dropped, the replay state stays (R49). -/
def authFail (it : Item) (s : State) : State :=
  if it.gone.isSome then discard it s else
  let s := if isTub it then noteFailed it s else countNotValid it s
  bump Reg.GAL_CNT_AUTH_FAIL 1 (dropTag it 0x0A 0 s)

/-- Both comparators report a match (R151); PTP event messages are recognised now (R347). -/
def openOk (it : Item) (plain : Bytes) (s : State) : State :=
  if it.gone.isSome then discard it s else
  let ptp := !isTub it && (ptpEvent (asClassified (it.port - 32) it s) plain).isSome
  setItem it.tag (some { it with data := plain, st := .done, key := none, flags := if ptp then it.flags ||| fPtp else it.flags }) (releaseKey it s)

/-! Galleries offline and online (R160, R161) -/

/-- Galleries of the variant (Table 00.3). -/
def galPresent (s : State) : Nat := if s.variant = 1 then 2 ^ 32 - 1 else 2 ^ 64 - 1

/-- A gallery that goes online starts to count its cycles. -/
def setOnline (g : Nat) (on : Bool) (s : State) : State :=
  let s := if on then { s with gal := { s.gal with started := tput nat0 s.gal.started g s.time.up } } else s
  s.setReg Reg.GAL_ONLINE (BitVec.ofNat 64 (setNbit (s.reg Reg.GAL_ONLINE).toNat g on))

/-- An item of a gallery that has not ended there. -/
def atGallery (g : Nat) (it : Item) : Bool :=
  it.gal == g && (match it.st with | .queued => true | .running _ => true | .sealing => true | .opening => true | _ => false)

/-- The gallery's cipher unit still writes an item's last bytes. -/
def sealingYet (s : State) (g : Nat) (by_ : Option (Nat × Nat)) : Bool := match by_ with | some (x, u) => x == g && decide (s.time.up < u) | none => false

def faultItem (g : Nat) (s : State) (e : Nat × Option Item) : State :=
  match e.2 with
  | some it => if atGallery g it || sealingYet s g it.sealBy then dropTag it 0x11 0xFE s else s
  | none => s

/-- A queued frame whose sealing fails is sent, and ends with an inverted FCS (R150). -/
def cutFrame (g : Nat) (s : State) (f : QFrame) : QFrame := if sealingYet s g f.sealBy then { f with cut := true } else f
def cutFrames (g : Nat) (s : State) : State :=
  { s with wnd := { s.wnd with
    queues := tmap queue0 (fun _ q => { q with frames := q.frames.map (cutFrame g s) }) s.wnd.queues
    egress := tmap egress0 (fun _ e => { e with busy := e.busy.map (cutFrame g s) }) s.wnd.egress } }

/-- Jobs that run on a gallery's cipher unit end ABORTED when it goes offline (log entry 43). -/
def abortJobsOf (g : Nat) (s : State) : State :=
  (s.gal.jobs.filter (fun b => b.gal == g)).foldl abortJob { s with gal := { s.gal with jobs := s.gal.jobs.filter (fun b => b.gal != g) } }

/-- Threads, key registers and windows of a gallery zeroed, its queue empty. -/
def clearGallery (g : Nat) (s : State) : State :=
  let s := (s.gal.ctxs.filter (fun e => e.1 / 4 == g)).foldl unfetchRest s
  { s with gal := { s.gal with
      threads := tmap thread0 (fun k h => if k / 16 = g then clearThread h else h) s.gal.threads
      queues := tput nil0 s.gal.queues g []
      ctxs := tmap ctx0 (fun k c => if k / 4 = g then ctx0 0 else c) s.gal.ctxs
      unitQ := tput nil0 s.gal.unitQ g [] } }

/-- A gallery goes offline (R160). -/
def galleryOff (g cause : Nat) (s : State) : State :=
  let s := bump Reg.GAL_CNT_FAULT 1 (setOnline g false s)
  let s := cutFrames g (s.gal.items.foldl (faultItem g) s)
  trigger 0x12 [g, cause] (abortJobsOf g (clearGallery g s))

def causeCode : GalCause → Nat
  | .store => 0
  | .parity => 1
  | .kat => 3
  | .corrected => 4

/-- GALLERY_FAULT (R160): an error of an online gallery's program store, register files or header windows is corrected and counted, or the gallery is taken offline; disagreement of the comparators is part of OPEN_VERIFIED. -/
def execGalleryFault (g : Fin 64) (cause : GalCause) (s : State) : Ans :=
  .next (onlyIf (s.live && nbit (s.reg Reg.GAL_ONLINE).toNat g.val)
    (if cause = .corrected then (fun s => event Ev.ECC_CORRECTED [g.val] (bump Reg.GAL_CNT_ECC_CORR 1 s)) else galleryOff g.val (causeCode cause)) s)

/-- OPEN_VERIFIED (R151, R152): each comparator reports whether the tags match, inverted where it fails. -/
def openEnds (it : Item) (key : BitVec 512) (flipA flipB : Bool) (s : State) : State :=
  let r := openOf s { it with key := it.key.map (fun k => { k with key := key.setWidth 256 }) }
  let s := leaveUnit it.gal (.item it.tag) none s
  let a := r.ok != flipA
  let b := r.ok != flipB
  if a && b then openOk it r.data s
  else if a == b then authFail it s
  else galleryOff it.gal 2 (authFail it s)

def execOpenVerified (tag : Fin 65536) (flipA flipB : Bool) (s : State) : Ans :=
  match unitItem s tag.val .opening with
  | some it => match unitKey s it.gal (.item it.tag) with
    | some key => .next (onlyIf s.live (openEnds it key flipA flipB) s)
    | none => .next s
  | none => .next s

/-- A gallery that a GALLERY_RESET holds has drained (R161). -/
def resetDue (s : State) (g : Nat) : Bool :=
  (s.gal.restoring.contains g || s.gal.draining.contains g) &&
    !s.gal.items.any (fun e => match e.2 with | some it => atGallery g it | none => false) && !s.gal.jobs.any (fun b => b.gal == g)

/-- The order that resets a gallery ends. -/
def resetOrderEnd (g status : Nat) (s : State) : State :=
  let s := dropClaims (fun c => c.res == .gallery g) s
  match s.fore.waits.find? (fun o => o.code == 0x403 && o.args.getD 0 0 == BitVec.ofNat 64 g) with
  | some o => finishWait o status [] s
  | none => s

/-- A reset gallery after its known-answer tests. -/
def galleryBack (g : Nat) (kat : Bool) (s : State) : State :=
  let s := { s with gal := { s.gal with restoring := s.gal.restoring.erase g, draining := s.gal.draining.erase g } }
  if kat then event Ev.GALLERY_ONLINE [g] (resetOrderEnd g 0 (setOnline g true (clearGallery g s)))
  else galleryOff g 3 (resetOrderEnd g 7 s)

/-- GALLERY_ONLINE (R161): a reset gallery runs its tests, restores its images and goes online, or stays offline (log entry 44 for the order's status). -/
def execGalleryOnline (g : Fin 64) (kat : Bool) (s : State) : Ans :=
  .next (onlyIf (s.live && s.mode == 2 && resetDue s g.val) (galleryBack g.val kat) s)

end Sys2Proof.Machine
end

