-- ==== Sys2Proof/Machine/Unpack.lean ====
section
/-! DEFINITION. The merge stage and the unpacker (R17, R18, R89, R103 to R105): verified tubs back into client frames. -/
namespace Sys2Proof.Machine

/-! Shims (Table 03.7) -/

def shimLen (w : Nat) : Nat := nbits w 50 14
def shimType (w : Nat) : Nat := nbits w 48 2
def shimClass (w : Nat) : Nat := nbits w 45 3
def shimTs (w : Nat) : Option Nat := if nbit w 44 then some (nbits w 0 32) else none
def shimYellow (w : Nat) : Bool := nbit w 43
/-- A DATA or CONTROL shim whose length the spec allows. -/
def shimFrame (w : Nat) : Bool := (shimType w == 0 || shimType w == 2) && decide (60 ≤ shimLen w) && decide (shimLen w ≤ 16379)

/-! Client frames that leave a tub -/

/-- The queue of a class on a receive tributary's client port. -/
def tribQueue (s : State) (t cls : Nat) : Nat := queueAt (tribClient s 1 t) cls
/-- The port against which a receive tributary's frames count and match (R273, R321): that of its primary trunk (log entry 45). -/
def tribPort (s : State) (t : Nat) : Nat := trunkPort s (tribTrunk s 1 t)

/-- The frame of a tributary as the winder takes it. -/
def unpacked (s : State) (t shim : Nat) (data rx : Bytes) (ts : Nat) : QFrame :=
  let kind := if (shimTs shim).isSome then 2 else 3
  ⟨data, tribPort s t, shimClass shim, shimYellow shim, false, preFlags s data true, (shimTs shim).getD ts, some (tribAssoc s 1 t),
    false, 0, 0, s.time.up, none, false, rx.take 128, kind, s.time.steps, none, false, []⟩

/-- A frame of which a part is lost (R17): counted against the line port and the client queue. -/
def partDrop (t reason : Nat) (p : Option Part) (ts : Nat) (s : State) : State :=
  dropped ⟨tribPort s t, reason, some (tribQueue s t (match p with | some x => shimClass x.shim | none => 0)), some (tribAssoc s 1 t),
    80 + tribTrunk s 1 t, ts, match p with | some x => x.rx.take 128 | none => []⟩ s

/-- A CONTROL frame reaches the tributary's host function (R89, R399). -/
def controlFrame (t : Nat) (data : Bytes) (ts : Nat) (s : State) : State :=
  (pushRx (tribF s 1 t Fd.LFR_TRIB_CFG_CTRL_FN) ⟨3, tribPort s t, 0, some (tribAssoc s 1 t), none, 80 + tribTrunk s 1 t, ts⟩ data s).2

/-- A whole client frame: matched for its GATE bit alone (R321), then gate, elimination and queue. -/
def dataFrame (t shim : Nat) (data rx : Bytes) (ts : Nat) (wrOk : Bool) (s : State) : State :=
  let f := unpacked s t shim data rx ts
  let m := matchRule s (ruleKey s f.port f.flags (data.take 192))
  let gated := match m with | some (_, r) => fget r.res RR.GATE == 1 | none => false
  let x : Bound := ⟨f, tribQueue s t f.cls, b2n f.yellow, m.map (·.1), none, isControlFlags f.flags⟩
  deliver x gated wrOk s

def wholeFrame (t shim : Nat) (data rx : Bytes) (ts : Nat) (wrOk : Bool) (s : State) : State :=
  if shimType shim = 2 then controlFrame t data ts s else dataFrame t shim data rx ts wrOk s

/-- Shims of a payload from an offset on: whole frames leave, a frame that reaches the end stays behind. A shim the spec does not allow ends the tub (log entry 46). -/
def shims : Nat → Nat → Nat → OpenedTub → Bool → State → State
  | 0, _, _, _, _, s => s
  | fuel + 1, o, t, u, wrOk, s =>
    if u.data.length < o + 8 then s
    else
      let w := beNat (slice u.data o 8)
      if shimType w = 1 then (if shimLen w = 0 then s else shims fuel (o + 8 + shimLen w) t u wrOk s)
      else if !shimFrame w then s
      else
        let n := shimLen w
        let d := (u.data.drop (o + 8)).take n
        let r := (u.rx.drop (o + 8)).take n
        if d.length < n then setRxTrib t { rxTribOf s t with part := some ⟨w, d, r⟩ } s
        else shims fuel (o + 8 + n) t u wrOk (wholeFrame t w d r u.ts wrOk s)

/-- The continuation at the start of a tub joins the frame that waits for it; a continuation without its beginning is lost. -/
def joinTub (t : Nat) (u : OpenedTub) (wrOk : Bool) (s : State) : State :=
  let x := rxTribOf s t
  let fuel := u.data.length / 8 + 1
  match x.part with
  | some p =>
    if !u.cont then shims fuel 0 t u wrOk (partDrop t 0x0C (some p) u.ts (setRxTrib t { x with part := none } s))
    else
      let need := shimLen p.shim - p.data.length
      let d := p.data ++ u.data.take need
      let r := p.rx ++ u.rx.take need
      if u.data.length < need then setRxTrib t { x with part := some ⟨p.shim, d, r⟩ } s
      else shims fuel need t u wrOk (wholeFrame t p.shim d r u.ts wrOk (setRxTrib t { x with part := none } s))
  | none =>
    if !u.cont then shims fuel 0 t u wrOk (setRxTrib t { x with broken := none } s)
    else
      let s := match x.broken with
        | some r => partDrop t r none u.ts (setRxTrib t { x with broken := none } s)
        | none => s
      if u.first = 0xFFFF then s else shims fuel u.first t u wrOk s

/-! The sequence (R17, R104) -/

/-- The tub is the one the unpacker expects; under a new epoch that is SEQ 1 once the old epoch's last tub is known to have come. -/
def isNext (x : RxTrib) (e q : Nat) : Bool :=
  match x.expect with
  | none => false
  | some (e0, n) => if e = e0 then q == n else q == 1 && x.ends.any (fun l => l.1 == e0 && decide (l.2 < n))

/-- The tub lies before the one expected: it was declared lost, or it is a copy. -/
def isPast (x : RxTrib) (e q : Nat) : Bool :=
  match x.expect with
  | none => false
  | some (e0, n) => decide (e < e0) || (e == e0 && decide (q < n))

/-- Why a tub is missing: its verification failed, or it never came. -/
def lossOf (x : RxTrib) (k : Nat × Nat) : Nat := if x.failed.contains k then 0x0A else 0x0C

/-- The tubs between the expected one and this one are lost: the frame in progress is dropped with the fate of the first of them; a frame that began in the last of them takes that one's. -/
def gapBefore (t : Nat) (u : OpenedTub) (s : State) : State :=
  let x := rxTribOf s t
  match x.expect with
  | none => s
  | some k =>
    match x.part with
    | some p => partDrop t (lossOf x k) (some p) u.ts (setRxTrib t { x with part := none, broken := none } s)
    | none => setRxTrib t { x with broken := some (lossOf x (u.epoch, u.seq - 1)) } s

/-- One tub is unpacked. -/
def unpackTub (t : Nat) (u : OpenedTub) (wrOk : Bool) (s : State) : State :=
  let s := if isNext (rxTribOf s t) u.epoch u.seq then s else gapBefore t u s
  let x := rxTribOf s t
  let keep := fun (k : Nat × Nat) => decide (u.epoch < k.1) || (k.1 == u.epoch && decide (u.seq < k.2))
  joinTub t u wrOk (setRxTrib t { x with
    expect := some (u.epoch, u.seq + 1), failed := x.failed.filter keep, ends := x.ends.filter (fun k => decide (u.epoch ≤ k.1)) } s)

/-! The merge hold (R104, R105) -/

/-- Tubs in sequence order. -/
def tubBefore (a b : OpenedTub) : Bool := decide (a.epoch < b.epoch) || (a.epoch == b.epoch && decide (a.seq < b.seq))
def insertTub (u : OpenedTub) : List OpenedTub → List OpenedTub
  | [] => [u]
  | h :: t => if tubBefore u h then u :: h :: t else h :: insertTub u t

/-- A held tub is read back; a failed read drops it (Table 10.3). -/
def readTub (t : Nat) (u : OpenedTub) (ecc : Ecc) (s : State) : Bool × State :=
  let (ok, s) := readCells u.cells ecc s
  if ok then (true, s) else (false, dropped ⟨tribPort s t, 0x0F, none, some (tribAssoc s 1 t), 80 + tribTrunk s 1 t, u.ts, u.rx⟩ s)

/-- A tub leaves the hold, and is unpacked when it reads back good. -/
def unhold (t : Nat) (u : OpenedTub) (rest : List OpenedTub) (wrOk : Bool) (ecc : Ecc) (s : State) : State :=
  let (ok, s) := readTub t u ecc (setRxTrib t { rxTribOf s t with holds := rest } s)
  if ok then unpackTub t u wrOk s else s

/-- Held tubs that follow are released up to the next gap; `ecc` is the outcome of the first read. -/
def drainHolds : Nat → Nat → Bool → Ecc → State → State
  | 0, _, _, _, s => s
  | fuel + 1, t, wrOk, ecc, s =>
    let x := rxTribOf s t
    match x.holds with
    | [] => s
    | u :: rest => if isNext x u.epoch u.seq then drainHolds fuel t wrOk .good (unhold t u rest wrOk ecc s) else s

/-- The lowest missing SEQ before the held tubs is declared lost, and what follows it is released. -/
def declareLost (t : Nat) (wrOk : Bool) (ecc : Ecc) (s : State) : State :=
  let x := rxTribOf s t
  match x.holds with
  | [] => s
  | u :: rest => drainHolds x.holds.length t wrOk .good (unhold t u rest wrOk ecc s)

/-- Sectors of the merge-hold region in use and in all. -/
def holdUsed (s : State) : Nat := (s.lfr.rxTribs.map (fun e => (e.2.holds.map (fun u => ceilDiv u.data.length 256)).sum)).sum
def holdRoom (s : State) : Nat := regionSectors 3 - withheldIn s 3

/-- A tub goes into the hold, in sectors of region 3 under the region's key (R25). -/
def keepTub (t : Nat) (u : OpenedTub) (s : State) : State :=
  let i := regionKey s 3
  let l := pickCells 3 (ceilDiv u.data.length 256) s
  let x := rxTribOf s t
  setRxTrib t { x with holds := insertTub { u with mkey := i, kgen := kgenOf s i, cells := l } x.holds } (storeCells l i s.drew)

/-- A verified tub of a merged tributary that must be held; a full region declares the lowest missing SEQ lost early (R105). -/
def holdTub : Nat → Nat → OpenedTub → Bool → Ecc → State → State
  | 0, t, u, wrOk, _, s => unpackTub t u wrOk s
  | fuel + 1, t, u, wrOk, ecc, s =>
    let x := rxTribOf s t
    if isNext x u.epoch u.seq ∨ x.expect = none then drainHolds x.holds.length t wrOk ecc (unpackTub t u wrOk s)
    else if isPast x u.epoch u.seq then s
    else if holdUsed s + ceilDiv u.data.length 256 ≤ holdRoom s then
      if wrOk then keepTub t u s
      else dropped ⟨tribPort s t, 0x0F, none, some (tribAssoc s 1 t), 80 + tribTrunk s 1 t, u.ts, u.rx⟩ s
    else
      let s := event Ev.MERGE_HOLD_FULL [t] s
      if x.holds.head?.any (fun h => tubBefore h u) then holdTub fuel t u wrOk .good (declareLost t wrOk ecc s)
      else drainHolds x.holds.length t wrOk ecc (unpackTub t u wrOk s)

/-- A tub the screen has accepted, on its way to the unpacker; one the unpacker has passed is discarded (log entry 47). -/
def releaseTub (t : Nat) (u : OpenedTub) (wrOk : Bool) (ecc : Ecc) (s : State) : State :=
  if isPast (rxTribOf s t) u.epoch u.seq then s
  else if tribMerge s 1 t then holdTub ((rxTribOf s t).holds.length + 1) t u wrOk ecc s
  else unpackTub t u wrOk s

/-- The first of the held tubs to arrive has waited MERGE_WAIT. -/
def mergeDue (s : State) (t : Nat) : Bool :=
  (rxTribOf s t).holds.any (fun u => decide (u.at_ + 1000 * tribF s 1 t Fd.LFR_TRIB_CFG_MERGE_WAIT ≤ s.time.up))

/-- MERGE_WAIT_EXPIRE (R104): the missing tub is declared lost and the held tubs that follow are released. -/
def execMergeWaitExpire (trib : Fin 64) (ecc : Ecc) (s : State) : Ans :=
  .next (onlyIf (trafficOn s && mergeDue s trib.val) (declareLost trib.val true ecc) s)

end Sys2Proof.Machine
end

