-- ==== Sys2Proof/Machine/Screen.lean ====
section
/-! DEFINITION. The screen (R19, R48, R51, R103, R153 to R155): items leave in dispatch order, after the replay check. -/
namespace Sys2Proof.Machine

/-- An item the screen may release. -/
def complete (it : Item) : Bool :=
  match it.st with | .done => true | .punted => true | .dropped _ _ => true | _ => false

/-- The tag at the head of a domain, with its item. -/
def screenHead (s : State) (d : Nat) : Option (Nat × Item) :=
  match tagsOf s d with
  | tag :: _ => (itemOf s tag).map (fun it => (tag, it))
  | [] => none

/-- The tag returns to the pool, with INFLIGHT and the epoch's count (R153, R157). -/
def returnTag (tag : Nat) (it : Item) (s : State) : State :=
  noteTags (releaseCounts it (setItem tag none (setTags it.dom (tagsOf s it.dom).tail s)))

/-! The replay check of frames (R48, R51) -/

/-- What R48 says of a packet number: refused as late, as a duplicate, or the entry and the lag after it. -/
inductive Replay | late | dup | ok (e : AnEnt) (lag : Nat)
  deriving DecidableEq, Repr

/-- DUP_MAP bit i stands for NEXT_PN - 1 - i. -/
def replayStep (ctrl : W32) (window : Nat) (e : AnEnt) (pn : Nat) : Replay :=
  if cfield ctrl AC.REPLAY = 1 ∧ pn < e.lowestPn then .late
  else if cfield ctrl AC.DUP = 1 ∧ pn < e.nextPn ∧ e.nextPn - 1 - pn < 128 ∧ nbit e.dupMap (e.nextPn - 1 - pn) then .dup
  else
    let e' := if e.nextPn ≤ pn then { e with nextPn := pn + 1, dupMap := (if pn + 1 - e.nextPn < 128 then e.dupMap * 2 ^ (pn + 1 - e.nextPn) % 2 ^ 128 else 0) ||| 1 }
      else if e.nextPn - 1 - pn < 128 then { e with dupMap := setNbit e.dupMap (e.nextPn - 1 - pn) true } else e
    let e'' := if window < e'.nextPn then { e' with lowestPn := max e'.lowestPn (e'.nextPn - window) } else e'
    .ok e'' (if e.nextPn ≤ pn then 0 else e.nextPn - 1 - pn)

/-! Release of frames -/

def frameOf (it : Item) (s : State) (tsKind : Nat) : QFrame :=
  ⟨it.data, it.port, it.cls, it.color == 1, false, it.flags, it.ts, it.assoc, false, 0, 0, s.time.up, it.ptpAt, false, it.rx.take 128, tsKind, it.inAt, it.sealBy, false, []⟩

def boundOf (it : Item) (s : State) (tsKind : Nat) : Bound :=
  ⟨frameOf it s tsKind, it.queue, it.color, if 0x2000 ≤ it.rule then some (it.rule - 0x2000) else none, none, isControlFlags it.flags⟩

/-- A frame bound for the line, or from a host function, goes to its queue; PASS toward a line port is counted. -/
def releaseOut (it : Item) (wrOk : Bool) (s : State) : State :=
  let s := if it.passed && decide (32 ≤ it.target) && decide (it.target < 64) then bumpMsc (it.target - 32) MP.OUT_UNTAGGED s else s
  (boundOf it s 0).admitIn wrOk s

/-- The learn event of a frame that carried a SecTAG (R239). -/
def learnLine (it : Item) (s : State) : State := learnEvent (peerKey (outerVid s it.data) (sa it.data)) it.port (learnRes it.port it.txAssoc) s

/-- A verified line frame after the replay check: learning, then gate, elimination and queue. -/
def acceptLine (it : Item) (a : Nat) (wrOk : Bool) (s : State) : State :=
  let n := it.data.length - it.tagOff
  let k := 16 * it.an
  let s := bumpAssoc a (k + (if nbit it.tci.toNat 3 then CN.IN_DEC_OCT else CN.IN_VAL_OCT)) n (bumpAssoc a (k + CN.IN_OK) 1 s)
  let s := learnLine it s
  deliver (boundOf it s 1) (hasFlag it.flags fGate) wrOk s

def releaseTagged (it : Item) (a : Nat) (wrOk : Bool) (s : State) : State :=
  let r := arec s a
  match replayStep r.ctrl r.window (r.an it.an) it.pn with
  | .late => itemDrop it 0x0B (bumpAssoc a (16 * it.an + CN.IN_LATE) 1 s)
  | .dup => itemDrop it 0x0B (bumpAssoc a (16 * it.an + CN.DUP_REJ) 1 s)
  | .ok e lag => acceptLine it a wrOk (setArec a ({ r with maxLag := max r.maxLag lag }.setAn it.an e) s)

/-- A line frame: one that PASS delivered in clear, or one that OPEN verified. -/
def releaseLine (it : Item) (wrOk : Bool) (s : State) : State :=
  if it.passed then deliver (boundOf it s 1) (hasFlag it.flags fGate) wrOk (bumpMsc (it.dom - 32) MP.IN_UNTAGGED s)
  else match it.assoc with
    | some a => releaseTagged it a wrOk s
    | none => s

/-! Release of tubs -/

/-- A sealed tub waits for its place in its tributary's stream. -/
def releaseTubTx (it : Item) (s : State) : State :=
  let x := txTribOf s it.trib
  setTxTrib it.trib { x with ready := x.ready ++ [it.data] } s

/-- What R103 says of a SEQ: accepted with the entry after it, a second copy, or too old. -/
inductive TubSeq | ok (e : AnEnt) | copy | old
  deriving DecidableEq, Repr

/-- `seen` bit i stands for the highest accepted SEQ less i. -/
def tubStep (merge : Bool) (e : AnEnt) (q : Nat) : TubSeq :=
  if e.nextPn < q then .ok { e with nextPn := q, seen := (if q - e.nextPn < 16384 then e.seen * 2 ^ (q - e.nextPn) % 2 ^ 16384 else 0) ||| 1 }
  else if !merge ∨ q + 16384 ≤ e.nextPn then .old
  else if nbit e.seen (e.nextPn - q) then .copy
  else .ok { e with seen := setNbit e.seen (e.nextPn - q) true }

def openedOf (it : Item) (s : State) : OpenedTub :=
  ⟨it.kepoch, it.pn, nbit (b8 it.hdr 1) 6, b16 it.hdr 2, it.data, it.rx, it.ts, s.time.up, 0, 0, []⟩

/-- A verified tub (R103): accepted and unpacked, or refused. -/
def releaseTubRx (it : Item) (wrOk : Bool) (ecc : Ecc) (s : State) : State :=
  match it.assoc with
  | none => s
  | some a =>
    let r := arec s a
    match tubStep (tribMerge s 1 it.trib) (r.an it.an) it.pn with
    | .ok e => releaseTub it.trib (openedOf it s) wrOk ecc (setArec a (r.setAn it.an e) s)
    | .copy => itemDrop it 0x17 s
    | .old => itemDrop it 0x0B s

/-! The release itself -/

def passOn (it : Item) (wrOk : Bool) (ecc : Ecc) (s : State) : State :=
  if it.dom < 32 then releaseOut it wrOk s
  else if it.dom < 64 then releaseLine it wrOk s
  else if it.dom < 80 then releaseTubTx it s
  else if it.dom < 96 then releaseTubRx it wrOk ecc s
  else releaseOut it wrOk s

def releaseHead (tag : Nat) (it : Item) (wrOk : Bool) (ecc : Ecc) (s : State) : State :=
  let s := returnTag tag it s
  if it.st = .done then passOn it wrOk ecc s else s

/-- SCREEN_RELEASE (R153, R154): the head item of a domain is complete and leaves. -/
def execScreenRelease (dom : Fin 112) (wrOk : Bool) (ecc : Ecc) (s : State) : Ans :=
  match screenHead s dom.val with
  | some (tag, it) => .next (onlyIf (trafficOn s && complete it) (releaseHead tag it wrOk ecc) s)
  | none => .next s

/-- The first number above the tags under which an item can go on once its tag is back in the pool. -/
def goneKey (s : State) (tag : Nat) : Nat :=
  match (List.range (s.gal.items.length + 1)).find? (fun k => (itemOf s (65536 * (k + 1) + tag)).isNone) with
  | some k => 65536 * (k + 1) + tag
  | none => 65536 + tag

/-- An item that the screen has given up stays in its gallery under another number, with the reason and subcode it was dropped with (R155). -/
def goOn (it : Item) (s : State) : State :=
  let n := goneKey s it.tag
  let re := fun (t : Nat) => if t = it.tag then n else t
  let reW := fun (w : Work) => if w = .item it.tag then .item n else w
  let s := setItem n (some { it with tag := n, gone := some (0x11, 0xFD) }) s
  { s with gal := { s.gal with
    threads := tmap thread0 (fun k h => if k / 16 = it.gal then { h with tag := h.tag.map re } else h) s.gal.threads
    queues := tput nil0 s.gal.queues it.gal ((tget nil0 s.gal.queues it.gal).map re)
    ctxs := tmap ctx0 (fun k c => if k / 4 = it.gal then { c with work := c.work.map reW } else c) s.gal.ctxs
    unitQ := tput nil0 s.gal.unitQ it.gal ((tget nil0 s.gal.unitQ it.gal).map reW) } }

/-- The screen declares the head item dropped with PROG_DROP, subcode 0xFD, and takes its tag back; the gallery goes on with it (R155). -/
def timeOut (tag : Nat) (it : Item) (s : State) : State :=
  let s := goOn it (returnTag tag it (itemDrop it 0x11 s))
  event Ev.SCREEN_TIMEOUT [it.dom] (bump Reg.GAL_CNT_SCREEN_TMO 1 s)

/-- SCREEN_TIMEOUT (R155): the head item has not completed SCREEN_TMO after its dispatch. -/
def execScreenTimeout (dom : Fin 112) (s : State) : Ans :=
  match screenHead s dom.val with
  | some (tag, it) =>
    .next (onlyIf (trafficOn s && !complete it && decide (it.at_ + 1000 * s.fld Reg.GAL_CFG Fd.GAL_CFG_SCREEN_TMO ≤ s.time.up)) (timeOut tag it) s)
  | none => .next s

end Sys2Proof.Machine
end

