-- ==== Sys2Proof/Machine/Winder.lean ====
section
/-! DEFINITION. The winder's schedulers (R251, R259 to R269, R286, R314, R349): time gates, shapers, credits, DWRR and what an egress sends. -/
namespace Sys2Proof.Machine

def egressAt (s : State) (e : Nat) : Egress := tget egress0 s.wnd.egress e
def setEgress (e : Nat) (x : Egress) (s : State) : State := { s with wnd := { s.wnd with egress := tput egress0 s.wnd.egress e x } }

/-! Rates and bytes (R259, R84) -/

/-- Slots of a tributary. -/
def tribSlots (s : State) (dir t : Nat) : List Nat :=
  (List.range 128).filter (fun m => nbit ((s.reg (Reg.LFR_TRIB_SLOTS_LO dir t)).toNat + (s.reg (Reg.LFR_TRIB_SLOTS_HI dir t)).toNat * 2 ^ 64) m)

/-- A transmit tributary's rate in kbit/s: slots times the slot rate (R69). -/
def tribRate (s : State) (t : Nat) : Nat :=
  (tribSlots s 0 t).length * ((if txCfg s (tribTrunk s 0 t) Fd.LFR_TRUNK_CFG_RATE = 1 then 200781250 else 100390625) * 1022 / 8192)

/-- Rate of an egress in kbit/s: the MAC rate of a port, the rate of a tributary. -/
def egressRate (s : State) (e : Nat) : Nat := if e < 64 then portRate s e * 1000 else tribRate s (e - 64)

/-- Bytes a frame takes at its egress. -/
def lineBytes (e len : Nat) : Nat := if e < 64 then max 64 (len + 4) + 20 else len + 8

/-! Shapers and credit (R261, R262) -/

def shaperOf (s : State) (i : Nat) : Shaper := tget shaper0 s.wnd.shapers i
def setShaper (i : Nat) (x : Shaper) (s : State) : State := { s with wnd := { s.wnd with shapers := tput shaper0 s.wnd.shapers i x } }

/-- A shaper lets a frame start. -/
def Shaper.allows (x : Shaper) : Bool := x.rate == 0 || decide (0 ≤ x.credit)
/-- One tick: rate times 8 ns in 2^-8 byte, the rest kept (log entry 49), positive credit capped. -/
def Shaper.tick (x : Shaper) : Shaper :=
  if x.rate = 0 then x
  else
    let k := x.frac + x.rate * 256
    { x with credit := min (x.credit + (k / 1000000 : Nat)) (max (x.burst * 256 : Nat) x.credit), frac := k % 1000000 }
/-- A frame's bytes leave an enabled shaper. -/
def Shaper.take (x : Shaper) (bytes : Nat) : Shaper := if x.rate = 0 then x else { x with credit := x.credit - (bytes * 256 : Nat) }

def idleSlope (s : State) (q : Nat) : Nat := s.fld (Reg.Q_SCHED q) Fd.Q_SCHED_IDLE_SLOPE

/-! Time gates (R265 to R269) -/

/-- Phase of a list at an instant of part time. -/
def GList.phase (l : GList) (now : Nat) : Nat := (((now : Int) - (l.base : Int)) % (max 1 l.cycle : Nat)).toNat

/-- The entry of a phase, and the time left in it. -/
def entryIn : List (Nat × Nat × Nat) → Nat → Nat → Nat × Nat
  | [], _, k => (k, 0)
  | g :: t, p, k => if p < g.2.2 then (k, g.2.2 - p) else entryIn t (p - g.2.2) (k + 1)

def GList.entryAt (l : GList) (now : Nat) : Nat × Nat := entryIn l.entries (l.phase now) 0
def GList.gates (l : GList) (i : Nat) : Nat := (l.entries.getD i (0xFF, 0, 0)).1
def GList.sched (l : GList) (i : Nat) : Nat := (l.entries.getD i (0xFF, 0, 0)).2.1

/-- Time for which a class stays open over a list of entries. -/
def openRun (c : Nat) : List (Nat × Nat × Nat) → Nat
  | [] => 0
  | g :: t => if nbit g.1 c then g.2.2 + openRun c t else 0

/-- The entries from one on, once round. -/
def GList.from_ (l : GList) (i : Nat) : List (Nat × Nat × Nat) := l.entries.drop i ++ l.entries.take i

def GList.neverCloses (l : GList) (c : Nat) : Bool := l.entries.all (fun g => nbit g.1 c)

/-- Time until the gate of a class closes; none when it never does. -/
def GList.closesIn (l : GList) (c now : Nat) : Option Nat :=
  if l.neverCloses c then none
  else
    let e := l.entryAt now
    some (if nbit (l.gates e.1) c then e.2 + openRun c ((l.from_ e.1).drop 1) else 0)

/-- Time since the gate of a class opened, looking back over entries; the gate is open now. -/
def GList.openFor (l : GList) (c now : Nat) : Nat :=
  let e := l.entryAt now
  (l.entries.getD e.1 (0, 0, 0)).2.2 - e.2 + openRun c ((l.from_ e.1).reverse)

/-- The longest open interval of a class. -/
def GList.longestOpen (l : GList) (c : Nat) : Nat :=
  ((List.range l.entries.length).map (fun i => openRun c (l.from_ i))).foldl max 0

/-- The next instant base + n · CYCLE that is not before now (R266). -/
def GList.startFrom (l : GList) (now : Nat) : Nat :=
  if now ≤ l.base then l.base else l.base + ceilDiv (now - l.base) (max 1 l.cycle) * max 1 l.cycle

/-- Time spent in holdover in ns (R345: FREE counts as holdover); it stands still once time is locked again. -/
def heldOver (s : State) : Nat := (if locked s then s.time.lockAt else s.time.up) - s.time.holdAt

/-- Holdover has lasted HO_MAX. -/
def heldTooLong (s : State) : Bool := !locked s && decide (1000000000 * s.fld Reg.WND_TG_CFG Fd.WND_TG_CFG_HO_MAX ≤ heldOver s)

/-- G of R269 in ns. -/
def guardNs (s : State) : Nat :=
  min (heldOver s * s.fld Reg.WND_TG_CFG Fd.WND_TG_CFG_DRIFT_PPB / 1000000000) (1000 * s.fld Reg.WND_TG_CFG Fd.WND_TG_CFG_HO_CAP)

/-- Holdover rules hold at an egress: in holdover, and after it until the next cycle start. -/
def inGuard (s : State) (x : Egress) : Bool :=
  !locked s || (match x.resumeAt with | some t => decide (s.time.now < t) | none => false)

def staleNow (s : State) (x : Egress) : Bool := x.stale && inGuard s x

/-- The entry in force is held after a step of part time (R275). -/
def entryHeld (s : State) (x : Egress) : Option Nat := x.holdTill.filter (fun t => decide (s.time.now < t))

/-- The gate of a class is open. -/
def gateOpen (s : State) (x : Egress) (c : Nat) : Bool :=
  match x.list with
  | none => true
  | some l =>
    if staleNow s x then l.neverCloses c
    else nbit (l.gates x.entry) c && (!inGuard s x || l.neverCloses c || (entryHeld s x).isSome || decide (guardNs s ≤ l.openFor c s.time.now))

/-- Time until the gate of a class closes: from a held entry's end on, the list goes on at the entry that part time selects (R267, R275). -/
def closesAt (s : State) (x : Egress) (l : GList) (c : Nat) : Option Nat :=
  match entryHeld s x with
  | some t => if l.neverCloses c then none else some (if nbit (l.gates x.entry) c then t - s.time.now + (l.closesIn c t).getD 0 else 0)
  | none => l.closesIn c s.time.now

/-- Level 1 serves the class now. -/
def schedOpen (s : State) (x : Egress) (c : Nat) : Bool :=
  match x.list with
  | none => false
  | some l => !staleNow s x && nbit (l.sched x.entry) c

/-- The longest frame of a port (R259), for the guard band. -/
def longestBytes (s : State) (e : Nat) : Nat := maxLen s e + 20

/-- A frame of so many bytes ends within a time in ns at an egress's rate. -/
def endsWithin (s : State) (e bytes ns : Nat) : Bool := decide (bytes * 8000000 ≤ ns * egressRate s e)

/-- The length-aware rule, or the guard band in holdover (R267, R269). -/
def fits (s : State) (e : Nat) (x : Egress) (c bytes : Nat) : Bool :=
  match x.list with
  | none => true
  | some l =>
    if staleNow s x then true
    else match closesAt s x l c with
      | none => true
      | some ns => if inGuard s x then decide (guardNs s ≤ ns) && endsWithin s e (longestBytes s e) (ns - guardNs s) else endsWithin s e bytes ns

/-! Choosing a frame (Table 09.2) -/

/-- The departure instants that wait at an egress, in 250 ps (R349). -/
def departures (s : State) (e : Nat) : List Nat :=
  (List.range 8).flatMap (fun c => (queueOf s (queueAt e c)).frames.filterMap (·.ptpAt))

/-- A frame ends before every departure instant of its port. -/
def beforeDepartures (s : State) (e bytes : Nat) : Bool :=
  (departures s e).all (fun t => decide (s.time.now * 4 < t) && endsWithin s e bytes ((t - s.time.now * 4) / 4))

def headFrame (s : State) (q : Nat) : Option QFrame := (queueOf s q).frames.head?

/-- The head frame of a class may start, shapers and credits apart. -/
def startable (s : State) (e : Nat) (x : Egress) (c : Nat) : Bool :=
  match headFrame s (queueAt e c) with
  | none => false
  | some f =>
    let b := lineBytes e f.data.length
    (queueOf s (queueAt e c)).pausedUntil.isNone && f.ptpAt.isNone && gateOpen s x c && fits s e x c b && beforeDepartures s e b

/-- Queue and port shapers allow a start. -/
def shapersAllow (s : State) (e q : Nat) : Bool := (shaperOf s q).allows && (decide (64 ≤ e) || (shaperOf s (1024 + e)).allows)

def level2 (s : State) (e : Nat) (x : Egress) (c : Nat) : Bool := startable s e x c && !schedOpen s x c && shapersAllow s e (queueAt e c)
def level3 (s : State) (e : Nat) (x : Egress) (c : Nat) : Bool :=
  level2 s e x c && idleSlope s (queueAt e c) != 0 && decide (0 ≤ (queueOf s (queueAt e c)).credit)

/-- The quantum of a DWRR queue (R260). -/
def quantum (s : State) (q : Nat) : Nat := 1024 * s.fld (Reg.Q_SCHED q) Fd.Q_SCHED_WEIGHT

/-- The DWRR round over classes 3 to 0: the class whose turn it is sends while its deficit allows, then the next begins. -/
def dwrr : Nat → Nat → Nat → State → Option Nat × State
  | 0, _, _, s => (none, s)
  | fuel + 1, e, c, s =>
    let x := egressAt s e
    let q := queueAt e c
    let ok := match headFrame s q with
      | some f => level2 s e x c && decide (lineBytes e f.data.length ≤ (queueOf s q).deficit)
      | none => false
    if ok then (some c, setEgress e { x with round := c } s)
    else
      let c' := if c = 0 then 3 else c - 1
      let q' := queueAt e c'
      let y := queueOf s q'
      let s := if level2 s e x c' then setQueue q' { y with deficit := y.deficit + quantum s q' } s else s
      dwrr fuel e c' s

/-- The class an egress serves next, with the round as it then stands. -/
def choose (e : Nat) (s : State) : Option Nat × State :=
  let x := egressAt s e
  match [7, 6, 5, 4, 3, 2, 1, 0].find? (fun c => schedOpen s x c && startable s e x c) with
  | some c => (some c, s)
  | none => match [7, 6].find? (level2 s e x) with
    | some c => (some c, s)
    | none => match [5, 4].find? (level3 s e x) with
      | some c => (some c, s)
      | none => if [3, 2, 1, 0].any (level2 s e x) then dwrr 128 e x.round s else (none, s)

/-- A frame leaves its queue: the rest moves up, an emptied queue loses its deficit, PFC follows (R260, R270). -/
def leaveQueue (q : Nat) (f : QFrame) (s : State) : State :=
  let x := queueOf s q
  let rest := x.frames.erase f
  let isHead := x.frames.head? == some f
  queuePfc q (setQueue q { x with frames := rest, deficit := if rest = [] then 0 else x.deficit, headAt := if isHead then s.time.up else x.headAt } s)

/-- Shaper and credit charges of a frame that starts, and the deficit of a class whose DWRR turn it is (R260 to R262). -/
def charge (e q bytes : Nat) (turn : Bool) (s : State) : State :=
  let s := setShaper q ((shaperOf s q).take bytes) s
  let s := if e < 64 then setShaper (1024 + e) ((shaperOf s (1024 + e)).take bytes) s else s
  let x := queueOf s q
  let rate := egressRate s e
  if q % 8 = 5 ∨ q % 8 = 4 then setQueue q { x with credit := x.credit - ((rate - idleSlope s q) * bytes * 256 / max 1 rate : Nat) } s
  else if turn then setQueue q { x with deficit := x.deficit - bytes } s
  else s

/-- A class of 3 to 0 is served in its DWRR turn, not at level 1. -/
def inTurn (s : State) (e c : Nat) : Bool := decide (c < 4) && !schedOpen s (egressAt s e) c

/-- A frame starts: it leaves its queue and is charged (R260 to R262). -/
def serveFrame (e q : Nat) (f : QFrame) (turn : Bool) (s : State) : State :=
  leaveQueue q f (charge e q (lineBytes e f.data.length) turn s)

/-- A frame served is counted (Table 09.11); one that its HBM read drops is not served. -/
def countServed (q : Nat) (f : QFrame) (s : State) : State :=
  bump (Reg.Q_CNT_TX_BYTES q) f.data.length (bump (Reg.Q_CNT_TX_FRAMES q) 1 s)

/-! Transmission (R286, R311, R314) -/

/-- A frame starts on a port: residence times are written now (Table 13.2). One read whole cannot underrun. -/
def startFrame (e q : Nat) (f : QFrame) (turn whole : Bool) (s : State) : State :=
  let (b, s) := atEgress e f (countServed q f (serveFrame e q f turn s))
  setEgress e { egressAt s e with busy := some { f with data := b, hbm := f.hbm && !whole, cells := if whole then [] else f.cells }, busyQ := q } s

/-- The frame in transmission ends: with a good FCS, or inverted where its sealing failed meanwhile (R150). -/
def endFrame (e : Nat) (s : State) : State :=
  let x := egressAt s e
  match x.busy with
  | some f =>
    let s := setEgress e { x with busy := none } s
    if f.cut then endCut e f 256 s else macCountTx e f.data (s.emit (.frame e (padFrame f.data) true))
  | none => s

/-- A chosen frame: from SRAM it starts at once, from HBM it is read first, at its place in the queue (R286). -/
def sendNext (e q : Nat) (f : QFrame) (s : State) : State :=
  if f.hbm then setEgress e { egressAt s e with fetch := some q } s else startFrame e q f (inTurn s e (q % 8)) false s

def selectNext (e : Nat) (s : State) : State :=
  let s := endFrame e s
  if (egressAt s e).fetch.isSome then s
  else
    let (c, s) := choose e s
    match c with
    | none => s
    | some c => match headFrame s (queueAt e c) with
      | some f => sendNext e (queueAt e c) f s
      | none => s

/-- EGRESS_SELECT (R251): the egress has become free, so its frame is sent, and the scheduler picks the next (log entry 50). -/
def execEgressSelect (e : Fin 64) (s : State) : Ans := .next (onlyIf (trafficOn s && portUp s e.val) (selectNext e.val) s)

/-- The level that serves a class lets its head frame start now (Table 09.2). -/
def mayServe (s : State) (e c : Nat) : Bool :=
  let x := egressAt s e
  (schedOpen s x c && startable s e x c) ||
  (if 6 ≤ c then level2 s e x c else if 4 ≤ c then level3 s e x c
   else level2 s e x c && (match headFrame s (queueAt e c) with
     | some f => decide (lineBytes e f.data.length ≤ (queueOf s (queueAt e c)).deficit)
     | none => false))

/-- Enough of the head frame of a queue has been read: it starts if it still may, and is passed over if not; a failed read drops it (Table 10.3). -/
def streamHead (e q : Nat) (ecc : Ecc) (s : State) : State :=
  let s := setEgress e { egressAt s e with fetch := none } s
  match headFrame s q with
  | none => s
  | some f =>
    if !f.hbm then s
    else
      let (ok, s) := readCells f.cells ecc s
      if !ok then frameDrop q f 0x0F (leaveQueue q f s)
      else if mayServe s e (q % 8) then startFrame e q f (inTurn s e (q % 8)) false s
      else s

/-- HBM_STREAM_START (R286): enough of the chosen frame has been read and the egress is free. -/
def execHbmStreamStart (e : Fin 64) (ecc : Ecc) (s : State) : Ans :=
  match (egressAt s e.val).fetch with
  | some q => .next (onlyIf (trafficOn s && portUp s e.val && (egressAt s e.val).busy.isNone) (streamHead e.val q ecc) s)
  | none => .next s

/-- An underrun: inverted FCS, counts, START raised by 256 (R314). -/
def underrun (e sent : Nat) (f : QFrame) (s : State) : State :=
  let s := (setEgress e { egressAt s e with busy := none } s).emit (.frame e (f.data.take sent) false)
  let s := bump (Reg.MAC_CNT_TX_FCS_INVERTED e) 1 (bump (Reg.MAC_CNT_TX_UNDERRUN e) 1 s)
  let s := event Ev.TX_UNDERRUN [e] s
  let old := s.fld (Reg.MEM_START e) Fd.MEM_START_START
  s.setFld (Reg.MEM_START e) Fd.MEM_START_START (max old (min (old + 256) (effMax s e)))

/-- TX_UNDERRUN (R314): only a frame that streams from HBM can underrun, past its first START bytes. -/
def execTxUnderrun (e : Fin 64) (sent : Nat) (s : State) : Ans :=
  match (egressAt s e.val).busy with
  | some f =>
    .next (onlyIf (trafficOn s && f.hbm && decide (sent < f.data.length) &&
      decide (s.fld (Reg.MEM_START e.val) Fd.MEM_START_START ≤ sent)) (underrun e.val sent f) s)
  | none => .next s

/-! PTP departures (R349) -/

/-- The frame of an egress whose departure instant has come, with its queue. -/
def dueFrame (s : State) (e : Nat) : Option (Nat × QFrame) :=
  (List.range 8).findSome? (fun c => ((queueOf s (queueAt e c)).frames.find? (fun f =>
    match f.ptpAt with | some t => decide (t ≤ s.time.now * 4) | none => false)).map (fun f => (queueAt e c, f)))

/-- A step of part time moved the instant into the past: it lies more than one tick back. -/
def missedInstant (s : State) (f : QFrame) : Bool :=
  steppedSince s f.inAt && (match f.ptpAt with | some t => decide (t + 32 ≤ s.time.now * 4) | none => false)

/-- The message leaves at its instant; one stored in HBM has been read whole by then, or its failed read drops it. -/
def departPtp (e q : Nat) (f : QFrame) (ecc : Ecc) (s : State) : State :=
  if !portUp s e || missedInstant s f then bump Reg.TIM_CNT_PTP_LATE 1 (frameDrop q f 0x04 (leaveQueue q f s))
  else
    let s := endFrame e s
    let (ok, s) := if f.hbm then readCells f.cells ecc s else (true, s)
    if ok then startFrame e q f false true s else frameDrop q f 0x0F (leaveQueue q f s)

/-- PTP_DEPARTURE_INSTANT (R349): the event message starts at t_p, wherever it stands in its queue, or is dropped (log entry 51). -/
def execPtpDepartureInstant (e : Fin 64) (ecc : Ecc) (s : State) : Ans :=
  match dueFrame s e.val with
  | some (q, f) => .next (onlyIf (trafficOn s) (departPtp e.val q f ecc) s)
  | none => .next s

/-! Gate lists -/

/-- TG_STALE_DROP (R268, R269): the head frame of a gated queue that can never start, or that has waited too long; reserved control waits. -/
def staleHead (s : State) (q : Nat) (f : QFrame) : Bool :=
  let e := egressOf q
  let x := egressAt s e
  match x.list with
  | none => false
  | some l =>
    let c := q % 8
    let never := !l.neverCloses c && !endsWithin s e (lineBytes e f.data.length) (l.longestOpen c)
    let late := decide ((queueOf s q).headAt + s.fld Reg.WND_TG_CFG Fd.WND_TG_CFG_STALE_CYCLES * l.cycle < s.time.up)
    decide (e < 64) && !f.resv && !isControlFlags f.flags && (never || late || (staleNow s x && !l.neverCloses c))

def execTgStaleDrop (q : Fin 1024) (s : State) : Ans :=
  match headFrame s q.val with
  | some f => .next (onlyIf (s.live && staleHead s q.val f) (fun s => frameDrop q.val f 0x04 (leaveQueue q.val f s)) s)
  | none => .next s

/-- GATE_LIST_ENTRY (R265): the entry that part time selects takes over from the one in force, not before a hold of R275 ends. -/
def execGateListEntry (e : Fin 64) (s : State) : Ans :=
  let x := egressAt s e.val
  match x.list with
  | none => .next s
  | some l =>
    let held := match x.holdTill with | some t => decide (s.time.now < t) | none => false
    .next (onlyIf (s.live && !held && !staleNow s x) (setEgress e.val { x with entry := (l.entryAt s.time.now).1, holdTill := none }) s)

/-- A pending list takes over (R266), stopped at once where the gate state is stale (R269); the order that brought it gives up its claim. -/
def activate (e : Nat) (l : Option GList) (s : State) : State :=
  let x := egressAt s e
  let entry := match l with | some l => (l.entryAt s.time.now).1 | none => 0
  let s := setEgress e { x with list := l, next := none, entry := entry, holdTill := none, stale := l.isSome && heldTooLong s } s
  event Ev.TG_LIST_ACTIVE [e] (dropClaims (fun c => c.res == .gateList e) s)

/-- TG_LIST_ACTIVE (R266): the first instant base + n · CYCLE of a pending list has come. -/
def execTgListActive (e : Fin 64) (s : State) : Ans :=
  match (egressAt s e.val).next with
  | some (l, t) => .next (onlyIf (s.live && decide (t ≤ s.time.now)) (activate e.val l) s)
  | none => .next s

/-- Egresses that run a list. -/
def listed (s : State) : List Nat := (s.wnd.egress.filter (fun e => e.2.list.isSome)).map (·.1)

/-- The gate state of an egress becomes stale. -/
def staleEgress (s : State) (e : Nat) : State := event Ev.TG_STALE_STATE [e] (setEgress e { egressAt s e with stale := true } s)

/-- TG_STALE_STATE (R269): holdover has lasted HO_MAX, so every list stops, each with its event. -/
def execTgStaleState (s : State) : Ans :=
  .next (onlyIf (s.live && heldTooLong s) (fun s => ((listed s).filter (fun e => !(egressAt s e).stale)).foldl staleEgress s) s)

/-! Ticks (R261, R262) -/

/-- A queue's credit after 8 ns, in 2^-8 byte: it rises at IDLE_SLOPE while frames wait or it is negative, holds while its gate is closed or it transmits, and is lost when the queue is empty. -/
def creditTick (s : State) (q : Nat) (x : Queue) : Queue :=
  let e := egressOf q
  let y := egressAt s e
  if ¬ (q % 8 = 5 ∨ q % 8 = 4) ∨ !gateOpen s y (q % 8) ∨ (y.busy.isSome ∧ y.busyQ = q) then x
  else if x.frames = [] ∧ 0 ≤ x.credit then { x with credit := 0, creditFrac := 0 }
  else
    let k := x.creditFrac + idleSlope s q * 256
    { x with credit := x.credit + (k / 1000000 : Nat), creditFrac := k % 1000000 }

def shaperTick (s : State) : State :=
  let queues := tmap queue0 (creditTick s) s.wnd.queues
  { s with wnd := { s.wnd with shapers := tmap shaper0 (fun _ x => x.tick) s.wnd.shapers, queues := queues, lastTick := s.wnd.lastTick + 8 } }

/-- SHAPER_TICK (R262): every 8 ns each shaper gains its rate. -/
def execShaperTick (s : State) : Ans := .next (onlyIf (s.live && decide (s.wnd.lastTick + 8 ≤ s.time.up)) shaperTick s)

end Sys2Proof.Machine
end

