-- ==== Sys2Proof/Machine/LfrTx.lean ====
section
/-! DEFINITION. The transmit side of the line framer (R68 to R72, R80, R84 to R90, R96 to R102, R106): tubs, line frames, epoch changes, remaps. -/
namespace Sys2Proof.Machine

/-! The tub assembler (R89, R90) -/

/-- The open tub, or a new one. -/
def openTubOf (t : Nat) (s : State) : OpenTub := (txTribOf s t).open_.getD ⟨[], none, false, s.time.up, s.time.up⟩
def setOpenTub (t : Nat) (o : Option OpenTub) (s : State) : State := setTxTrib t { txTribOf s t with open_ := o } s

/-- A tub closes and becomes a work item of its trunk's domain; KEY_PTR, SEQ and KEY_EPOCH of its header come at dispatch (R87, R94). -/
def closeTub (t : Nat) (o : OpenTub) (flush : Bool) (s : State) : State :=
  let n := tribTrunk s 0 t
  let data := slice o.data 0 (tubSize s 0 t)
  let flags := b2n flush * 128 + b2n o.cont * 64 + b2n (tribMerge s 0 t) * 32
  let hdr := [BitVec.ofNat 8 t, BitVec.ofNat 8 flags] ++ natBe 2 (o.first.getD 0xFFFF) ++ zeros 12
  let it := { newItem (64 + n) (trunkPort s n) data (s.time.now * 4) with trib := t, assoc := some (tribAssoc s 0 t), hdr := hdr }
  backlogEnter it (setOpenTub t none s)

/-- Bytes of a frame join the open tub; each tub that becomes full closes, and the rest continues in the next. -/
def layBytes : Nat → Nat → Bytes → State → State
  | 0, _, _, s => s
  | fuel + 1, t, b, s =>
    let o := openTubOf t s
    let room := tubSize s 0 t - o.data.length
    if b.length < room then setOpenTub t (some { o with data := o.data ++ b, lastAt := s.time.up }) s
    else
      let s := closeTub t { o with data := o.data ++ b.take room } false s
      if b.drop room = [] then s else layBytes fuel t (b.drop room) (setOpenTub t (some ⟨[], none, true, s.time.up, s.time.up⟩) s)

/-- A tub with fewer than 8 bytes left takes no further frame: they are zeros, and it is full. -/
def closeFull (t : Nat) (s : State) : State :=
  match (txTribOf s t).open_ with
  | some o => if tubSize s 0 t < o.data.length + 8 then closeTub t o false s else s
  | none => s

/-- The shim of Table 03.7. -/
def tubShim (f : QFrame) : Nat :=
  let ts := hasFlag f.flags fPtp && !f.control
  f.data.length * 2 ^ 50 + b2n f.control * 2 ^ 49 + f.cls % 8 * 2 ^ 45 + b2n ts * 2 ^ 44 + b2n f.yellow * 2 ^ 43 + (if ts then f.ts % 2 ^ 32 else 0)

/-- A frame with its shim joins the tributary's tubs. -/
def packFrame (t : Nat) (f : QFrame) (s : State) : State :=
  let o := openTubOf t s
  let s := setOpenTub t (some { o with first := some (o.first.getD o.data.length) }) s
  let b := natBe 8 (tubShim f) ++ f.data
  closeFull t (layBytes (b.length / 2048 + 2) t b s)

/-- The frame that a tributary's schedulers choose leaves its queue; a failed HBM read drops it (Table 10.3). -/
def drawFrame (t : Nat) (ecc : Ecc) (s : State) : State :=
  let (c, s) := choose (64 + t) s
  match c with
  | none => s
  | some c =>
    let q := queueAt (64 + t) c
    match headFrame s q with
    | none => s
    | some f =>
      let (ok, s) := if f.hbm then readCells f.cells ecc s else (true, s)
      if ok then packFrame t f (countServed q f (serveFrame (64 + t) q f (inTurn s (64 + t) c) s)) else frameDrop q f 0x0F (leaveQueue q f s)

/-- A tributary that has reached its usage limit while a switch is announced leaves its frames in their queue (R101). -/
def tribHeld (s : State) (t : Nat) : Bool :=
  let n := tribTrunk s 0 t
  let r := arec s (tribAssoc s 0 t)
  let e := r.an (epochTx s n % 4)
  changing s n && e.valid && decide (r.limit < e.nextPn)

/-- TUB_ASSEMBLER_DRAW (R89): one frame is drawn and packed. -/
def execTubAssemblerDraw (trib : Fin 64) (ecc : Ecc) (s : State) : Ans :=
  .next (onlyIf (trafficOn s && tribOn s 0 trib.val && !tribHeld s trib.val) (drawFrame trib.val ecc) s)

/-- An early close: FLUSH and a PAD shim to the end of the payload. -/
def flushTub (t : Nat) (s : State) : State :=
  match (txTribOf s t).open_ with
  | some o => closeTub t { o with data := o.data ++ natBe 8 (2 ^ 48), first := some (o.first.getD o.data.length) } true s
  | none => s

def tubFlushF (s : State) (f : Fld) : Nat := 10 * s.fld Reg.LFR_TUB_FLUSH f
/-- An open tub whose time runs from an instant of its own has reached an age in ns. -/
def tubAged (s : State) (t ns : Nat) (since : OpenTub → Nat) : Bool :=
  match (txTribOf s t).open_ with | some o => decide (since o + ns ≤ s.time.up) | none => false

/-- TUB_FLUSH (R90): no frame has joined the tub for FLUSH. -/
def execTubFlush (trib : Fin 64) (s : State) : Ans :=
  .next (onlyIf (trafficOn s && tubAged s trib.val (tubFlushF s Fd.LFR_TUB_FLUSH_FLUSH) (·.lastAt)) (flushTub trib.val) s)

/-- TUB_MAX_AGE (R90): the tub's first frame has waited MAX_AGE. -/
def execTubMaxAge (trib : Fin 64) (s : State) : Ans :=
  .next (onlyIf (trafficOn s && tubAged s trib.val (tubFlushF s Fd.LFR_TUB_FLUSH_MAX_AGE) (·.firstAt)) (flushTub trib.val) s)

/-! The stream of a tributary (R84, R86, R88) -/

/-- An idle block under the current pointer (R88); SEQ is that of the last tub laid into the stream under it: a tub still behind the screen is not yet the last (log entry 120). -/
def idleBlock (t : Nat) (s : State) : Bytes :=
  let ep := epochTx s (tribTrunk s 0 t)
  let seq := match (txTribOf s t).laid with | some (p, q) => if p = ep % 4 then q else 0 | none => 0
  [BitVec.ofNat 8 (ep % 4 * 64 + t), 0x10, 0xFF, 0xFF] ++ natBe 6 seq ++ [BitVec.ofNat 8 ep] ++ zeros 5 ++
    List.replicate (tubSize s 0 t + 16) 0x5A

/-- The next block of a stream at a block boundary. -/
def nextBlock (t : Nat) (s : State) : State :=
  let x := txTribOf s t
  match x.ready with
  | b :: rest => setTxTrib t { x with stream := x.stream ++ b, laying := true, ready := rest, laid := some (b8 b 0 / 64, beNat (slice b 4 6)) } s
  | [] => setTxTrib t { x with stream := x.stream ++ idleBlock t s, laying := false } s

/-- The next k bytes of a tributary's stream. -/
def streamTake : Nat → Nat → Nat → State → Bytes × State
  | 0, _, _, s => ([], s)
  | fuel + 1, t, k, s =>
    let x := txTribOf s t
    if k ≤ x.stream.length then (x.stream.take k, setTxTrib t { x with stream := x.stream.drop k } s)
    else streamTake fuel t k (nextBlock t s)

/-- The bytes a tributary lays into one row of a trunk; both trunks of a merged tributary lay the same bytes (R102), the one that comes first taking them from the stream. -/
def chunk (n t k : Nat) (s : State) : Bytes × State :=
  let fuel := k / 2048 + 2
  if !tribMerge s 0 t then streamTake fuel t k s
  else
    let x := txTribOf s t
    let first := n == tribTrunk s 0 t
    let own := if first then x.lag0 else x.lag1
    let s := setTxTrib t (if first then { x with lag0 := own.drop k } else { x with lag1 := own.drop k }) s
    let (new, s) := streamTake fuel t (k - own.length) s
    let x := txTribOf s t
    (own.take k ++ new, setTxTrib t (if first then { x with lag1 := x.lag1 ++ new } else { x with lag0 := x.lag0 ++ new }) s)

/-! Rows (R70, R84) -/

/-- The slots of a row that no tributary owns: bytes that the spec leaves open (log entry 6). -/
def openSlots (n : Nat) (s : State) : List Bytes × State :=
  ((List.range n).map (fun j => (List.range 1022).map (fun i => (Config.free (s.draws + 1022 * j + i)).setWidth 8)),
    { s with draws := s.draws + 1022 * n })

/-- The tributaries laid on a transmit trunk. -/
def laidOn (s : State) (n : Nat) : List Nat :=
  (List.range 64).filter (fun t => tribOn s 0 t && (tribTrunk s 0 t == n || (tribMerge s 0 t && tribMate s 0 t == n)))

/-- One tributary's bytes put into its slots of a row, in slot order. -/
def fillSlots : List Nat → Bytes → List Bytes → List Bytes
  | [], _, row => row
  | m :: rest, b, row => fillSlots rest (b.drop 1022) (row.set m (b.take 1022))

def layTrib (n : Nat) (acc : List Bytes × State) (t : Nat) : List Bytes × State :=
  let slots := tribSlots acc.2 0 t
  let (b, s) := chunk n t (1022 * slots.length) acc.2
  (fillSlots slots b acc.1, s)

/-- The slots of one row of a trunk. -/
def buildRow (n : Nat) (s : State) : List Bytes × State :=
  (laidOn s n).foldl (layTrib n) (openSlots (8 * txWidth s n) s)

/-! Registers that change at a multiframe start (R106) -/

/-- Which trunk's multiframe a write to an LFR register waits for: direction and trunk; none takes effect at once. -/
def lfrTrunkOf (s : State) (off : Nat) : Option (Nat × Nat) :=
  if 0x400000 ≤ off ∧ off < 0x401000 then
    let k := off % 0x100
    some (if k = 0x30 ∨ k = 0x20 ∨ k = 0x28 then 1 else 0, off / 0x100 % 16)
  else if 0x402000 ≤ off ∧ off < 0x403000 then some (0, tribTrunk s 0 ((off - 0x402000) / 0x40))
  else if 0x404000 ≤ off ∧ off < 0x405000 then some (1, tribTrunk s 1 ((off - 0x404000) / 0x40))
  else none

def lfrUp (s : State) (n : Nat) : Bool := s.flag (Reg.LFR_TRUNK_STATUS n) Fd.LFR_TRUNK_STATUS_UP

/-- A trunk runs multiframes: one that sends, or one that receives and is up. -/
def runsMf (s : State) (dir n : Nat) : Bool :=
  if dir = 0 then txOn s n && (decide ((txTrunkOf s n).mf ≠ 0) || decide ((txTrunkOf s n).mfc ≠ 0) || !(txTrunkOf s n).sent.isEmpty) else rxOn s n && lfrUp s n

/-- The multiframe start of a trunk: the writes that wait for it take effect. -/
def mfStart (dir n : Nat) (s : State) : State :=
  let mine := s.lfr.waiting.filter (fun w => lfrTrunkOf s w.1 == some (dir, n))
  let rest := s.lfr.waiting.filter (fun w => !mine.contains w)
  mine.foldl (fun s w => lfrApply w.1 w.2 s) { s with lfr := { s.lfr with waiting := rest } }

/-- A write to an LFR register: at the next multiframe start of a trunk that runs, else at once, after any that still wait. -/
def lfrWrite (off : Nat) (v : W64) (s : State) : State :=
  match lfrTrunkOf s off with
  | some (dir, n) => if runsMf s dir n then { s with lfr := { s.lfr with waiting := s.lfr.waiting ++ [(off, v)] } } else lfrApply off v (mfStart dir n s)
  | none => lfrApply off v s

/-! Line frames (R68 to R72, R80) -/

/-- The physical lane of a line lane under the reversal of its group (R304). -/
def reversed (s : State) (f : Fld) (l : Nat) : Nat :=
  if s.flag (Reg.LAN_GRP_CFG (4 + l / 8)) f then l / 8 * 8 + (7 - l % 8) else l

def lineGroup (l : Nat) : Nat := 4 + l / 8
/-- A line lane of a code-7 group, which carries line frames. -/
def framed (s : State) (l : Nat) : Bool := grouping s (lineGroup l) == 7

/-- The physical lane of a lane-in-trunk of a receive trunk. -/
def rxPhys (s : State) (n i : Nat) : Option Nat := (trunkLane s n i).map (reversed s Fd.LAN_GRP_CFG_RX_REVERSE)

/-- A lane of a receive trunk is degraded (R354). -/
def trunkDegraded (s : State) (n : Nat) : Bool :=
  (List.range (rxWidth s n)).any (fun i => match rxPhys s n i with
    | some l => s.flag (Reg.TIM_LANE_LQ (32 + l)) Fd.TIM_LANE_LQ_DEGRADED
    | none => false)

def alignWord : Nat := 0xE3B16A0F5CD28847

/-- Bytes 0 to 13 of a header, closed by the CRC. -/
def frameHeader (mfc trunk lane req sts epoch ann : Nat) : Bytes :=
  let b := natBe 8 alignWord ++ natBe 1 mfc ++ natBe 1 (trunk * 16 + lane) ++ natBe 1 req ++ natBe 1 sts ++ natBe 1 epoch ++ natBe 1 (ann * 128)
  b ++ natBe 2 (crc16 0xFFFF b)

/-- The header a lane sends now. -/
def laneHeader (s : State) (n i : Nat) : Bytes :=
  let sts := b2n (!lfrUp s n) * 128 + b2n (trunkDegraded s n) * 64
  frameHeader (txTrunkOf s n).mfc n i (s.fld (Reg.LFR_TRUNK_SWREQ n) Fd.LFR_TRUNK_SWREQ_TX_SWREQ / 256) sts (epochTx s n % 256) (b2n (txTrunkOf s n).announcing)

def setEpochTx (n e : Nat) (s : State) : State := s.setFld (Reg.LFR_TRUNK_EPOCH n) Fd.LFR_TRUNK_EPOCH_EPOCH_TX e

/-- A trunk that has not switched since reset shows the attic's count and starts an epoch change (R99). -/
def firstEpoch (n : Nat) (s : State) : State :=
  let lead := leadOf s 0 n
  autoEpoch n (setEpochTx n (counterOf s lead - b2n (txTrunkOf s lead).counted) s)

/-- The first lane of a row builds it; a multiframe start brings waiting writes into force. A row that begins with ANN set carries it on every lane, and is counted (R96). -/
def beginRow (n : Nat) (s : State) : State :=
  if (txTrunkOf s n).sent ≠ [] then s
  else
    let s := if (txTrunkOf s n).mfc = 0 then mfStart 0 n s else s
    let s := if (txTrunkOf s n).lastSwitch.isNone then firstEpoch n s else s
    let (row, s) := buildRow n s
    let x := txTrunkOf s n
    setTxTrunk n { x with row := row, announced := if x.announcing then x.announced + 1 else 0 } s

/-- The last lane of a row ends it: the counter advances (R70). -/
def endRow (n : Nat) (s : State) : State :=
  let x := txTrunkOf s n
  if x.sent.length < txWidth s n then s
  else setTxTrunk n { x with sent := [], row := [], mfc := (x.mfc + 1) % 256, mf := x.mf + (x.mfc + 1) / 256 } s

def sendLine (lane n i : Nat) (s : State) : State :=
  let s := beginRow n s
  let x := txTrunkOf s n
  let payload := ((x.row.drop (8 * i)).take 8).flatten
  let s := s.emit (.lineFrame (reversed s Fd.LAN_GRP_CFG_TX_REVERSE lane) (laneHeader s n i) payload)
  endRow n (setTxTrunk n { x with sent := x.sent ++ [i] } s)

/-- LINE_FRAME_TX (R70): a line lane sends its frame of the trunk's present row; every lane of the trunk sends it before the next row begins. -/
def execLineFrameTx (lane : Fin 32) (s : State) : Ans :=
  match laneTx s lane.val with
  | some (n, i) => .next (onlyIf (trafficOn s && framed s lane.val && !(txTrunkOf s n).sent.contains i) (sendLine lane.val n i) s)
  | none => .next s

/-! Epoch changes (R96 to R99) -/

/-- A trunk stands at a multiframe start. -/
def atMfStart (s : State) (n : Nat) : Bool := (txTrunkOf s n).mfc == 0 && (txTrunkOf s n).sent.isEmpty

/-- Trunk n announces a switch; 16 frames with ANN have gone out on every trunk of the group that has not switched yet, and R98 lets each of those switch. -/
def mayGoEpoch (s : State) (n : Nat) : Bool :=
  (txTrunkOf s n).announcing && (groupOf s 0 n).all (fun m =>
    let x := txTrunkOf s m
    !x.announcing || (decide (16 ≤ x.announced) && (match x.lastSwitch with | some k => decide (k + 2 ≤ x.mf) | none => true)))

/-- The order or activity that announced an epoch on a group ends. -/
def endEpochOrder (g : List Nat) (status : Nat) (s : State) : State :=
  let s := dropClaims (fun c => (c.code == 0x202 || c.code == 0x004) && g.any (fun m => c.res == .txTrunk m)) s
  match s.fore.waits.find? (fun o => o.code == 0x202 && g.any (fun m => o.args.getD 0 0 == BitVec.ofNat 64 m)) with
  | some o => finishWait o status [] s
  | none => s

/-- No new epoch starts (R99): ANN ends. -/
def giveUpEpoch (g : List Nat) (s : State) : State :=
  endEpochOrder g 0x0D (g.foldl (fun s m => setTxTrunk m { txTrunkOf s m with announcing := false, announced := 0, counted := false } s) s)

/-- One tributary of a switching group: the old pointer retires, the association runs under the new one. -/
def switchTrib (old new : Nat) (s : State) (t : Nat) : State :=
  let a := tribAssoc s 0 t
  let r := arec s a
  let r := if old % 4 ≠ new % 4 then r.setAn (old % 4) { r.an (old % 4) with retiring := true } else r
  let x := txTribOf s t
  let laid := match x.laid with | some (p, _) => if p = new % 4 then none else x.laid | none => none
  setTxTrib t { x with laid := laid } (setArec a (r.setC AC.TUB_STATE 1) s)

/-- A trunk of a group switches to the counter's value at its own multiframe start; with the group's last trunk the change ends (log entry 133). -/
def switchTrunk (g : List Nat) (lead n : Nat) (s : State) : State :=
  let old := epochTx s n
  let new := counterOf s lead
  let s := (tribsOn s 0 [n]).foldl (switchTrib old new) s
  let x := txTrunkOf s n
  let s := setEpochTx n new (setTxTrunk n { x with announcing := false, announced := 0, lastSwitch := some x.mf } s)
  let s := if g.any (fun m => (txTrunkOf s m).announcing) then s
    else endEpochOrder g 0 (setTxTrunk lead { txTrunkOf s lead with counted := false } s)
  event Ev.EPOCH_SWITCH [n, (trunkLane s n 0).getD 0, 0, new] s

/-- The attic counter is raised for the announced epoch; without it no new epoch starts (R99). -/
def countEpoch (g : List Nat) (lead : Nat) (s : State) : State :=
  let (ok, s) := counterUp lead s
  if ok then setTxTrunk lead { txTrunkOf s lead with counted := true } s else giveUpEpoch g s

/-- The switch of an announced epoch: the attic counter is raised first. The caution state holds that write, and the switch waits for the multiframe start that follows it (R99). -/
def epochGo (n : Nat) (s : State) : State :=
  let g := groupOf s 0 n
  let lead := leadOf s 0 n
  if (txTrunkOf s lead).counted then switchTrunk g lead n s
  else if inCaution s then
    if s.guard.held.contains (.epochTx lead) then s else { s with guard := { s.guard with held := s.guard.held ++ [.epochTx lead] } }
  else
    let s := countEpoch g lead s
    if (txTrunkOf s lead).counted then switchTrunk g lead n s else s

/-- EPOCH_SWITCH (R96): at a multiframe start a trunk's KEY_EPOCH changes. -/
def execEpochSwitch (n : Fin 16) (s : State) : Ans :=
  .next (onlyIf (trafficOn s && atMfStart s n.val && mayGoEpoch s n.val) (epochGo n.val) s)

/-! Remaps (R85) -/

/-- A trunk stands before a multiframe start: one that sends, one whose last row was the last of its multiframe, or one that is down. -/
def remapDue (s : State) (dir t : Nat) : Bool :=
  let n := tribTrunk s dir t
  if dir = 0 then atMfStart s n
  else !lfrUp s n || (rxTrunkOf s n).row == 255

def applyRemap (m : Nat × Nat × Nat × Nat) (s : State) : State :=
  let s := { s with lfr := { s.lfr with remaps := s.lfr.remaps.erase m } }
  (s.setReg (Reg.LFR_TRIB_SLOTS_LO m.1 m.2.1) (BitVec.ofNat 64 m.2.2.1)).setReg (Reg.LFR_TRIB_SLOTS_HI m.1 m.2.1) (BitVec.ofNat 64 m.2.2.2)

/-- TRIB_REMAP_APPLY (R85): a committed slot map takes effect at a multiframe start of its trunk. -/
def execTribRemapApply (rx : Bool) (trib : Fin 64) (s : State) : Ans :=
  match s.lfr.remaps.find? (fun m => m.1 == b2n rx && m.2.1 == trib.val) with
  | some m => .next (onlyIf (s.live && remapDue s (b2n rx) trib.val) (applyRemap m) s)
  | none => .next s

end Sys2Proof.Machine
end

