-- ==== Sys2Proof/Machine/LfrRx.lean ====
section
/-! DEFINITION. The receive side of the line framer (R73 to R82, R91, R97, R100, R101, R103, R304, R353): acquisition, lane checks, trunks, delineation, epochs and tub keys. -/
namespace Sys2Proof.Machine

def rxLaneOf (s : State) (l : Nat) : RxLane := tget rxLane0 s.lfr.lanes l
def setRxLane (l : Nat) (x : RxLane) (s : State) : State := { s with lfr := { s.lfr with lanes := tput rxLane0 s.lfr.lanes l x } }

/-- The receive trunk and lane-in-trunk of a physical line lane. -/
def rxPlace (s : State) (l : Nat) : Option (Nat × Nat) := laneRx s (reversed s Fd.LAN_GRP_CFG_RX_REVERSE l)

/-! Headers (Table 03.3) -/

def hdrAlign (h : Bytes) : Bool := beNat (slice h 0 8) == alignWord
/-- HCRC (R71). -/
def hdrGood (h : Bytes) : Bool := crc16 0xFFFF (slice h 0 14) == b16 h 14
def hdrMfc (h : Bytes) : Nat := b8 h 8
def hdrReq (h : Bytes) : Nat := b16 h 10
/-- The alignment word on an inverted pair: Gray-mapped levels exchange as the upper bit of each pair flips (R301, R303). -/
def hdrInverted (h : Bytes) : Bool := beNat (slice h 0 8) == alignWord ^^^ 0xAAAAAAAAAAAAAAAA

/-! Trunk state (R74, R75, R80, R104) -/

/-- Every lane of a trunk is in frame, has passed the identity check and lies within the skew. -/
def trunkGood (s : State) (n : Nat) : Bool :=
  rxOn s n && decide (0 < rxWidth s n) && (List.range (rxWidth s n)).all (fun i => match rxPhys s n i with
    | some l => (rxLaneOf s l).inFrame && (rxLaneOf s l).idOk && !(rxLaneOf s l).late
    | none => false)

/-- A LOCKOUT request names a receive trunk. -/
def lockedOut (s : State) (n : Nat) : Bool := (List.range 16).any (fun m => (rxTrunkOf s m).req == some (1, n))

/-- The other trunks of the merged pairs that a receive trunk serves. -/
def matesOf (s : State) (n : Nat) : List Nat :=
  (List.range 16).filter (fun m => m != n && (List.range 64).any (fun t => tribOn s 1 t && tribMerge s 1 t &&
    ((tribTrunk s 1 t == n && tribMate s 1 t == m) || (tribTrunk s 1 t == m && tribMate s 1 t == n))))

/-- A receive trunk goes down: its rows are lost, writes that wait for its multiframe take effect; the pairs it served lose a path, unless LOCKOUT says so. -/
def trunkDown (n lane : Nat) (s : State) : State :=
  let s := event Ev.TRUNK_DOWN [n, lane] (s.setFld (Reg.LFR_TRUNK_STATUS n) Fd.LFR_TRUNK_STATUS_UP 0)
  let s := if lockedOut s n then s else (matesOf s n).foldl (fun s m => event Ev.MERGE_PATH_LOST [n, lane, m] s) s
  mfStart 1 n (setRxTrunk n { rxTrunkOf s n with rows := [] } s)

/-- A condition of R75 may have failed at a lane, or with a write that has taken effect. -/
def checkTrunk (lane : Nat) (s : State) : State :=
  (List.range 16).foldl (fun s n => if lfrUp s n && !trunkGood s n then trunkDown n lane s else s) s

/-- A lane loses its frame and hunts again (R76): its trackers and runs start afresh. What its identity check has found stands (log entry 118). -/
def hunt (x : RxLane) : RxLane :=
  { rxLane0 0 with idOk := x.idOk, idBad := x.idBad, idGood := x.idGood, late := x.late, epoch := x.epoch, hcrcErr := x.hcrcErr, candOvf := x.candOvf }

/-- A line lane has lost its signal or FEC. -/
def laneLost (l : Nat) (s : State) : State := checkTrunk l (setRxLane l (hunt (rxLaneOf s l)) s)

/-- TRUNK_UP (R75): every condition of a trunk holds. -/
def execTrunkUp (n : Fin 16) (s : State) : Ans :=
  .next (onlyIf (trafficOn s && !lfrUp s n.val && trunkGood s n.val)
    (fun s => event Ev.TRUNK_UP [n.val, (rxPhys s n.val 0).getD 0] (s.setFld (Reg.LFR_TRUNK_STATUS n.val) Fd.LFR_TRUNK_STATUS_UP 1)) s)

/-! Acquisition (R76) -/

/-- A lane of a receive trunk whose FEC is locked delivers a decoded stream. -/
def laneLive (s : State) (l : Nat) : Bool :=
  trafficOn s && framed s l && (rxPlace s l).isSome && s.flag (Reg.LAN_LANE_STATUS (32 + l)) Fd.LAN_LANE_STATUS_FEC_LOCK

/-- A tracker's place in the list set. -/
def setTracker (k : Nat) (t : Option Tracker) (x : RxLane) : RxLane := { x with trackers := x.trackers.set k t }

/-- The first free tracker. -/
def freeTracker (x : RxLane) : Option Nat := (List.range 4).find? (fun k => (x.trackers.getD k none).isNone)

/-- A candidate at a bit position where no busy tracker waits. -/
def candidate (pos : Nat) (h : Bytes) (x : RxLane) : RxLane :=
  if x.trackers.any (fun t => match t with | some t => t.next == pos | none => false) then x
  else match freeTracker x with
    | some k => setTracker k (some ⟨1, hdrMfc h, pos + 65536⟩) x
    | none => { x with candOvf := x.candOvf + 1 }

/-- Receive inversion found from the alignment word in a lane that does not train (R303). -/
def fixPolarity (l : Nat) (s : State) : State :=
  let r := Reg.LAN_LANE_STATUS (32 + l)
  let c := (tget laneRun0 s.lanes (32 + l)).cfg
  if fget c Fd.LAN_LANE_CFG_RX_POL_AUTO = 1 ∧ fget c Fd.LAN_LANE_CFG_TRAIN_EN = 0 then
    event Ev.POL_CORRECTED [32 + l] (s.setFld r Fd.LAN_LANE_STATUS_RX_INVERTED (1 - s.fld r Fd.LAN_LANE_STATUS_RX_INVERTED))
  else s

/-- ALIGN_CANDIDATE (R76): a hunting lane meets the alignment word with a good HCRC at a bit position. -/
def execAlignCandidate (lane : Fin 32) (pos : Nat) (hdr : Bytes) (s : State) : Ans :=
  let x := rxLaneOf s lane.val
  .next (onlyIf (laneLive s lane.val && !x.inFrame) (fun s =>
    if hdrInverted hdr then fixPolarity lane.val s
    else if hdrAlign hdr && hdrGood hdr then setRxLane lane.val (candidate pos hdr x) s else s) s)

/-- A busy tracker meets its next position: it counts on, confirms, or is freed. -/
def confirm (k : Nat) (t : Tracker) (h : Bytes) (x : RxLane) : RxLane :=
  if hdrAlign h && hdrGood h && hdrMfc h == (t.mfc + 1) % 256 then
    if t.count + 1 = 3 then { x with inFrame := true, trackers := [none, none, none, none], next := t.next + 65536, mfc := hdrMfc h, lof := 0, mfm := 0 }
    else setTracker k (some ⟨t.count + 1, hdrMfc h, t.next + 65536⟩) x
  else setTracker k none x

/-- TRACKER_CONFIRM (R76): the header at a tracker's next position. -/
def execTrackerConfirm (lane : Fin 32) (k : Fin 4) (hdr : Bytes) (s : State) : Ans :=
  let x := rxLaneOf s lane.val
  match x.trackers.getD k.val none with
  | some t => .next (onlyIf (laneLive s lane.val && !x.inFrame) (setRxLane lane.val (confirm k.val t hdr x)) s)
  | none => .next s

/-! The checks of a lane in frame (R77 to R82, R100, R304) -/

/-- R77: four bad alignment words in a row lose the frame. -/
def alignStep (h : Bytes) (x : RxLane) : Bool × RxLane :=
  if hdrAlign h then (false, { x with lof := 0 }) else if x.lof + 1 = 4 then (true, hunt x) else (false, { x with lof := x.lof + 1 })

/-- R78: three good headers whose counter is not the expected one lose the multiframe. -/
def mfcStep (h : Bytes) (x : RxLane) : Bool × RxLane :=
  if hdrMfc h = x.mfc then (false, { x with mfm := 0 }) else if x.mfm + 1 = 3 then (true, hunt x) else (false, { x with mfm := x.mfm + 1 })

/-- Byte 9 that a lane expects. -/
def idByte (s : State) (n i : Nat) : Nat := rxCfg s n Fd.LFR_TRUNK_RXCFG_PEER_TRUNK * 16 + i

/-- R79: the identity check; true where it fails now. -/
def idStep (ok : Bool) (x : RxLane) : Bool × RxLane :=
  if ok then
    if x.idGood + 1 ≥ 3 then (false, { x with idBad := 0, idGood := 3, idOk := true }) else (false, { x with idBad := 0, idGood := x.idGood + 1 })
  else if x.idBad + 1 = 3 then (true, { x with idBad := 3, idGood := 0, idOk := false })
  else (false, { x with idBad := min 3 (x.idBad + 1), idGood := 0 })

/-- The place a physical lane would have if its group's reversal were the other way round. -/
def otherPlace (s : State) (l : Nat) : Option (Nat × Nat) :=
  laneRx s (if s.flag (Reg.LAN_GRP_CFG (lineGroup l)) Fd.LAN_GRP_CFG_RX_REVERSE then l else l / 8 * 8 + (7 - l % 8))

/-- The run of frames that match only under reversal (R304). -/
def revStep (s : State) (l : Nat) (id : Nat) (ok : Bool) (x : RxLane) : RxLane :=
  match otherPlace s l with
  | some (n, i) => if !ok && id == idByte s n i then { x with revRun := min 3 (x.revRun + 1) } else { x with revRun := 0 }
  | none => { x with revRun := 0 }

/-- Enabled line lanes of a group. -/
def groupLanes (s : State) (g : Nat) : List Nat := ((List.range 8).map (8 * (g - 4) + ·)).filter (fun l => (rxPlace s l).isSome)

/-- R304: every enabled lane of the group matches only under reversal. -/
def checkReversal (l : Nat) (s : State) : State :=
  let g := lineGroup l
  let off := Reg.LAN_GRP_STATUS g
  let due := !s.flag (Reg.LAN_GRP_CFG g) Fd.LAN_GRP_CFG_RX_REVERSE && !s.flag off Fd.LAN_GRP_STATUS_REV_DETECT &&
    (groupLanes s g).all (fun k => (rxLaneOf s k).revRun == 3)
  if !due then s
  else
    let s := s.setFld off Fd.LAN_GRP_STATUS_REV_DETECT 1
    if s.flag (Reg.LAN_GRP_CFG g) Fd.LAN_GRP_CFG_AUTO_REV then
      let s := s.setFld (Reg.LAN_GRP_CFG g) Fd.LAN_GRP_CFG_RX_REVERSE 1
      let s := (groupLanes s g).foldl (fun s k => setRxLane k { rxLaneOf s k with idBad := 0, idGood := 0, revRun := 0 } s) s
      event Ev.REV_DETECT [g] s
    else s

/-- The run of equal request bytes on a lane (R81). -/
def reqStep (h : Bytes) (x : RxLane) : RxLane :=
  if hdrReq h = x.req then { x with reqRun := min 3 (x.reqRun + 1) } else { x with req := hdrReq h, reqRun := 1 }

/-- What an accepted value of bytes 10 and 11 does (Table 03.5). A LOCKOUT or FORCE takes the place of an earlier one (log entry 119). -/
def takeRequest (n l v : Nat) (s : State) : State :=
  let old := s.fld (Reg.LFR_TRUNK_STATUS n) Fd.LFR_TRUNK_STATUS_RX_SWREQ
  if v = old then s
  else
    let s := event Ev.SWREQ_CHANGE [n, l, v] (s.setFld (Reg.LFR_TRUNK_STATUS n) Fd.LFR_TRUNK_STATUS_RX_SWREQ v)
    let code := v / 4096
    let x := rxTrunkOf s n
    let s := if code = 0 then setRxTrunk n { x with req := none } s
      else if code ≤ 2 then setRxTrunk n { x with req := some (code, v / 256 % 16) } s else s
    if nbit v 7 && !nbit old 7 then event Ev.RDI_RX [n, l] s else s

/-- The run of ANN (R100). -/
def annStep (h : Bytes) (x : RxLane) : RxLane := if nbit (b8 h 13) 7 then { x with annRun := min 3 (x.annRun + 1) } else { x with annRun := 0 }

/-- The header fields of a good frame, after its counter. -/
def goodHeader (l n i : Nat) (h : Bytes) (s : State) : State :=
  let ok := b8 h 9 == idByte s n i
  let x := annStep h (reqStep h (revStep s l (b8 h 9) ok { rxLaneOf s l with epoch := some (b8 h 12) }))
  let (bad, x) := idStep ok x
  let s := setRxLane l x s
  let s := if bad then event Ev.TRUNK_MISMATCH [n, l] s else s
  let s := if x.reqRun = 3 then takeRequest n l x.req s else s
  let s := if x.annRun = 3 ∧ !(rxTrunkOf s n).announced then setRxTrunk n { rxTrunkOf s n with announced := true } s else s
  checkReversal l s

/-- One frame of a lane in frame. A bad HCRC is counted in the frame that loses the frame too (R71). -/
def frameStep (l n i : Nat) (h : Bytes) (s : State) : State :=
  let x := rxLaneOf s l
  let x := { x with mfc := (x.mfc + 1) % 256, next := x.next + 65536, hcrcErr := x.hcrcErr + b2n (!hdrGood h) }
  let (lof, x) := alignStep h x
  if lof then event Ev.LANE_LOF [n, l] (setRxLane l x s)
  else if !hdrGood h then
    let s := setRxLane l x s
    if hdrInverted h then fixPolarity l s else s
  else
    let (lom, x) := mfcStep h x
    if lom then event Ev.LANE_LOM [n, l] (setRxLane l x s) else goodHeader l n i h (setRxLane l x s)

/-- The skew of a lane against the earliest lane of its trunk (R74). -/
def skewStep (l n skewNs : Nat) (s : State) : State :=
  let x := rxLaneOf s l
  let late := decide (4000 < skewNs)
  let s := setRxLane l { x with late := late } s
  if late && !x.late then event Ev.SKEW_EXCEEDED [n, l] s else s

/-! Rows (R74, R84) -/

/-- A lane's eight slots join the row of their counter; 4 µs of skew span fewer than 16 rows. -/
def joinRow (i mfc : Nat) (slots : Bytes) (rows : List (Nat × List (Nat × Bytes))) : List (Nat × List (Nat × Bytes)) :=
  if rows.any (fun r => r.1 == mfc && !r.2.any (fun e => e.1 == i)) then rows.map (fun r => if r.1 = mfc then (mfc, r.2 ++ [(i, slots)]) else r)
  else
    let l := rows.filter (fun r => r.1 != mfc) ++ [(mfc, [(i, slots)])]
    l.drop (l.length - 16)

/-- Slot m of a row. -/
def slotIn (row : List (Nat × Bytes)) (m : Nat) : Bytes :=
  match row.find? (fun e => e.1 == m / 8) with | some e => slice e.2 (1022 * (m % 8)) 1022 | none => zeros 1022

/-- The receive tributaries that a trunk serves. -/
def servedBy (s : State) (n : Nat) : List Nat :=
  (List.range 64).filter (fun t => tribOn s 1 t && (tribTrunk s 1 t == n || (tribMerge s 1 t && tribMate s 1 t == n)))

/-- A tributary takes its slots of a row, in increasing slot number (R84). -/
def takeSlots (n : Nat) (row : List (Nat × Bytes)) (s : State) (t : Nat) : State :=
  let b := (tribSlots s 1 t).flatMap (slotIn row)
  let x := rxTribOf s t
  setRxTrib t (if n = tribTrunk s 1 t then { x with stream0 := x.stream0 ++ b } else { x with stream1 := x.stream1 ++ b }) s

/-- A whole row: a multiframe start brings waiting writes into force (R106), and a trunk that is still up delivers its slots (R75). -/
def deliverRow (n lane mfc : Nat) (row : List (Nat × Bytes)) (s : State) : State :=
  let s := if mfc = 0 then checkTrunk lane (mfStart 1 n s) else s
  if lfrUp s n then (servedBy s n).foldl (takeSlots n row) (setRxTrunk n { rxTrunkOf s n with row := mfc } s) else s

/-- A frame of a lane in frame joins its row under the lane's own counter; a bad HCRC does not hold its slots back (R71, R78; log entry 131). -/
def takeRow (lane n i : Nat) (slots : Bytes) (s : State) : State :=
  let mfc := (rxLaneOf s lane).mfc
  let rows := joinRow i mfc slots (rxTrunkOf s n).rows
  match rows.find? (fun r => r.1 == mfc) with
  | some r =>
    if r.2.length < rxWidth s n then setRxTrunk n { rxTrunkOf s n with rows := rows } s
    else deliverRow n lane mfc r.2 (setRxTrunk n { rxTrunkOf s n with rows := rows.erase r } s)
  | none => s

/-- LANE_FRAME_CHECK (R71, R74, R77 to R82): the line frame at a lane's expected frame start, with the lane's lag behind the earliest lane of its trunk. -/
def execLaneFrameCheck (lane : Fin 32) (frame : Bytes) (skewNs : Nat) (s : State) : Ans :=
  match rxPlace s lane.val with
  | some (n, i) => .next (onlyIf (laneLive s lane.val && (rxLaneOf s lane.val).inFrame)
      (fun s =>
        let s := checkTrunk lane.val (skewStep lane.val n skewNs (frameStep lane.val n i (slice frame 0 16) s))
        if lfrUp s n && (rxLaneOf s lane.val).inFrame then takeRow lane.val n i (frame.drop 16) s else s) s)
  | none => .next s

/-! Receive epochs (R97, R101) -/

/-- The smallest value above the last known count whose low 8 bits are those shown. -/
def recoverEpoch (last shown : Nat) : Nat := last + 1 + (shown + 256 - (last + 1) % 256) % 256

/-- The epoch count of a trunk is kept in the attic; the caution state holds the write. -/
def keepRxEpoch (n e : Nat) (s : State) : State :=
  if inCaution s then { s with guard := { s.guard with held := s.guard.held ++ [.rxEpoch n e] } }
  else
    let (ok, s) := atticWrite 3 blkEpochs s
    if ok then { s with attic := { s.attic with rxEpochs := tput nat0 s.attic.rxEpochs n e } } else s

def setEpochRx (n e : Nat) (s : State) : State := s.setFld (Reg.LFR_TRUNK_EPOCH n) Fd.LFR_TRUNK_EPOCH_EPOCH_RX e

/-- RX_EPOCH_SWITCH: the trunk shows a new KEY_EPOCH. -/
def rxSwitch (n lane e : Nat) (s : State) : State :=
  let old := epochRx s n
  let x := rxTrunkOf s n
  let s := setRxTrunk n { x with olds := x.olds ++ [⟨old, s.time.up, false⟩], reject := false, announced := false } s
  event Ev.EPOCH_SWITCH [n, lane, 1, e] (keepRxEpoch n e (setEpochRx n e s))

/-- A KEY_EPOCH that differs from the last known count's, and the lane of the trunk that shows it. -/
def shownEpoch (s : State) (n : Nat) : Option (Nat × Nat) :=
  (List.range (rxWidth s n)).findSome? (fun i => match rxPhys s n i with
    | some l => (rxLaneOf s l).epoch.bind (fun k => if k = epochRx s n % 256 then none else some (l, k))
    | none => none)

/-- What the lanes show is followed, or refused (R101). -/
def followEpoch (n : Nat) (s : State) : State :=
  match shownEpoch s n with
  | none => s
  | some (lane, k) =>
    let e := recoverEpoch (epochRx s n) k
    let x := rxTrunkOf s n
    if e ≤ epochRx s n + 128 ∧ e < 2 ^ 32 then (if x.reject then s else rxSwitch n lane e s)
    else if x.reject then s
    else event Ev.EPOCH_REJECT [n, lane, k] (setRxTrunk n { x with reject := true } s)

/-- The epoch that a transmit group will switch to. -/
def nextEpochTx (s : State) (n : Nat) : Nat :=
  let lead := leadOf s 0 n
  if (txTrunkOf s lead).counted then counterOf s lead else counterOf s lead + 1

/-- An epoch whose keys a trunk derives: the current one, or an announced one. -/
def derives (s : State) (rx : Bool) (n e : Nat) : Bool :=
  if rx then rxOn s n && rxCfg s n Fd.LFR_TRUNK_RXCFG_DERIVE == 1 && (e == epochRx s n || ((rxTrunkOf s n).announced && e == epochRx s n + 1))
  else txOn s n && txCfg s n Fd.LFR_TRUNK_CFG_DERIVE == 1 &&
    ((e == epochTx s n && (txTrunkOf s n).lastSwitch.isSome) || (changing s n && e == nextEpochTx s n))

/-- Epochs for which the receiver holds a tributary's key or is deriving it (R91). -/
def liveEpochs (s : State) (n t : Nat) : List Nat :=
  ((List.range 4).map (arec s (tribAssoc s 1 t)).an).filterMap (fun e => if e.valid then some e.epoch else none) ++
    [epochRx s n, epochRx s n + 1].filter (derives s true n)

/-- The full epoch count of a tub header; a trunk that refuses epochs takes any (its tubs are dropped at dispatch). -/
def tubEpoch (s : State) (n t : Nat) (h : Bytes) : Option Nat :=
  if (rxTrunkOf s n).reject then some (epochRx s n / 256 * 256 + b8 h 10)
  else (liveEpochs s n t).find? (fun e => e % 256 == b8 h 10)

/-- OLD_POINTER_END (R97): one multiframe after the switch, the old pointer is dropped. -/
def mfNs (rate : Nat) : Nat := if rate = 1 then 83560 else 167120

/-- One multiframe has passed since the switch from an epoch that still counts. -/
def pointerEnded (s : State) (n : Nat) (o : OldEpoch) : Bool := !o.dropped && decide (o.at_ + mfNs (rxCfg s n Fd.LFR_TRUNK_RXCFG_RATE) ≤ s.time.up)

def oldPointerDue (s : State) (n : Nat) : Bool := (rxTrunkOf s n).olds.any (pointerEnded s n)

def execOldPointerEnd (n : Fin 16) (s : State) : Ans :=
  .next (onlyIf (s.live && oldPointerDue s n.val) (fun s =>
    let x := rxTrunkOf s n.val
    setRxTrunk n.val { x with olds := x.olds.map (fun o => { o with dropped := o.dropped || pointerEnded s n.val o }) } s) s)

/-- An old key of an association is zeroized, and the pointer entry that named it cleared (R97, R125). -/
def dropPointer (a i : Nat) (s : State) : State :=
  let e := (arec s a).an i
  if !e.valid then s
  else
    let s := setAnOf a i { an0 with inflight := e.inflight } s
    if (slotOf s e.slot).valid then invalidate e.slot 1 s else s

/-- The epochs left by a trunk of the merge group of n at least four multiframes ago, the earliest switch of the group counting. -/
def oldKeys (s : State) (n : Nat) : List Nat :=
  (groupOf s 1 n).flatMap (fun m => (rxTrunkOf s m).olds.filterMap (fun o =>
    if o.at_ + 4 * mfNs (rxCfg s n Fd.LFR_TRUNK_RXCFG_RATE) ≤ s.time.up then some o.epoch else none))

/-- An entry of a receive tributary on trunk n whose key has ended. -/
def endedKey (s : State) (n t i : Nat) : Bool :=
  let e := (arec s (tribAssoc s 1 t)).an i
  e.valid && (oldKeys s n).contains e.epoch

/-- Something of trunk n is to be zeroized. -/
def oldKeyDue (s : State) (n : Nat) : Bool :=
  (rxTrunkOf s n).olds.any (fun o => (oldKeys s n).contains o.epoch) || (tribsOn s 1 [n]).any (fun t => (List.range 4).any (endedKey s n t))

/-- The receive trunk's old keys go. -/
def dropOldRx (n : Nat) (s : State) : State :=
  let gone := oldKeys s n
  let s := (tribsOn s 1 [n]).foldl (fun s t => (List.range 4).foldl (fun s i =>
    if gone.contains ((arec s (tribAssoc s 1 t)).an i).epoch then dropPointer (tribAssoc s 1 t) i s else s) s) s
  let x := rxTrunkOf s n
  setRxTrunk n { x with olds := x.olds.filter (fun o => !gone.contains o.epoch) } s

/-- Pointers of a transmit trunk's tributaries that retire, four multiframes after its switch. -/
def oldTxDue (s : State) (n : Nat) : Bool :=
  (match (txTrunkOf s n).lastSwitch with | some k => decide (k + 4 ≤ (txTrunkOf s n).mf) | none => false) &&
  (tribsOn s 0 [n]).any (fun t => (List.range 4).any (fun i => ((arec s (tribAssoc s 0 t)).an i).retiring))

def dropOldTx (n : Nat) (s : State) : State :=
  (tribsOn s 0 [n]).foldl (fun s t =>
    (List.range 4).foldl (fun s i => if ((arec s (tribAssoc s 0 t)).an i).retiring then dropPointer (tribAssoc s 0 t) i s else s) s) s

def zeroizeOld (n : Nat) (s : State) : State :=
  let s := if oldKeyDue s n then dropOldRx n s else s
  if oldTxDue s n then dropOldTx n s else s

/-- OLD_KEY_ZEROIZE (R97, Table 03.10): at both ends the old pointer's key is zeroized 4 multiframes after the switch; the caution state holds it. -/
def execOldKeyZeroize (n : Fin 16) (s : State) : Ans :=
  .next (onlyIf (s.live && (oldKeyDue s n.val || oldTxDue s n.val)) (unlessCaution (.oldKeys n.val) (zeroizeOld n.val)) s)

/-! Tub keys (R100) -/

/-- Attribute bits of a derived tub key: 256 bits, class TUB, AES-GCM, CASCADE 1 (log entry 52). -/
def tubAttr : Nat := 0x10D40

/-- The key and SALT of tributary t and epoch e from the base key (R100), written into an allocated slot; an orphan is no derivation parent (R128). -/
def deriveTub (rx : Bool) (t e : Nat) (s : State) : State :=
  let dir := b2n rx
  let n := tribTrunk s dir t
  let base := if rx then rxCfg s n Fd.LFR_TRUNK_RXCFG_BASE_SLOT else txCfg s n Fd.LFR_TRUNK_CFG_BASE_SLOT
  let a := tribAssoc s dir t
  let (st, s) := useKey base (some TS.U_DERIVE) 16 (slotWhole s base) s
  if st ≠ 0 ∨ (slotOf s base).g0 TS.ORPHAN = 1 then s
  else match allocSlot s with
    | none => s
    | some slot =>
      let b := slotOf s base
      let k := kdf b.bytes (ascii "BD3208 TUB") (natBe 1 t ++ natBe 4 e) 288
      let s := writeKey slot (k.take 32) tubAttr 0 (some ⟨false, base, b.g1 TS.GEN, b.g0 TS.CASCADE⟩) none true s
      let x := (arec s a).an (e % 4)
      setAnOf a (e % 4) { x with
        slot := slot, valid := true, retiring := false, salt := beNat (slice k 32 4), epoch := e, nextPn := if rx then 0 else 1, seen := 0, warned := false } s

/-- A tributary on its trunk lacks the key of an epoch that the trunk derives. -/
def tubKeyDue (rx : Bool) (t e : Nat) (s : State) : Bool :=
  let x := (arec s (tribAssoc s (b2n rx) t)).an (e % 4)
  tribOn s (b2n rx) t && derives s rx (tribTrunk s (b2n rx) t) e && !(x.valid && x.epoch == e)

def tubKeyDerived (rx : Bool) (t e : Nat) (s : State) : State := if tubKeyDue rx t e s then deriveTub rx t e s else s

/-- TUB_KEY_DERIVED (R100): the key of a tributary and epoch becomes resident; the caution state holds the write. -/
def execTubKeyDerived (rx : Bool) (trib : Fin 64) (epoch : W32) (s : State) : Ans :=
  .next (onlyIf (s.live && tubKeyDue rx trib.val epoch.toNat s) (unlessCaution (.tubKey rx trib.val epoch.toNat) (deriveTub rx trib.val epoch.toNat)) s)

/-! Delineation (R91) -/

/-- A block's header passes, epoch apart. -/
def headerForm (s : State) (t : Nat) (h : Bytes) : Bool :=
  b8 h 0 % 64 == t && b8 h 1 % 16 == 0 && (slice h 11 5).all (· == 0) && (decide (b16 h 2 < tubSize s 1 t) || b16 h 2 == 0xFFFF)

/-- The SEQ of a header continues that of the one before. -/
def continues (last : Nat × Nat × Bool) (ptr seq : Nat) (idle : Bool) : Bool :=
  if last.2.2 || idle then seq == last.2.1 || (ptr != last.1 && decide (seq ≤ 1))
  else if ptr ≠ last.1 then seq == 1 else seq == last.2.1 + 1

/-- After a header that failed: its place counts as a tub's; three in a row lose delineation. -/
def delinBad (d : Delin) : Bool × Delin :=
  if d.fails + 1 = 3 then (true, ⟨false, 0, none⟩)
  else (false, ⟨true, d.fails + 1, d.last.map (fun l => (l.1, l.2.1 + 1, l.2.2))⟩)

def delinOf (x : RxTrib) (primary : Bool) : Delin := if primary then x.delin0 else x.delin1
def setDelin (t : Nat) (primary : Bool) (d : Delin) (s : State) : State :=
  let x := rxTribOf s t
  setRxTrib t (if primary then { x with delin0 := d } else { x with delin1 := d }) s

/-! Received blocks (R17, R91, R103, R353) -/

/-- LOCKOUT or FORCE keeps copies of a merged tributary that arrive on a trunk out (Table 03.5; log entry 53 for the reach of FORCE). -/
def ignored (s : State) (t n : Nat) : Bool :=
  tribMerge s 1 t && (lockedOut s n ||
    (List.range 16).any (fun m => match (rxTrunkOf s m).req with
      | some (2, k) => k != n && (k == tribTrunk s 1 t || k == tribMate s 1 t)
      | _ => false))

/-- The differential delay of a tub's two copies, in ns (R353). -/
def noteDiff (t : Nat) (d : Int) (s : State) : State :=
  let off := Reg.TIM_MERGE_DIFF t
  let s := s.setFld off Fd.TIM_MERGE_DIFF_LAST (unsigned 32 d)
  s.setFld off Fd.TIM_MERGE_DIFF_MAX (max (s.fld off Fd.TIM_MERGE_DIFF_MAX) d.natAbs)

/-- The arrival of one copy. -/
def noteArrival (t n seq ts : Nat) (s : State) : State :=
  if !tribMerge s 1 t then s
  else
    let x := rxTribOf s t
    match x.arrived.find? (fun a => a.1 == seq && a.2.1 != n) with
    | some a =>
      let (p, q) := if n = tribTrunk s 1 t then (ts, a.2.2) else (a.2.2, ts)
      noteDiff t (((p : Int) - (q : Int)).tdiv 4) (setRxTrib t { x with arrived := x.arrived.erase a } s)
    | none =>
      let l := x.arrived ++ [(seq, n, ts)]
      setRxTrib t { x with arrived := l.drop (l.length - 16384) } s

/-- The pointer of a stream changes: the last SEQ under the old epoch is known. -/
def noteEnd (t e : Nat) (d : Delin) (ptr : Nat) (s : State) : State :=
  match d.last with
  | some (p, q, _) =>
    if p = ptr then s
    else
      let x := rxTribOf s t
      setRxTrib t { x with ends := x.ends ++ [(e - (e % 4 + 4 - p) % 4, q)], arrived := [] } s
  | none => s

/-- A sealed tub goes to dispatch; its record is asked for as it comes (R235; log entry 136). -/
def tubIn (t n : Nat) (block : Bytes) (e ts : Nat) (s : State) : State :=
  let seq := beNat (slice block 4 6)
  let s := noteArrival t n seq ts s
  let it := { newItem (80 + n) (trunkPort s n) (block.drop 16) ts with
    trib := t, assoc := some (tribAssoc s 1 t), hdr := slice block 0 16, path := n, kepoch := e, pn := seq }
  backlogEnter it (requestAssoc (tribAssoc s 1 t) s)

/-- A block whose header passed. -/
def goodBlock (t n : Nat) (primary : Bool) (block : Bytes) (e ts : Nat) (s : State) : State :=
  let d := delinOf (rxTribOf s t) primary
  let ptr := b8 block 0 / 64
  let idle := nbit (b8 block 1) 4
  let s := setDelin t primary ⟨true, 0, some (ptr, beNat (slice block 4 6), idle)⟩ (noteEnd t e d ptr s)
  if idle || ignored s t n then s else tubIn t n block e ts s

def badBlock (t n : Nat) (primary : Bool) (s : State) : State :=
  let (lod, d) := delinBad (delinOf (rxTribOf s t) primary)
  let s := setDelin t primary d s
  if lod then event Ev.LOD [t, n] s else s

/-- A header passes (R91). -/
def headerOkAt (s : State) (n t : Nat) (h : Bytes) : Bool := (tubEpoch s n t h).isSome && headerForm s t h

/-- A stream's pointer, SEQ and idle flag in a header. -/
def headerMark (h : Bytes) : Nat × Nat × Bool := (b8 h 0 / 64, beNat (slice h 4 6), nbit (b8 h 1) 4)

/-- Two headers a block apart at position p both pass, and the second continues the first. -/
def joinsAt (s : State) (n t : Nat) (b : Bytes) (p : Nat) : Bool :=
  let h := slice b p 16
  let k := slice b (p + tubSize s 1 t + 32) 16
  let m := headerMark k
  headerOkAt s n t h && headerOkAt s n t k && continues (headerMark h) m.1 m.2.1 m.2.2

def trunkStream (x : RxTrib) (primary : Bool) : Bytes := if primary then x.stream0 else x.stream1
def setStream (t : Nat) (primary : Bool) (b : Bytes) (s : State) : State :=
  let x := rxTribOf s t
  setRxTrib t (if primary then { x with stream0 := b } else { x with stream1 := b }) s

/-- A tributary that is not delineated looks for block boundaries in what has come: the first position where R91 holds; the block after it is the first one taken, and what lies before is discarded. -/
def delineate (t n : Nat) (primary : Bool) (s : State) : State :=
  let b := trunkStream (rxTribOf s t) primary
  let size := tubSize s 1 t + 32
  match (List.range (b.length - (size + 15))).find? (joinsAt s n t b) with
  | some p => setDelin t primary ⟨true, 0, some (headerMark (slice b p 16))⟩ (setStream t primary (b.drop (p + size)) s)
  | none => setStream t primary (b.drop (b.length - (size + 15))) s

/-- One block of a delineated tributary. -/
def blockIn (t n : Nat) (primary : Bool) (block : Bytes) (ts : Nat) (s : State) : State :=
  match tubEpoch s n t block with
  | some e => if headerForm s t block then goodBlock t n primary block e ts s else badBlock t n primary s
  | none => badBlock t n primary s

/-- The next bytes of a receive tributary on a trunk: its next block, once the whole of it has come, or the search for one. -/
def streamIn (t n ts : Nat) (s : State) : State :=
  let primary := n == tribTrunk s 1 t
  let s := followEpoch n s
  let x := rxTribOf s t
  if !(delinOf x primary).ok then delineate t n primary s
  else
    let size := tubSize s 1 t + 32
    let b := trunkStream x primary
    if b.length < size then s else blockIn t n primary (b.take size) ts (setStream t primary (b.drop size) s)

/-- TUB_BLOCK_RX (R91): the next block of P + 32 bytes of a tributary's stream on a trunk that is up. -/
def execTubBlockRx (trib : Fin 64) (trunk : Fin 16) (ts : Nat) (s : State) : Ans :=
  let t := trib.val
  let n := trunk.val
  let mine := n == tribTrunk s 1 t || (tribMerge s 1 t && n == tribMate s 1 t)
  .next (onlyIf (trafficOn s && tribOn s 1 t && mine && lfrUp s n) (streamIn t n ts) s)

end Sys2Proof.Machine
end

