-- ==== Sys2Proof/Machine/Orders.lean ====
section
/-! DEFINITION. The path every order takes (R200, R219, R222 to R227): who issues it, what may deny it, what holds it back, its claim, its answer. -/
namespace Sys2Proof.Machine

/-! Status values (Table 07.8) -/
namespace St
def OK : Nat := 0x00
def AUTH_FAIL : Nat := 0x01
def NO_KEY : Nat := 0x02
def SLOT_BAD : Nat := 0x03
def KEK_INVALID : Nat := 0x04
def EXPIRED : Nat := 0x05
def DENIED : Nat := 0x06
def ABORTED : Nat := 0x07
def UNSUPPORTED : Nat := 0x08
def CELL_FAULT : Nat := 0x09
def BUSY : Nat := 0x0A
def DEFERRED : Nat := 0x0B
def HIT_RACE : Nat := 0x0C
def COUNTER_END : Nat := 0x0D
def BLOB_BAD : Nat := 0x0E
def NOT_FOUND : Nat := 0x0F
def FULL : Nat := 0x10
def FAULT : Nat := 0x11
def TIMEOUT : Nat := 0x12
def SKIPPED : Nat := 0x13
def BAD_FORMAT : Nat := 0x14
def BAD_SIGNATURE : Nat := 0x15
def SEQ_OLD : Nat := 0x16
def NO_SIGNER : Nat := 0x17
end St

/-! What an order's body answers -/

/-- An order is done with its status and results, meets a claim, waits for something, or waits for an activity to end before it runs. -/
inductive OrdAns
  | done (status : Nat) (res : List (Nat × W64))
  | busy (c : Claim)
  | wait
  | defer (c : Claim)
  /-- The part resets, so nobody is answered. -/
  | gone

/-- What an order does. -/
abbrev OrdBody := OrdReq → State → OrdAns × State

def ordOk (s : State) : OrdAns × State := (.done St.OK [], s)
def ordSt (status : Nat) (s : State) : OrdAns × State := (.done status [], s)

def OrdReq.argW (o : OrdReq) (k : Nat) : W64 := o.args.getD k 0

/-- A result in g16 + k. -/
def res (k v : Nat) : Nat × W64 := (16 + k, BitVec.ofNat 64 v)

/-! Claims (R222, R225) -/

/-- An order's claim on a resource. -/
def OrdReq.claim (o : OrdReq) (r : Res) : Claim :=
  if o.src = 0 then ⟨r, o.code, o.fn, o.t % 4, 0, o.seq⟩ else if o.src = 1 then ⟨r, o.code, 0, 0, 1, 0⟩ else ⟨r, o.code, 0, 0, o.src, 0⟩

/-- A hardware activity's claim. -/
def hwClaim (r : Res) (activity : Nat) : Claim := ⟨r, activity, 0, 0, 3, 0⟩

/-- The status word of a refused claim. -/
def busyWord (c : Claim) : W64 :=
  BitVec.ofNat 64 (St.BUSY + c.code * 2 ^ 8 + c.fn * 2 ^ 20 + c.t * 2 ^ 24 + c.src * 2 ^ 26 + c.seq % 2 ^ 32 * 2 ^ 28)

/-- An order that needs a resource nobody holds. -/
def unclaimed (r : Res) (f : OrdBody) : OrdBody := fun o s =>
  match claimOn s r with
  | some c => (.busy c, s)
  | none => f o s

/-- An order that acts on powered lanes and galleries (R443). -/
def notBanked (f : OrdBody) : OrdBody := fun o s => if s.mode = 3 then ordSt St.UNSUPPORTED s else f o s

/-! Landing cells of an order (R206, R394) -/

/-- A landing cell argument: the submitting function's and handed over; firmware's need only be handed over. -/
def ordCellOk (o : OrdReq) (s : State) (cell : Nat) : Bool :=
  decide (cell < 65536) && tokenOf s cell == 1 && (o.src == 1 || ownsCell s o.fn cell)

/-- What keeps an order from reading sectors of its cells: a cell that is not its own and handed over ends it CELL_FAULT, a read that fails ABORTED (Table 10.3); none when the read is good. -/
def readBar (o : OrdReq) (cells sectors : List Nat) (s : State) : Option (OrdAns × State) :=
  if !cells.all (ordCellOk o s) then some (ordSt St.CELL_FAULT s)
  else
    let (ok, t) := readCells sectors o.ecc s
    if ok then none else some (ordSt St.ABORTED t)

/-- What keeps an order from reading a range of its cells. -/
def cellBar (o : OrdReq) (s : State) (cell len : Nat) : Option (OrdAns × State) := readBar o (cellsFrom cell (max len 1)) (cellsOf (landingAt cell) len) s

/-- Bytes from a cell argument; an image order brings them with it. -/
def ordRead (o : OrdReq) (s : State) (cell len : Nat) : Option Bytes :=
  match o.cell with
  | some b => some (slice b 0 len)
  | none => if (cellBar o s cell len).isNone then some (cellBytes s cell len) else none

/-- The end of an order that cannot read its cells. -/
def ordNoRead (o : OrdReq) (s : State) (cell len : Nat) : OrdAns × State := (cellBar o s cell len).getD (ordSt St.CELL_FAULT s)

/-- Does an order's cell argument accept bytes. -/
def ordCellsOk (o : OrdReq) (s : State) (cell len : Nat) : Bool := (cellsFrom cell (max len 1)).all (ordCellOk o s)

/-- An order writes bytes into its cell argument and ends with its results; with CELL_FAULT where the cell is not its own, ABORTED where the write fails (Table 10.3). -/
def ordWrite (o : OrdReq) (cell : Nat) (b : Bytes) (rs : List (Nat × W64)) (s : State) : OrdAns × State :=
  if ordCellsOk o s cell b.length then
    let (ok, s) := cellWrite cell b s
    if ok then (.done St.OK rs, s) else ordSt St.ABORTED s
  else ordSt St.CELL_FAULT s

/-! What may deny an order -/

/-- The master an order is checked as (R408). -/
def OrdReq.master (o : OrdReq) : Nat := if o.src = 0 then o.fn else if o.src = 1 then mForeman else mCrosscut

/-- The target whose entry an order needs, and the permission: R 0, A 3 (R408; log entry 56). -/
def ordTarget (o : OrdReq) : Option (Nat × Nat) :=
  let sub := o.code / 256
  let deep := nbit (o.arg 0) 15
  if o.code = 0x105 then some (0x33, 0)
  else if sub = 1 then some (0x32, 3)
  else if sub = 2 then some (0x34, 3)
  else if sub = 3 then some (0x22, 3)
  else if o.code = 0x401 ∨ o.code = 0x402 then some (0x23, 3)
  else if o.code = 0x403 ∨ o.code = 0x404 ∨ o.code = 0x405 then some (0x37, 3)
  else if sub = 4 then some (0x35, 3)
  else if o.code = 0x506 ∨ o.code = 0x507 then some (0x01, 3)
  else if o.code = 0x504 ∨ o.code = 0x505 then some (if deep then 0x01 else 0x00, 3)
  else if o.code = 0x508 ∨ o.code = 0x509 then some (0x11, 3)
  else if o.code = 0x50A ∨ o.code = 0x50B then some (0x20, 3)
  else if sub = 5 then some (0x00, 3)
  else if o.code = 0x605 ∨ o.code = 0x606 then some (0x3A, 3)
  else if sub = 6 then some (0x39, 3)
  else if sub = 7 then some (0x3B, 3)
  else if sub = 8 then some (0x3C, 3)
  else if sub = 9 then some (0x3D, 3)
  else if o.code = 0xA01 ∨ o.code = 0xA02 then
    (if o.arg 0 / 0x100000 < 15 then some (0x30 + o.arg 0 / 0x100000, if o.code = 0xA01 then 3 else 0) else none)
  else if o.code = 0xA06 ∨ o.code = 0xA07 then some (0x31, 3)
  else if o.code = 0xA0A then (if o.arg 0 < 128 then some (o.arg 0, 3) else none)
  else if sub = 10 then some (0x20, 3)
  else if o.code = 0xB01 then some (0x21, 0)
  else if o.code = 0xB02 then some (0x3E, 3)
  else none

/-- The target an order names a key of, which it may do with U on that target (R109, R408): a parent, a key-encryption key, a key to save, a key for an AN entry. -/
def ordNames (o : OrdReq) : Option Nat :=
  if o.code = 0x503 ∨ o.code = 0x50A then some (if nbit (o.arg 0) 15 then 0x01 else 0x00)
  else if o.code = 0x510 ∨ o.code = 0x511 ∨ o.code = 0x512 ∨ o.code = 0x411 then some 0x00
  else none

/-- The access table denies an order: the permission on its target, then U on the key it names. The crosscut peer applies image items by W (Table 15.13). -/
def accessDenies (o : OrdReq) (s : State) : Option (Nat × Nat) :=
  match ordTarget o with
  | some (target, perm) =>
    if !permits s target o.master (if o.src = 2 then 1 else perm) then some (target, perm)
    else match ordNames o with
      | some t => if o.src != 2 && !permits s t o.master 2 then some (t, 2) else none
      | none => none
  | none => none

/-- What the bundle of R447 may issue. -/
def blankAllows (o : OrdReq) : Bool :=
  (o.code == 0xA03 && o.arg 0 == o.signer) || [0xA0A, 0xB02, 0xA08, 0xA02].contains o.code || (o.code == 0xA06 && o.arg 0 == 1)

/-- What a bundle may issue in Recovery (R445); a MODE_SET 1 without authorisation is denied where it triggers its monitor (R444). -/
def recoveryAllows (o : OrdReq) : Bool :=
  [0xB01, 0xA02, 0xA06, 0xA05].contains o.code || (o.code == 0xA07 && o.arg 0 == 2) ||
  (o.code == 0xA07 && o.arg 0 == 1 && !o.testOk)

/-- The life-cycle state, the mode and ORDER_MASK allow an order (R219, R445, R447, R448). The bundle of R447 keeps its orders in the Recovery of a part without a root key (log entry 92). -/
def stateAllows (o : OrdReq) (s : State) : Bool :=
  s.attic.lifecycle != 3 && (if o.blank then blankAllows o else s.mode != 4 || recoveryAllows o) &&
  (o.src != 0 || nbit o.mask (o.code / 256 - 1) && decide (1 ≤ o.code / 256))

/-! What holds an order (R418) -/

/-- Key-change orders, strongroom writes and attic writes wait while the caution state lasts. -/
def heldInCaution (code : Nat) : Bool :=
  code / 256 == 5 || [0x202, 0x203, 0x412, 0x605, 0xA03, 0xA04, 0xA05, 0xA06, 0xA08, 0xA09].contains code

/-! Twins: image orders (R360, R370, R375, Table 14.1) -/

def twinF (s : State) (f : Fld) : Nat := s.fld Reg.TWN_STATUS f
def twinOn (s : State) : Bool := s.flag Reg.TWN_CFG Fd.TWN_CFG_TWIN_EN
/-- CTRL reads ACTIVE, or the part is standalone. -/
def isActive (s : State) : Bool := twinF s Fd.TWN_STATUS_CTRL == 2
def holdsRole (s : State) : Bool := !twinOn s || isActive s

/-- An association record that the twins mirror. -/
def mirrored (s : State) (a : Nat) : Bool :=
  s.flag Reg.TWN_CFG Fd.TWN_CFG_MIRROR_EN && decide (s.fld Reg.TWN_CFG Fd.TWN_CFG_MIRROR_LO ≤ a) && decide (a ≤ s.fld Reg.TWN_CFG Fd.TWN_CFG_MIRROR_HI)

/-- A register of the control image (Table 14.2). -/
def imageReg (off : Nat) : Bool :=
  [Reg.WND_TG_CFG, Reg.WND_DN_CFG, Reg.TIM_CFG, Reg.MSC_TPID, Reg.TBL_CFG, Reg.TWN_DOUT, Reg.TWN_DOUT_SRC].contains off ||
  ["WND_PFC_CFG", "Q_LIMITS", "Q_FLOW", "Q_SCHED", "GATE_FLOW_CFG", "GATE_FLOW_RATE", "TMP_LEVEL", "TWN_ELIM_CFG"].contains
    (match descAt off with | some d => d.name | none => "")

/-- The image orders of R375. -/
def imageOrder (o : OrdReq) (s : State) : Bool :=
  [0x601, 0x602, 0x603, 0x604, 0x607, 0x701, 0x702, 0x703, 0x401, 0x402, 0xA03, 0xA04, 0xB02, 0x903].contains o.code ||
  (o.code == 0xA01 && imageReg (o.arg 0)) || (o.code == 0x410 && mirrored s (o.arg 0))

/-- Orders that a twin without the control role refuses: image orders and BLOB_SEND with DENIED, ROLE_MOVE with UNSUPPORTED (Table 14.1). -/
def roleRefuses (o : OrdReq) (s : State) : Option Nat :=
  if o.src = 2 ∨ holdsRole s then none
  else if imageOrder o s ∨ o.code = 0x904 then some St.DENIED
  else if o.code = 0x902 then some St.UNSUPPORTED
  else none

/-- Orders that a running resynchronisation defers (Tables 07.10, 14.14). -/
def resyncDefers (o : OrdReq) (s : State) : Bool :=
  o.src != 2 && twinF s Fd.TWN_STATUS_RESYNC_ACTIVE == 1 &&
  (imageOrder o s || o.code == 0x202 || ([0x411, 0x412].contains o.code && mirrored s (o.arg 0)))

/-- The 38 bytes before the payload of a crosscut or shaft frame (Table 14.4). -/
def linkHeader (dst src proto kind flags epoch seq len : Nat) : Bytes :=
  natBe 6 dst ++ natBe 6 src ++ natBe 2 0x88B5 ++ natBe 1 proto ++ natBe 1 1 ++ natBe 1 kind ++ natBe 1 flags ++
    natBe 4 epoch ++ natBe 8 seq ++ natBe 2 len ++ zeros 6

/-- A frame sealed with AES-256-GCM: the additional data is its header; `lead` are the bits of the IV above SEQ (R363, R381). -/
def sealedFrame (hdr key payload : Bytes) (lead seq : Nat) : Bytes :=
  let iv := natBe 12 (lead + seq)
  let ct := gcmCrypt key iv payload
  hdr ++ ct ++ gcmTag key iv hdr ct

/-- The crosscut address of a position (R363). -/
def xcAddr (pos : Nat) : Nat := 0x025BD3FFFF00 + pos

def linkKey (s : State) (l : Link) : Bytes := match l.slot with | some n => (slotOf s n).bytes | none => []

/-- FLAGS of a crosscut frame. -/
def xcFlags (s : State) : Nat := s.position + 2 * b2n (isActive s) + 4 * twinF s Fd.TWN_STATUS_SYNCED

/-- Sends a sealed crosscut message with the next SEQ. -/
def xcPost (kind : Nat) (payload : Bytes) (s : State) : State :=
  let seq := s.twin.link.tx + 1
  let hdr := linkHeader (xcAddr (1 - s.position)) (xcAddr s.position) 0x58 kind (xcFlags s) (twinF s Fd.TWN_STATUS_ROLE_EPOCH) seq payload.length
  let frame := sealedFrame hdr (linkKey s s.twin.link) payload (s.position * 2 ^ 95) seq
  sendXc kind frame { s with twin := { s.twin with link := { s.twin.link with tx := seq } } }

/-- A session key still lies in its slot. -/
def keyed (s : State) (l : Link) : Bool := match l.slot with | some n => (slotOf s n).valid | none => false

/-- Sends a crosscut message while a session is up. -/
def xcSend (kind : Nat) (payload : Bytes) (s : State) : State := if s.twin.link.up && keyed s s.twin.link then xcPost kind payload s else s

/-- The bytes an image order reads from its cell. -/
def imageLen (code : Nat) : Nat := if code = 0x604 then 2064 else if code = 0x701 then 97 else if code = 0xA03 then 2699 else if code = 0x903 then 22 else 272

/-- The cell content that travels with an image order. -/
def imageCell (o : OrdReq) (s : State) : Bytes :=
  if [0x604, 0x701, 0xA03, 0x903, 0x410].contains o.code then (ordRead o s (o.arg 1) (imageLen o.code)).getD []
  else if o.code = 0x401 then o.atts.getD (o.arg 1) []
  else []

/-- An image order on the crosscut: its code, its arguments, its content (log entry 90). -/
def itemBytes (code : Nat) (args : List Nat) (content : Bytes) : Bytes :=
  natBe 2 code ++ natBe 2 args.length ++ args.flatMap (natBe 8) ++ natBe 4 content.length ++ content

/-- The active twin forwards a committed image order with the next generation number (R360, R375). -/
def forwardImage (o : OrdReq) (content : Bytes) (s : State) : State :=
  let g := s.twin.gen + 1
  xcSend 0x05 (natBe 8 g ++ itemBytes o.code (o.args.map (fun a => a.toNat)) content) { s with twin := { s.twin with gen := g } }

/-! Performing an order -/

/-- An order's body after what the twins' roles refuse or defer. -/
def guardedBody (body : OrdBody) : OrdBody := fun o s =>
  match roleRefuses o s with
  | some st => ordSt st s
  | none =>
    if resyncDefers o s then (.defer (hwClaim .image 0x007), s)
    else
      let content := if imageOrder o s then imageCell o s else []
      match body o s with
      | (.done st rs, s') =>
        (.done st rs, if st = St.OK ∧ isActive s ∧ o.src ≠ 2 ∧ imageOrder o s then forwardImage o content s' else s')
      | x => x

/-- Performs an order: its answer, its wait or its place on the deferred list (R223). -/
def perform (body : OrdBody) (o : OrdReq) (s : State) : State :=
  match guardedBody body o s with
  | (.done st rs, s) => endOrder o (BitVec.ofNat 64 st) rs s
  | (.busy c, s) => endOrder o (busyWord c) [] s
  | (.wait, s) => { s with fore := { s.fore with waits := s.fore.waits ++ [o] } }
  | (.gone, s) => s
  | (.defer c, s') =>
    if 4 ≤ o.t then s
    else if 32 ≤ s'.fore.deferred.length then endOrder o (busyWord c) [] s'
    else
      let k := s'.fore.nextTicket
      let s := answer o.t o.rd (BitVec.ofNat 64 (St.DEFERRED + k * 2 ^ 8)) [] s'
      { s with fore := { s.fore with deferred := s.fore.deferred ++ [⟨k, { o with t := 4 + k }, false⟩], nextTicket := (k + 1) % 2 ^ 24 } }

/-- A thread begins to wait in the caution state (R219). -/
def beginGrace (t : Nat) (s : State) : State :=
  match running s t with
  | some r => setRunning t (some { r with waitFrom := some s.time.up }) s
  | none => s

def endGrace (t : Nat) (s : State) : State :=
  match running s t with
  | some r => (match r.waitFrom with
    | some w => setRunning t (some { r with waitFrom := none, grace := r.grace + (s.time.up - w) }) s
    | none => s)
  | none => s

/-- Counts an order for its program's result header (Table 07.7). -/
def noteOrder (o : OrdReq) (s : State) : State :=
  match running s o.t with
  | some r => setRunning o.t (some { r with orders := (r.orders + 1) % 65536, lastOrder := o.code }) s
  | none => s

/-- An order reaches the foreman: denied, held, or performed. -/
def submit (body : OrdBody) (o : OrdReq) (s : State) : State :=
  let s := noteOrder o s
  if !stateAllows o s then endOrder o (BitVec.ofNat 64 St.DENIED) [] s
  else match accessDenies o s with
    | some (target, _) => endOrder o (BitVec.ofNat 64 St.DENIED) [] (violation o.master target o.code s)
    | none =>
      let s := useCells o.t (orderCells o s) s
      if inCaution s && heldInCaution o.code then beginGrace o.t { s with guard := { s.guard with held := s.guard.held ++ [.order o] } }
      else perform body o s

/-- The order a thread issues, with its program's signer. Firmware, thread 0, has no signer (log entry 57). -/
def request (code : Nat) (args : List W64) (t rd : Nat) (s : State) : OrdReq :=
  match running s t with
  | some r => ⟨code, args, t, rd, r.b.fn, 0, r.admin, r.testOk, r.orderMask, r.b.signer, r.b.seq, r.b.blank, r.b.progs.map (fun p => p.att), none, .good⟩
  | none => ⟨code, args, t, rd, 0, 1, false, false, 0x7FF, 0, 0, false, [], none, .good⟩

/-- The order of a row of Table 07.9. -/
def requestBy (code : Nat) (args : List W64) (o : OrdBy) (s : State) : OrdReq := { request code args o.t.val o.rd.val s with ecc := o.ecc }

/-- The function of the thread's program was reset: its next order boundary ends it (R221). -/
def programReset (s : State) (t : Nat) : Bool := match running s t with | some r => r.aborted | none => false

/-- One row of Table 07.9: a foreman thread that runs issues the order with its arguments; else nothing changes (log entry 3). -/
def orderRow (code : Nat) (body : OrdBody) (o : OrdBy) (args : List W64) (s : State) : State :=
  if foreRuns s o.t.val then
    (if programReset s o.t.val then endProgram o.t.val St.ABORTED s else submit body (requestBy code args o s) s)
  else s

end Sys2Proof.Machine
end

