-- ==== Sys2Proof/Machine/GalOrders.lean ====
section
/-! DEFINITION. The orders on the galleries: images, epochs, reset, program state and program counters (R157, R158, R161, R191, R197, R209 to R212). -/
namespace Sys2Proof.Machine

/-! PROG_LOAD (R209, R211) -/

/-- The header of an image fits Table 07.1 and its code is all there. -/
def imageFits (b : Bytes) : Bool :=
  let n := be b 6 2
  be b 0 4 == 0x4E494D47 && be b 4 1 == 1 && be b 5 1 == 0 && decide (1 ≤ n) && decide (n ≤ 8192) && be b 22 2 == 0 && be b 32 32 == 0 &&
  decide (64 + 8 * n ≤ b.length)

def imageFrom (b : Bytes) : Image :=
  ⟨(List.range 6).map (fun i => be b (8 + 2 * i) 2), codeOf (be b 6 2) (b.drop 64), be b 24 8⟩

/-- The load checks of an image (R181, R204). -/
def imageLoads (im : Image) : Bool := im.entries.all (fun e => decide (e < im.code.length)) && codeLoads im.code

def epochCount (s : State) (e : Nat) : Nat := s.fld (Reg.GAL_EPOCH_INFLIGHT e) Fd.GAL_EPOCH_INFLIGHT_COUNT
def loadedMap (s : State) : Nat := s.fld Reg.GAL_EPOCH Fd.GAL_EPOCH_LOADED

/-- The image is written into every online gallery, and LOADED is set. -/
def writeImage (e : Nat) (im : Image) (s : State) : State :=
  let s := s.setFld Reg.GAL_EPOCH Fd.GAL_EPOCH_LOADED (setNbit (loadedMap s) e true)
  { s with gal := { s.gal with images := tput none0 s.gal.images e (some im) } }

/-- A claim that names no holder: items in flight hold the epoch (R157; log entry 65). -/
def noHolder (r : Res) : Claim := ⟨r, 0, 0, 0, 0, 0⟩

def progLoadBody : OrdBody := unclaimed .store fun o s =>
  let e := o.arg 0
  let att := o.atts.getD (o.arg 1) []
  if 4 ≤ e ∨ att = [] then ordSt St.UNSUPPORTED s
  else if !s.gal.restoring.isEmpty || s.gal.draining.any (resetDue s) then (.defer (hwClaim .store 0x008), s)
  else if e = dispatchEpoch s ∨ epochCount s e ≠ 0 then (.busy (noHolder .store), s)
  else if !imageFits att then ordSt St.BAD_FORMAT s
  else if !imageLoads (imageFrom att) then ordSt St.UNSUPPORTED s
  else ordOk (writeImage e (imageFrom att) s)

/-- PROG_LOAD (Table 07.9). -/
def execProgLoad (o : OrdBy) (epoch att : W64) (s : State) : Ans := .next (orderRow 0x401 progLoadBody o [epoch, att] s)

/-! EPOCH_SET (R158) -/

def setDispatch (e : Nat) (s : State) : State :=
  let old := dispatchEpoch s
  let s := s.setFld Reg.GAL_EPOCH Fd.GAL_EPOCH_DISPATCH e
  if old = e then s else event Ev.EPOCH_ACTIVE [old, e, match imageOf s e with | some im => im.build | none => 0] s

def epochSetBody : OrdBody := fun o s =>
  if 4 ≤ o.arg 0 ∨ !nbit (loadedMap s) (o.arg 0) then ordSt St.UNSUPPORTED s else ordOk (setDispatch (o.arg 0) s)

/-- EPOCH_SET (Table 07.9). -/
def execEpochSet (o : OrdBy) (epoch : W64) (s : State) : Ans := .next (orderRow 0x402 epochSetBody o [epoch] s)

/-! GALLERY_RESET (R161, R443) -/

def galleryResetBody : OrdBody := fun o s =>
  let g := o.arg 0
  if 64 ≤ g ∨ !nbit (galPresent s) g ∨ s.mode ≠ 2 then ordSt St.UNSUPPORTED s
  else match claimOn s (.gallery g) with
    | some c => (.busy c, s)
    | none =>
      let s := addClaim (o.claim (.gallery g)) s
      if nbit (s.reg Reg.GAL_ONLINE).toNat g then (.wait, { s with gal := { s.gal with draining := s.gal.draining ++ [g] } })
      else (.wait, { s with gal := { s.gal with restoring := s.gal.restoring ++ [g] } })

/-- GALLERY_RESET (Table 07.9). -/
def execGalleryReset (o : OrdBy) (g : W64) (s : State) : Ans := .next (orderRow 0x403 galleryResetBody o [g] s)

/-! STATE_ACCESS (R197, R198): words in network order -/

/-- A word as an order reads it; a poisoned word is a free value (log entry 66). -/
def readState (s : State) (k i : Nat) : W64 := if s.gal.poison.contains i then Config.free (s.draws + k) else stateWord s i

def stateReadAll (o : OrdReq) (s : State) : OrdAns × State :=
  let b := (List.range (o.arg 1)).flatMap (fun k => natBe 8 (readState s k (o.arg 0 + k)).toNat)
  ordWrite o (o.arg 2) b [] { s with draws := s.draws + o.arg 1 }

def putStates : Nat → Nat → Bytes → State → State
  | 0, _, _, s => s
  | n + 1, i, b, s => putStates n (i + 1) (b.drop 8) (putState i (BitVec.ofNat 64 (be b 0 8)) s)

def stateAccessBody : OrdBody := fun o s =>
  let n := o.arg 1
  if 512 < n ∨ 2 ^ 18 < o.arg 0 + n ∨ 1 < o.arg 3 then ordSt St.UNSUPPORTED s
  else if o.arg 3 = 0 then stateReadAll o s
  else match ordRead o s (o.arg 2) (8 * n) with
    | some b => ordOk (putStates n (o.arg 0) b s)
    | none => ordNoRead o s (o.arg 2) (8 * n)

/-- STATE_ACCESS with g19 = 0 (Table 07.9). -/
def execStateAccessRead (o : OrdBy) (index words cell : W64) (s : State) : Ans := .next (orderRow 0x404 stateAccessBody o [index, words, cell, 0] s)
/-- STATE_ACCESS with g19 = 1. -/
def execStateAccessWrite (o : OrdBy) (index words cell : W64) (s : State) : Ans := .next (orderRow 0x404 stateAccessBody o [index, words, cell, 1] s)

/-! PCNT_READ (R191): each pair as its packet and its byte counter, 8 bytes each (log entry 67) -/

def pcntReadBody : OrdBody := fun o s =>
  let n := o.arg 1
  if 256 < n ∨ 131072 < o.arg 0 + n then ordSt St.UNSUPPORTED s
  else ordWrite o (o.arg 2) ((List.range (2 * n)).flatMap (fun k => natBe 8 (tget nat0 s.gal.pcnt (2 * o.arg 0 + k)))) [] s

/-- PCNT_READ (Table 07.9). -/
def execPcntRead (o : OrdBy) (first pairs cell : W64) (s : State) : Ans := .next (orderRow 0x405 pcntReadBody o [first, pairs, cell] s)

end Sys2Proof.Machine
end

