-- ==== Sys2Proof/Machine/AssocOrders.lean ====
section
/-! DEFINITION. The orders on association records (R42, R43, R51 to R55, R57, R65, R107, R374). -/
namespace Sys2Proof.Machine

/-- A record of the association region, which no other order holds. -/
def onRecord (f : OrdBody) : OrdBody := fun o s =>
  if 2 ^ 20 ≤ o.arg 0 then ordSt St.UNSUPPORTED s else unclaimed (.record (o.arg 0)) f o s

/-- A record is written to buffer memory, always whole (R284). -/
def storeRecord (a : Nat) (s : State) : State := fullWrite (recordAt a / 256) s

def setRecord (a : Nat) (r : ARec) (s : State) : State := storeRecord a (setArec a r s)

/-- A record whose key-map words are those of another. -/
def keepMaps (old r : ARec) : ARec := { r with ans := zipEnts (fun i e => { e with map := (old.an i).map }) r.ans }

/-- The key-map word of a record is written in part (R284). Where its sector is poisoned or its key erased the write is abandoned, the words keep what they held and the order ends ABORTED (Table 10.3; log entry 138). -/
def commitMap (a : Nat) (old : ARec) (done : State → OrdAns × State) (s : State) : OrdAns × State :=
  let (ok, s) := mayWrite (mapWordAt a / 256) 16 s
  if ok then done (touch (mapWordAt a / 256) (mapWordAt a % 256) 16 .good s) else ordSt St.ABORTED (setArec a (keepMaps old (arec s a)) s)

/-- The highest packet number of a record's keys: of its suite (R55), or of a tub (R94). -/
def pnTop (tub : Bool) (ctrl : W32) : Nat := if tub then 2 ^ 48 - 1 else if xpn ctrl then 2 ^ 64 - 1 else 2 ^ 32 - 1

/-- The bits of CTRL that an order writes: all but STATE and the reserved ones. -/
def ctrlOw (tub : Bool) : W32 := if tub then 0xFF else 0xF9FFF

/-- Does an entry of the record hold an SA or frames in flight. -/
def ARec.used (r : ARec) : Bool := r.ans.any (fun e => e.valid || e.inflight != 0)

/-! Changing the AN in use (R53, R54) -/

/-- An entry begins to retire (R54); SA_DRAINED follows at once when nothing is in flight. AN_RETIRE of a receive AN, or of a transmit AN that was never CUR_AN, goes this way too (log entry 117). -/
def startRetiring (a i : Nat) (s : State) : State :=
  let e := (arec s a).an i
  if e.valid && !e.retiring then drained a i (setAnOf a i { e with retiring := true } s) else s

/-- CUR_AN of a transmit SC changes by order: KEY_SWITCHED, the old entry retires, a stopped SC runs again. -/
def switchAn (a new : Nat) (s : State) : State :=
  let r := arec s a
  let old := r.c AC.CUR_AN
  let r' := (r.setAn new { r.an new with retiring := false }).setC AC.CUR_AN new
  let r' := if r.c AC.STATE = 2 then r'.setC AC.STATE 1 else r'
  startRetiring a old (event Ev.KEY_SWITCHED [a, new, (r.an new).nextPn] (setArec a r' s))

/-! ASSOC_WRITE (R42, R55; log entry 70) -/

/-- The parts of a record an ASSOC_WRITE brings: CTRL, USAGE_LIMIT, USAGE_WARN, WINDOW, SCI. -/
def assocParts (tub : Bool) (b : Bytes) : ARec := (if tub then tubRecFrom else scFrom) b (assoc0 0)

/-- What forbids a write: the window, a reserved OFFSET, a limit above the suite maximum. -/
def assocFits (tub : Bool) (w : ARec) : Bool :=
  decide (w.limit ≤ pnTop tub w.ctrl) && (tub || decide (w.window ≤ 2 ^ 30) && w.c AC.OFFSET != 3)

/-- DIR, SUITE or PORT (of a tributary's record: DIR or TRIB) would change. -/
def assocMoves (tub : Bool) (r w : ARec) : Bool :=
  if tub then nbits r.ctrl.toNat 0 7 != nbits w.ctrl.toNat 0 7
  else r.c AC.DIR != w.c AC.DIR || r.c AC.SUITE != w.c AC.SUITE || r.c AC.PORT != w.c AC.PORT

def putMaps (b : Bytes) (l : List AnEnt) : List AnEnt := zipEnts (fun i e => { e with map := BitVec.ofNat 32 (be b (256 + 4 * i) 4 % 2 ^ 21) }) l

/-- A record that failed its check holds no SA until it is written (Table 10.3). -/
def rewritten (r : ARec) : List AnEnt := if r.memBad then r.ans.map (fun e => { an0 with inflight := e.inflight }) else r.ans

def assocWriteAll (a : Nat) (tub : Bool) (b : Bytes) (s : State) : State :=
  let r := arec s a
  let w := assocParts tub b
  let ctrl := (r.ctrl &&& ~~~ ctrlOw tub) ||| (w.ctrl &&& ctrlOw tub)
  let moved := !tub && r.c AC.DIR == 0 && w.c AC.DIR == 0 && r.used && r.c AC.CUR_AN != w.c AC.CUR_AN
  let r' : ARec := { r with
    sci := if tub then r.sci else w.sci, limit := w.limit, window := if tub then r.window else w.window, warn := w.warn
    ctrl := if moved then cset ctrl AC.CUR_AN (r.c AC.CUR_AN) else ctrl, ans := putMaps b (rewritten r), memBad := false }
  let s := setArec a r' s
  storeRecord a (if moved then switchAn a (w.c AC.CUR_AN) s else s)

/-- What the standby takes of a mirrored record (R376): SUITE to DUP_FILTER, WINDOW, USAGE_LIMIT and USAGE_WARN. -/
def assocMirror (a : Nat) (b : Bytes) (s : State) : State :=
  let r := arec s a
  let w := assocParts false b
  setRecord a { r with ctrl := (r.ctrl &&& ~~~ 0xFE) ||| (w.ctrl &&& 0xFE), window := w.window, limit := w.limit, warn := w.warn } s

/-- A mirrored record meets the same BUSY as a written one: SUITE does not change under an SA or a frame in flight (R42). -/
def mirrorFits (s : State) (a : Nat) (b : Bytes) : Bool := !(arec s a).used || (arec s a).c AC.SUITE == (assocParts false b).c AC.SUITE

def assocWriteBody : OrdBody := onRecord fun o s =>
  let a := o.arg 0
  let tub := isTubRec s a
  match ordRead o s (o.arg 1) 272 with
  | none => ordNoRead o s (o.arg 1) 272
  | some b =>
    if o.src = 2 then (if mirrorFits s a b then ordOk (assocMirror a b s) else (.busy (noHolder (.record a)), s))
    else if !assocFits tub (assocParts tub b) then ordSt St.UNSUPPORTED s
    else if assocMoves tub (arec s a) (assocParts tub b) && (arec s a).used then (.busy (noHolder (.record a)), s)
    else commitMap a (arec s a) ordOk (assocWriteAll a tub b s)

/-- ASSOC_WRITE (Table 07.9). -/
def execAssocWrite (o : OrdBy) (assoc cell : W64) (s : State) : Ans := .next (orderRow 0x410 assocWriteBody o [assoc, cell] s)

/-! AN_INSTALL (R35, R43, R52, R57, R107) -/

/-- Another transmit record of the same line port that holds an SA. -/
def otherTx (s : State) (a port : Nat) : Bool :=
  s.assoc.any (fun e => e.1 != a && !isTubRec s e.1 && e.2.c AC.DIR == 0 && e.2.c AC.PORT == port && e.2.used)

/-- The line port of a record allows an install (R35, R52). -/
def portInstalls (s : State) (a : Nat) : Bool :=
  let r := arec s a
  let p := r.c AC.PORT
  s.flag (Reg.MSC_PORT_CFG p) Fd.MSC_PORT_CFG_MACSEC_EN &&
    (r.c AC.DIR == 1 || s.flag (Reg.MSC_PORT_CFG p) Fd.MSC_PORT_CFG_INCL_SCI || !otherTx s a p)

/-- The numbers of an install are possible (R43): the packet number of 0 it refuses is that of NEXT_PN, and a receive install may name LOWEST_PN 0 (log entry 116). -/
def installFits (tub : Bool) (r : ARec) (pn lowest key : Nat) : Bool :=
  (if r.c AC.DIR = 1 then (tub || (pn != 0 && decide (lowest ≤ pn))) else pn != 0) && decide (pn ≤ pnTop tub r.ctrl) &&
  (nbit key 20 || decide (key < 16384))

/-- The epoch count of a pointer that host software installs: the first at or above the trunk's epoch with that pointer (log entry 72). -/
def pointerEpoch (s : State) (a i : Nat) : Nat :=
  let dir := if tribNames s 0 a then 0 else 1
  let n := match (List.range 64).find? (fun t => tribOn s dir t && tribAssoc s dir t == a) with | some t => tribTrunk s dir t | none => 0
  let e := if dir = 0 then epochTx s n else epochRx s n
  e + (i + 4 - e % 4) % 4

/-- The entry an AN_INSTALL writes. -/
def installEnt (s : State) (o : OrdReq) (tub : Bool) (salt : Nat) : AnEnt :=
  let a := o.arg 0
  let r := arec s a
  let key := o.arg 2
  let x := !tub && xpn r.ctrl
  { an0 with
    slot := if nbit key 20 then 0 else key, valid := true, map := if nbit key 20 then BitVec.ofNat 32 (key % 2 ^ 21) else 0
    ssci := if x then o.arg 5 % 2 ^ 32 else 0, salt := if x || tub then salt else 0, nextPn := o.arg 3
    lowestPn := if !tub && r.c AC.DIR == 1 then o.arg 4 else 0, epoch := if tub then pointerEpoch s a (o.arg 1) else 0 }

/-- The entry holds the key and salts asked for already; packet numbers go on from where they are (R374; log entry 109). -/
def AnEnt.same (e x : AnEnt) : Bool :=
  e.valid && !e.retiring && e.slot == x.slot && e.map &&& 0x1FFFFF == x.map && e.ssci == x.ssci && e.salt == x.salt

/-- The SC runs from its first SA on; the first transmit SA is the one in use (log entry 71). -/
def installState (r : ARec) (an : Nat) : ARec :=
  if r.c AC.STATE = 0 then (if r.c AC.DIR = 0 then r.setC AC.CUR_AN an else r).setC AC.STATE 1 else r

def tubInstallState (r : ARec) : ARec := if r.c AC.TUB_STATE = 0 then r.setC AC.TUB_STATE 1 else r

/-- OK with the ROLE_EPOCH current at commit in g23 (R374). -/
def ordEpoch (s : State) : OrdAns × State := (.done St.OK [res 7 (twinF s Fd.TWN_STATUS_ROLE_EPOCH)], s)

/-- Bytes of the SALT of an install: 12 in XPN suites, 4 for a tributary, none otherwise. -/
def saltLen (s : State) (o : OrdReq) (tub : Bool) : Nat := if tub then 4 else if xpn (arec s (o.arg 0)).ctrl then 12 else 0

/-- The SALT of an install. -/
def installSalt (s : State) (o : OrdReq) (tub : Bool) : Option Nat :=
  if saltLen s o tub = 0 then some 0 else (ordRead o s (o.arg 6) (saltLen s o tub)).map beNat

def anInstallBody : OrdBody := onRecord fun o s =>
  let a := o.arg 0
  let i := o.arg 1
  let r := arec s a
  let tub := isTubRec s a
  if 4 ≤ i ∨ !(tub || portInstalls s a) ∨ !installFits tub r (o.arg 3) (o.arg 4) (o.arg 2) then ordSt St.UNSUPPORTED s
  else match installSalt s o tub with
    | none => ordNoRead o s (o.arg 6) (saltLen s o tub)
    | some salt =>
      let x := installEnt s o tub salt
      if (r.an i).same x then ordEpoch s
      else if (r.an i).inflight ≠ 0 then (.busy (noHolder (.record a)), s)
      else
        let r' := r.setAn i x
        commitMap a r ordEpoch (setRecord a (if tub then tubInstallState r' else installState r' i) s)

/-- AN_INSTALL (Table 07.9). -/
def execAnInstall (o : OrdBy) (assoc an slot pn lowest ssci saltCell : W64) (s : State) : Ans :=
  .next (orderRow 0x411 anInstallBody o [assoc, an, slot, pn, lowest, ssci, saltCell] s)

/-! AN_SELECT (R53 to R55) -/

def anSelectBody : OrdBody := onRecord fun o s =>
  let a := o.arg 0
  let r := arec s a
  let cur := nbits (o.arg 1) 0 2
  let next := nbits (o.arg 1) 2 2
  let nv := nbits (o.arg 1) 4 1
  if isTubRec s a ∨ r.c AC.DIR = 1 ∨ 32 ≤ o.arg 1 ∨ !(r.an cur).valid ∨ (nv = 1 ∧ !(r.an next).valid) then ordSt St.UNSUPPORTED s
  else
    let s := setArec a ((r.setC AC.NEXT_AN next).setC AC.NEXT_VALID nv) s
    ordOk (storeRecord a (if cur = r.c AC.CUR_AN then s else switchAn a cur s))

/-- AN_SELECT (Table 07.9). -/
def execAnSelect (o : OrdBy) (assoc sel : W64) (s : State) : Ans := .next (orderRow 0x412 anSelectBody o [assoc, sel] s)

/-! AN_RETIRE (R54, R57) -/

/-- The entry stops being chosen: a receive SA at once, a transmit SA as NEXT_AN too. -/
def retireEnt (a i : Nat) (s : State) : State :=
  let r := arec s a
  let r := if r.c AC.NEXT_VALID = 1 ∧ r.c AC.NEXT_AN = i ∧ r.c AC.DIR = 0 ∧ !isTubRec s a then r.setC AC.NEXT_VALID 0 else r
  let s := startRetiring a i (setArec a r s)
  let e := (arec s a).an i
  setAnOf a i { e with valid := e.valid && r.c AC.DIR == 0 } s

def anRetireBody : OrdBody := onRecord fun o s =>
  let a := o.arg 0
  let i := o.arg 1
  if 4 ≤ i then ordSt St.UNSUPPORTED s
  else if !((arec s a).an i).valid ∧ ((arec s a).an i).inflight = 0 then ordOk s
  else
    let s := storeRecord a (retireEnt a i s)
    if ((arec s a).an i).inflight = 0 then ordOk (setAnOf a i { (arec s a).an i with valid := false, retiring := false } s)
    else (.wait, addClaim (o.claim (.record a)) s)

/-- AN_RETIRE (Table 07.9). -/
def execAnRetire (o : OrdBy) (assoc an : W64) (s : State) : Ans := .next (orderRow 0x413 anRetireBody o [assoc, an] s)

/-! ASSOC_READ (R51; its read of the record and its key-map word may fail, Table 10.3) and ASSOC_COUNTERS (R65; log entry 69) -/

def assocReadBody : OrdBody := onRecord fun o s =>
  let a := o.arg 0
  let (ok, s) := readCells [recordAt a / 256, mapWordAt a / 256] o.ecc s
  if !ok then ordSt St.ABORTED s
  else match ordWrite o (o.arg 1) (recordBytes s a ++ (arec s a).ans.flatMap (fun e => natBe 4 e.map.toNat)) [] s with
  | (.done 0 rs, s) => (.done 0 rs, setArec a { arec s a with maxLag := 0 } s)
  | x => x

/-- ASSOC_READ (Table 07.9). -/
def execAssocRead (o : OrdBy) (assoc cell : W64) (s : State) : Ans := .next (orderRow 0x414 assocReadBody o [assoc, cell] s)

/-- The SC's InPktsNotUsingSA, the ten counters of each SA, then InPktsUnusedSA, InPktsInvalid, InPktsUnchecked and InPktsDelayed, which are always 0 (Table 02.10). -/
def counterBytes (r : ARec) : Bytes :=
  (CN.NOT_USING :: (List.range 4).flatMap (fun i => (List.range 10).map (16 * i + ·))).flatMap (fun k => natBe 8 (tget nat0 r.counters k)) ++ zeros 32

def assocCountersBody : OrdBody := fun o s =>
  if 2 ^ 20 ≤ o.arg 0 then ordSt St.UNSUPPORTED s else ordWrite o (o.arg 1) (counterBytes (arec s (o.arg 0))) [] s

/-- ASSOC_COUNTERS (Table 07.9). -/
def execAssocCounters (o : OrdBy) (assoc cell : W64) (s : State) : Ans := .next (orderRow 0x415 assocCountersBody o [assoc, cell] s)

end Sys2Proof.Machine
end

