-- ==== Sys2Proof/Machine/Jobs.lean ====
section
/-! DEFINITION. Look-aside jobs (R149, R165 to R168). -/
namespace Sys2Proof.Machine

/-- Bytes of a user page, least significant byte of each word first. -/
def pgBytes (s : State) (fn off : Nat) : Nat → Bytes
  | 0 => []
  | n + 1 => BitVec.ofNat 8 ((s.pg fn (off / 8 * 8)).toNat / 256 ^ (off % 8)) :: pgBytes s fn (off + 1) n

/-- Sixteen bytes of a user page written as two words. -/
def setPg16 (fn off : Nat) (b : Bytes) (s : State) : State :=
  (s.setPg fn off (BitVec.ofNat 64 (leNat (slice b 0 8)))).setPg fn (off + 8) (BitVec.ofNat 64 (leNat (slice b 8 8)))

def jobGoSet (s : State) (fn j : Nat) : Bool := nbit (s.pg fn (pgJob j 0)).toNat 32
def jobRunning (s : State) (fn j : Nat) : Bool := nbit (s.pg fn (pgJob j 0x40)).toNat 1

/-- JOB_GO (R165, R166): the host sets GO of a job slot. -/
def execJobGo (fn : Fin 16) (j : Fin 16) (s : State) : Ans :=
  .next (onlyIf (s.live && !s.host.flr.contains fn.val)
    (pageRequest fn.val (pgJob j.val 0) (fun s => s.setPg fn.val (pgJob j.val 0) (s.pg fn.val (pgJob j.val 0) ||| BitVec.ofNat 64 (2 ^ 32)))) s)

/-! Starting a job (R166, R168) -/

/-- The slots of a function whose job waits. -/
def jobWaits (s : State) (fn j : Nat) : Bool := jobGoSet s fn j && !jobRunning s fn j

/-- The job the part takes next: functions in rotation, a function's jobs in slot order. -/
def nextJob (s : State) : Option (Nat × Nat) :=
  ((List.range 16).map (fun i => (s.gal.jobRotate + i) % 16)).findSome? (fun fn =>
    ((List.range 16).find? (jobWaits s fn)).map (fun j => (fn, j)))

/-- The use bit a mode needs. -/
def jobUse (mode : Nat) : Nat := if mode ≤ 3 then TS.U_AEAD else if mode ≤ 5 then TS.U_XTS else TS.U_WRAP
def isXts (mode : Nat) : Bool := mode == 4 || mode == 5
/-- Bytes of a data unit. -/
def xtsUnit (s : State) (fn j : Nat) : Nat := if nbit (s.pg fn (pgJob j 0x28)).toNat 0 then 4096 else 512

/-- A mode that is not reserved and a length that suits it. -/
def jobFits (s : State) (fn j : Nat) : Bool :=
  let m := jobMode s fn j
  let len := jobLen s fn j
  decide (1 ≤ len) && decide (len ≤ 65536) &&
  (if m ≤ 3 then decide (jobAad s fn j ≤ len) && decide (jobAad s fn j ≤ 4096)
   else if m ≤ 5 then len % xtsUnit s fn j == 0 && jobSlot s fn j % 2 == 0
   else if m = 6 then len % 8 == 0
   else if m = 8 then true
   else if m ≤ 9 then len % 8 == 0 && decide (16 ≤ len)
   else false)

/-- Source and destination are the function's and handed over. -/
def jobCellsOk (s : State) (fn j : Nat) : Bool := (jobCells s fn j).all (cellReady s fn)

/-- A job that ends before it runs: nothing is written. -/
def jobRefuse (fn j status : Nat) (s : State) : State := jobEnd fn j status 0 (ownCells s fn (jobCells s fn j)) s

/-- The checks of Table 04.7 on a job's slot, or on both slots of an XTS pair. -/
def jobKey (fn j : Nat) (keyOk : Bool) (s : State) : Nat × State :=
  let m := jobMode s fn j
  let n := jobSlot s fn j
  let (st, s) := useKey n (some (jobUse m)) fn keyOk s
  if st ≠ 0 ∨ !isXts m then (st, s) else useKey (n + 1) (some (jobUse m)) fn keyOk s

/-- An online gallery whose cipher unit takes the job: which one is not stated (log entry 54). -/
def jobGallery (s : State) : Option Nat := (List.range 64).find? (galOnline s)

def jobBegin (fn j g : Nat) (s : State) : State :=
  let n := jobSlot s fn j
  let t := slotOf s n
  let xts := isXts (jobMode s fn j)
  let key := if xts then BitVec.ofNat 512 (t.key.toNat * 2 ^ 256 + (slotOf s (n + 1)).key.toNat) else t.key.setWidth 512
  let s := fetchSlot n s
  let s := if xts then fetchSlot (n + 1) s else s
  let s := s.setPg fn (pgJob j 0x40) 2
  enterUnit g (.job fn j) { s with gal := { s.gal with jobs := s.gal.jobs ++ [⟨fn, j, key, n, t.g0 TS.LEN == 1, g, false⟩] } }

/-- The slots of an XTS pair both hold 256-bit keys (R115). -/
def xtsLenOk (s : State) (n : Nat) : Bool := (slotOf s n).g0 TS.LEN == 1 && (slotOf s (n + 1)).g0 TS.LEN == 1

/-- A cell outside the function's range is a violation too (R411). -/
def jobViolation (fn j : Nat) (s : State) : State :=
  match (jobCells s fn j).find? (fun c => !ownsCell s fn c) with
  | some c => event Ev.ACCESS_VIOLATION [fn, 0x15, c] s
  | none => s

/-- A job names its key with U on the strongroom (R109, R408); without it the job is a violation (R411; log entry 129). -/
def jobMayUse (s : State) (fn : Nat) : Bool := permits s 0x00 fn 2

/-- A job starts: mode and length, cells, then the key (log entry 55 for this order). -/
def jobStart (fn j g : Nat) (keyOk : Bool) (s : State) : State :=
  let s := { s with gal := { s.gal with jobRotate := (fn + 1) % 16 } }
  if !jobFits s fn j then jobRefuse fn j 8 s
  else if !jobCellsOk s fn j then jobRefuse fn j 9 (jobViolation fn j s)
  else if !jobMayUse s fn then jobRefuse fn j 9 (event Ev.ACCESS_VIOLATION [fn, 0x00, jobSlot s fn j] s)
  else
    let (st, s) := jobKey fn j keyOk s
    if st ≠ 0 then jobRefuse fn j st s
    else if isXts (jobMode s fn j) && !xtsLenOk s (jobSlot s fn j) then jobRefuse fn j 8 s
    else jobBegin fn j g s

/-- JOB_START (R166, R168): the part takes the next waiting job. -/
def execJobStart (fn : Fin 16) (j : Fin 16) (keyOk : Bool) (s : State) : Ans :=
  match jobGallery s with
  | some g => .next (onlyIf (s.live && !squelched s && nextJob s == some (fn.val, j.val) && decide (s.gal.jobs.length < 256)) (jobStart fn.val j.val g keyOk) s)
  | none => .next s

/-! Running a job (Table 05.12) -/

/-- What a job gives: its status, its output, and for GCM and GMAC its tag. -/
structure JobOut where
  status : Nat
  data : Bytes
  tag : Option Bytes
  deriving DecidableEq, Repr

/-- Data units of XTS; the tweak rises by one per unit. -/
def xtsUnits (f : Bytes → Bytes → Bytes) (unit : Nat) : Nat → Nat → Bytes → Bytes
  | 0, _, _ => []
  | k + 1, tweak, b => f (natLe 16 tweak) (b.take unit) ++ xtsUnits f unit k (tweak + 1) (b.drop unit)

/-- GCM and GMAC modes: 0 to 3. -/
def jobGcm (mode : Nat) (key iv aad text expect : Bytes) : JobOut :=
  if mode = 0 then let c := gcmCrypt key iv text; ⟨0, c, some (gcmTag key iv aad c)⟩
  else if mode = 1 then (if gcmTag key iv aad text = expect then ⟨0, gcmCrypt key iv text, none⟩ else ⟨1, [], none⟩)
  else if mode = 2 then ⟨0, [], some (gcmTag key iv (aad ++ text) [])⟩
  else ⟨if gcmTag key iv (aad ++ text) [] = expect then 0 else 1, [], none⟩

def jobUnwrapped (r : Option Bytes) : JobOut := match r with | some b => ⟨0, b, none⟩ | none => ⟨1, [], none⟩

/-- The output of a running job. -/
def jobRun (s : State) (b : Job) : JobOut :=
  let m := jobMode s b.fn b.j
  let len := jobLen s b.fn b.j
  let input := cellBytes s (jobSrc s b.fn b.j) len
  let k := natBe 64 b.key.toNat
  let key := (k.drop 32).take (if b.len256 then 32 else 16)
  let unit := xtsUnit s b.fn b.j
  let tweak := leNat (pgBytes s b.fn (pgJob b.j 0x18) 16)
  if m ≤ 3 then jobGcm m key (pgBytes s b.fn (pgJob b.j 0x18) 12) (input.take (jobAad s b.fn b.j)) (input.drop (jobAad s b.fn b.j)) (pgBytes s b.fn (pgJob b.j 0x30) 16)
  else if m = 4 then ⟨0, xtsUnits (xtsEnc (k.take 32) (k.drop 32)) unit (len / unit) tweak input, none⟩
  else if m = 5 then ⟨0, xtsUnits (xtsDec (k.take 32) (k.drop 32)) unit (len / unit) tweak input, none⟩
  else if m = 6 then ⟨0, keyWrap key input, none⟩
  else if m = 7 then jobUnwrapped (keyUnwrap key input)
  else if m = 8 then ⟨0, keyWrapPad key input, none⟩
  else jobUnwrapped (keyUnwrapPad key input)

/-- A job ends: its output is written, or its output area is zeroed (R167). A failed read of its source ends it with CELL_FAULT. -/
def jobFinish (b : Job) (ecc : Ecc) (s : State) : State :=
  let cells := jobCells s b.fn b.j
  let s := unfetchJob b (leaveUnit b.gal (.job b.fn b.j) none { s with gal := { s.gal with jobs := s.gal.jobs.filter (fun x => !(x.fn == b.fn && x.j == b.j)) } })
  if b.silent then jobSilent b s
  else
    let (ok, s) := readCells (cellsOf (landingAt (jobSrc s b.fn b.j)) (jobLen s b.fn b.j)) ecc s
    if !ok then jobEnd b.fn b.j 9 0 cells (zeroOut b.fn b.j s)
    else
      let r := jobRun s b
      if r.status ≠ 0 then jobEnd b.fn b.j r.status 0 cells (zeroOut b.fn b.j s)
      else
        let (ok, s) := cellWrite (jobDst s b.fn b.j) r.data s
        let s := match r.tag with | some t => setPg16 b.fn (pgJob b.j 0x30) t s | none => s
        jobEnd b.fn b.j (if ok then 0 else 9) (if ok then r.data.length else 0) cells s

/-- JOB_DONE (R166, R167): a running job has been processed. -/
def execJobDone (fn : Fin 16) (j : Fin 16) (ecc : Ecc) (s : State) : Ans :=
  match s.gal.jobs.find? (fun b => b.fn == fn.val && b.j == j.val) with
  | some b => match unitKey s b.gal (.job b.fn b.j) with
    | some key => .next (onlyIf s.live (jobFinish { b with key := key } ecc) s)
    | none => .next s
  | none => .next s

end Sys2Proof.Machine
end

