-- ==== Sys2Proof/Machine/GateOrders.lean ====
section
/-! DEFINITION. The command gate after check 6: verification, release, time limit, and the gate orders (R326 to R338, R342); the reset of an elimination stream (R380). -/
namespace Sys2Proof.Machine

/-! Entries -/

/-- The frame of an entry as it leaves the gate. -/
def GEntry.bound (g : GEntry) (data : Bytes) : Bound :=
  ⟨{ g.frame with data := data, hbm := false, cells := [] }, g.queue, b2n g.frame.yellow, some g.rule, none, true⟩

/-- An entry ends in a drop. -/
def entryDrop (k reason : Nat) (g : GEntry) (s : State) : State :=
  gateDrop (g.bound g.frame.data) reason (some g.flow) g.keyId g.counter (setGentry k none s)

/-- Entries in the order of their sequence numbers. -/
def insertEntry (e : Nat × GEntry) : List (Nat × GEntry) → List (Nat × GEntry)
  | [] => [e]
  | x :: t => if e.2.seqNo ≤ x.2.seqNo then e :: x :: t else x :: insertEntry e t

def inOrder (l : List (Nat × GEntry)) : List (Nat × GEntry) := l.foldr insertEntry []

/-- Every entry of a property ends in a drop, in the order in which the screen delivered them. -/
def dropEntries (p : GEntry → Bool) (reason : Nat) (s : State) : State :=
  let l := s.gate.entries.filterMap (fun e => match e.2 with | some g => if p g then some (e.1, g) else none | none => none)
  (inOrder l).foldl (fun s e => entryDrop e.1 reason e.2 s) s

/-! GATE_VERIFY_DONE (check 7) -/

def verifies (g : GEntry) (key : Bytes) : Bool := if g.alg = 1 then Config.ed25519Verify key g.msg g.sig else Config.ecdsaVerify key g.msg g.sig

def verifyEntry (k : Nat) (g : GEntry) (s : State) : State :=
  let s := bump Reg.GATE_CNT_VERIFY 1 s
  match gkey s g.keyId with
  | some key => if verifies g key.key then setGentry k (some { g with verified := some true }) s else entryDrop k 0x13 g s
  | none => entryDrop k 0x13 g s

/-- GATE_VERIFY_DONE (R331, R334): the engine, which runs, has checked an entry's signature. -/
def execGateVerifyDone (entry : Fin 16384) (s : State) : Ans :=
  match gentry s entry.val with
  | some g => .next (onlyIf (trafficOn s && s.fore.pkeOk && g.verified.isNone) (verifyEntry entry.val g) s)
  | none => .next s

/-! GATE_RELEASE (R333, R335, R336, check 8) -/

/-- Every earlier frame of the entry's flow has left the gate. -/
def firstOfFlow (s : State) (g : GEntry) : Bool :=
  s.gate.entries.all (fun e => match e.2 with | some x => x.flow != g.flow || decide (g.seqNo ≤ x.seqNo) | none => true)

def floorAt (s : State) (id : Nat) : Nat := tget nat0 s.attic.floors id

/-- The release needs a floor write. -/
def needsFloor (s : State) (g : GEntry) : Bool := decide (floorAt s g.keyId < g.counter + 2 ^ (g.reserve - 1))

/-- The reservation is written, where one is needed; false where the attic refuses it. -/
def reserveFloor (g : GEntry) (s : State) : Bool × State :=
  if needsFloor s g then
    let (ok, s) := atticWrite 3 blkFloors s
    if ok then (true, { s with attic := { s.attic with floors := tput nat0 s.attic.floors g.keyId (min (g.counter + 2 ^ g.reserve) (2 ^ 64 - 1)) } })
    else (false, s)
  else (true, s)

/-- Seals released that are still within their key's window. -/
def withinWindow (s : State) (x : Nat × Nat × Bytes) : Bool :=
  match gkey s x.1 with
  | some k => decide (k.n ≤ x.2.1 + 63)
  | none => false

def noteReleased (g : GEntry) (key : GKey) (s : State) : State :=
  let s := { s with gate := { s.gate with keys := tput none0 s.gate.keys g.keyId (some (windowSet key g.counter)) } }
  { s with gate := { s.gate with released := (s.gate.released ++ [(g.keyId, g.counter, g.sig)]).filter (withinWindow s) } }

/-- The frame without its seal, where the flow strips it (R330). -/
def stripSeal (s : State) (g : GEntry) : Bytes :=
  if flowF s g.flow Fd.GATE_FLOW_CFG_STRIP = 1 then g.frame.data.take (g.frame.data.length - (if g.alg = 1 then 80 else 112)) else g.frame.data

def releaseEntry (k : Nat) (g : GEntry) (wrOk : Bool) (s : State) : State :=
  match gkey s g.keyId with
  | none => entryDrop k 0x13 g s
  | some key =>
    if !acceptable key g.counter then entryDrop k 0x14 g s
    else
      let (ok, s) := reserveFloor g s
      if !ok then entryDrop k 0x14 g s
      else
        let s := bump (Reg.GATE_FCNT_ACCEPT g.flow) 1 (bump Reg.GATE_CNT_ACCEPT 1 (noteReleased g key (setGentry k none s)))
        afterGate (g.bound (stripSeal s g)) wrOk s

/-- The frame is read from its entry's area where it does not lie in the staging SRAM; a failed read drops it (Table 10.3). -/
def readEntry (g : GEntry) (ecc : Ecc) (s : State) : Bool × State :=
  if g.frame.hbm then readCells g.frame.cells ecc s else (true, s)

/-- A release: in the caution state one that needs a floor write waits with the attic writes (R335). -/
def tryRelease (k : Nat) (g : GEntry) (ecc : Ecc) (wrOk : Bool) (s : State) : State :=
  if inCaution s && needsFloor s g then
    if s.guard.held.any (fun h => match h with | .gateFloor _ q _ _ => q == g.seqNo | _ => false) then s
    else { s with guard := { s.guard with held := s.guard.held ++ [.gateFloor k g.seqNo ecc wrOk] } }
  else
    let (ok, s) := readEntry g ecc s
    if ok then releaseEntry k g wrOk s else (g.bound g.frame.data).drop 0x0F (setGentry k none s)

/-- GATE_RELEASE (R336): a verified entry whose flow's earlier frames have left is released. -/
def execGateRelease (entry : Fin 16384) (ecc : Ecc) (wrOk : Bool) (s : State) : Ans :=
  match gentry s entry.val with
  | some g => .next (onlyIf (trafficOn s && g.verified == some true && firstOfFlow s g) (tryRelease entry.val g ecc wrOk) s)
  | none => .next s

/-- GATE_MAX_WAIT (R337): an entry held for MAX_WAIT is dropped. -/
def execGateMaxWait (entry : Fin 16384) (s : State) : Ans :=
  match gentry s entry.val with
  | some g => .next (onlyIf (trafficOn s && decide (g.due ≤ s.time.up)) (fun s => bump Reg.GATE_CNT_TIMEOUT 1 (entryDrop entry.val 0x15 g s)) s)
  | none => .next s

/-! GATE_KEY_ADD and GATE_KEY_REVOKE (R326, R327, R335) -/

def keyCount (s : State) : Nat := s.gate.keys.length

def addGateKey (id alg sets : Nat) (key : Bytes) (s : State) : State :=
  { s with gate := { s.gate with keys := tput none0 s.gate.keys id (some ⟨alg, sets, key, floorAt s id, 2 ^ 64 - 1⟩) } }

def gateKeyAddBody : OrdBody := fun o s =>
  let id := o.arg 0
  let alg := nbits (o.arg 2) 0 2
  let sets := nbits (o.arg 2) 32 32
  if 2 ^ 32 ≤ id ∨ (alg ≠ 1 ∧ alg ≠ 2) ∨ sets = 0 ∨ (gkey s id).isSome then ordSt St.UNSUPPORTED s
  else if 4096 ≤ keyCount s then ordSt St.FULL s
  else match ordRead o s (o.arg 1) (if alg = 1 then 32 else 97) with
    | none => ordNoRead o s (o.arg 1) (if alg = 1 then 32 else 97)
    | some key =>
      if Config.keyDecodes alg key then ordOk (event Ev.GATE_KEY_ADDED [0xFFFF, id] (addGateKey id alg sets key s))
      else ordSt St.UNSUPPORTED s

/-- GATE_KEY_ADD (Table 07.9). -/
def execGateKeyAdd (o : OrdBy) (keyId cell alg : W64) (s : State) : Ans := .next (orderRow 0x701 gateKeyAddBody o [keyId, cell, alg] s)

def revokeGateKey (id : Nat) (s : State) : State :=
  let s := { s with gate := { s.gate with keys := tdel s.gate.keys id, released := s.gate.released.filter (fun r => r.1 != id) } }
  event Ev.GATE_KEY_REVOKED [0xFFFF, id] (dropEntries (fun g => g.keyId == id) 0x13 s)

def gateKeyRevokeBody : OrdBody := fun o s =>
  if (gkey s (o.arg 0)).isNone then ordSt St.NOT_FOUND s else ordOk (revokeGateKey (o.arg 0) s)

/-- GATE_KEY_REVOKE (Table 07.9). -/
def execGateKeyRevoke (o : OrdBy) (keyId : W64) (s : State) : Ans := .next (orderRow 0x702 gateKeyRevokeBody o [keyId] s)

/-! GATE_FLOW (R328, R332, R342) -/

/-- A flow's two registers. -/
def writeFlow (f rule sets rate burst strip : Nat) (s : State) : State :=
  let s := s.setReg (Reg.GATE_FLOW_CFG f) (BitVec.ofNat 64 (rule + 2 ^ 13 + strip * 2 ^ 14 + burst * 2 ^ 16 + sets * 2 ^ 32))
  s.setReg (Reg.GATE_FLOW_RATE f) (BitVec.ofNat 64 rate)

/-- An existing flow keeps its tokens, clipped; a new one starts full. -/
def setFlow (f rule sets rate burst strip : Nat) (fresh : Bool) (s : State) : State :=
  let k := if fresh then burst * 1000000000 else min (gateTokens s f) (burst * 1000000000)
  setGateTokens f k (writeFlow f rule sets rate burst strip s)

def dropFlow (f : Nat) (s : State) : State :=
  dropEntries (fun g => g.flow == f) 0x12 ((s.setReg (Reg.GATE_FLOW_CFG f) 0).setReg (Reg.GATE_FLOW_RATE f) 0)

def freeFlow (s : State) : Option Nat := (List.range 1024).find? (fun f => flowF s f Fd.GATE_FLOW_CFG_VALID == 0)

def gateFlowBody : OrdBody := fun o s =>
  let rule := nbits (o.arg 0) 0 13
  let remove := nbit (o.arg 0) 15
  let rate := nbits (o.arg 2) 0 20
  let burst := nbits (o.arg 2) 20 16
  let strip := nbits (o.arg 2) 36 1
  if o.arg 0 ≠ rule + b2n remove * 2 ^ 15 then ordSt St.UNSUPPORTED s
  else if remove then
    match flowOf s (some rule) with
    | some f => (.done St.OK [res 0 f], dropFlow f s)
    | none => ordSt St.NOT_FOUND s
  else if o.arg 1 = 0 ∨ 2 ^ 32 ≤ o.arg 1 ∨ rate = 0 ∨ 250000 < rate ∨ burst = 0 ∨ 2 ^ 37 ≤ o.arg 2 then ordSt St.UNSUPPORTED s
  else match flowOf s (some rule) with
    | some f => (.done St.OK [res 0 f], setFlow f rule (o.arg 1) rate burst strip false s)
    | none => match freeFlow s with
      | some f => (.done St.OK [res 0 f], setFlow f rule (o.arg 1) rate burst strip true s)
      | none => ordSt St.FULL s

/-- GATE_FLOW (Table 07.9). -/
def execGateFlow (o : OrdBy) (rule sets rate : W64) (s : State) : Ans := .next (orderRow 0x703 gateFlowBody o [rule, sets, rate] s)

/-! ELIM_RESET (R380) -/

/-- ELIM_RESET: a stream of which no frame has been accepted for RESET_MS starts afresh. -/
def execElimReset (stream : Fin 1024) (s : State) : Ans :=
  match elimOf s stream.val with
  | some e => .next (onlyIf (s.live && decide (e.at_ + 1000000 * elimF s stream.val Fd.TWN_ELIM_CFG_RESET_MS ≤ s.time.up)) (setElim stream.val none) s)
  | none => .next s

end Sys2Proof.Machine
end

