-- ==== Sys2Proof/Machine/LfrOrders.lean ====
section
/-! DEFINITION. The orders on the line framer (R83 to R85, R96, R98, R101). -/
namespace Sys2Proof.Machine

/-! TRIB_REMAP (R83, R85) -/

/-- The slot map a tributary will have: that of its last remap order, else the one in force. -/
def mapOf (s : State) (dir t : Nat) : Nat :=
  match (s.lfr.remaps.filter (fun m => m.1 == dir && m.2.1 == t)).getLast? with
  | some m => m.2.2.1 + m.2.2.2 * 2 ^ 64
  | none => (s.reg (Reg.LFR_TRIB_SLOTS_LO dir t)).toNat + (s.reg (Reg.LFR_TRIB_SLOTS_HI dir t)).toNat * 2 ^ 64

def trunkWidth (s : State) (dir n : Nat) : Nat := if dir = 0 then txWidth s n else rxWidth s n

/-- Two tributaries lie on a common trunk. -/
def shareTrunk (s : State) (dir t u : Nat) : Bool :=
  let trunks := fun (t : Nat) => tribTrunk s dir t :: (if tribMerge s dir t then [tribMate s dir t] else [])
  (trunks t).any (fun n => (trunks u).contains n)

/-- No slot of a map belongs to another enabled tributary of the direction on the same trunk. -/
def slotsFree (s : State) (dir t map : Nat) : Bool :=
  (List.range 64).all (fun u => u == t || !tribOn s dir u || !shareTrunk s dir t u || mapOf s dir u &&& map == 0)

/-- Slots of a map. -/
def slotCount (map : Nat) : Nat := ((List.range 128).filter (nbit map)).length

/-- MERGE_WAIT times the tub rate of a receive tributary stays within 16,384 tubs (R104): the rate in kbit/s, a tub's block P + 32 bytes. -/
def mergeFits (s : State) (dir t map : Nat) : Bool :=
  let rate := slotCount map * ((if rxCfg s (tribTrunk s 1 t) Fd.LFR_TRUNK_RXCFG_RATE = 1 then 200781250 else 100390625) * 1022 / 8192)
  dir != 1 || !tribMerge s 1 t || decide (tribF s 1 t Fd.LFR_TRIB_CFG_MERGE_WAIT * rate ≤ 16384 * 8000 * (tubSize s 1 t + 32))

/-- A map the tributary may take: 1 to 8N slots of its trunk, none another's. -/
def remapFits (s : State) (dir t map : Nat) : Bool :=
  map != 0 && decide (map < 2 ^ (8 * trunkWidth s dir (tribTrunk s dir t))) && mergeFits s dir t map && (!tribOn s dir t || slotsFree s dir t map)

def trunkRes (dir n : Nat) : Res := if dir = 0 then .txTrunk n else .rxTrunk n

/-- g16: tributary in [5:0], direction in [6], 1 = receive (log entry 80). -/
def tribRemapBody : OrdBody := fun o s =>
  let t := nbits (o.arg 0) 0 6
  let dir := nbits (o.arg 0) 6 1
  if 128 ≤ o.arg 0 ∨ !remapFits s dir t (o.arg 1 + o.arg 2 * 2 ^ 64) then ordSt St.UNSUPPORTED s
  else unclaimed (trunkRes dir (tribTrunk s dir t)) (fun o s =>
    ordOk { s with lfr := { s.lfr with remaps := s.lfr.remaps ++ [(dir, t, o.arg 1, o.arg 2)] } }) o s

/-- TRIB_REMAP (Table 07.9). -/
def execTribRemap (o : OrdBy) (trib maskLo maskHi : W64) (s : State) : Ans := .next (orderRow 0x201 tribRemapBody o [trib, maskLo, maskHi] s)

/-! EPOCH_CHANGE (R96, R98) -/

/-- The multiframe at whose start an announcement that begins now would switch: 16 frames must go out before it. -/
def switchMf (x : TxTrunk) : Nat := if 16 ≤ 256 - x.mfc - b2n (!x.sent.isEmpty) then x.mf + 1 else x.mf + 2

/-- The switch would come before the second multiframe start after the last one. -/
def tooSoon (s : State) (n : Nat) : Bool :=
  (groupOf s 0 n).any (fun m => match (txTrunkOf s m).lastSwitch with | some k => decide (switchMf (txTrunkOf s m) < k + 2) | none => false)

def epochChangeBody : OrdBody := fun o s =>
  let n := o.arg 0
  if 16 ≤ n ∨ !txOn s n then ordSt St.UNSUPPORTED s
  else match (groupOf s 0 n).findSome? (fun m => claimOn s (.txTrunk m)) with
    | some c => (.busy c, s)
    | none =>
      let c := o.claim (.txTrunk n)
      if tooSoon s n then (.defer c, s) else (.wait, announce c.code c.fn c.t c.src c.seq n s)

/-- EPOCH_CHANGE (Table 07.9). -/
def execEpochChange (o : OrdBy) (trunk : W64) (s : State) : Ans := .next (orderRow 0x202 epochChangeBody o [trunk] s)

/-! EPOCH_RX_SET (R101) -/

def setRxEpoch (n e : Nat) (s : State) : State := keepRxEpoch n e (setEpochRx n e (setRxTrunk n { rxTrunkOf s n with reject := false } s))

def epochRxSetBody : OrdBody := fun o s =>
  if 16 ≤ o.arg 0 ∨ 2 ^ 32 ≤ o.arg 1 then ordSt St.UNSUPPORTED s
  else unclaimed (.rxTrunk (o.arg 0)) (fun o s => ordOk (setRxEpoch (o.arg 0) (o.arg 1) s)) o s

/-- EPOCH_RX_SET (Table 07.9). -/
def execEpochRxSet (o : OrdBy) (trunk epoch : W64) (s : State) : Ans := .next (orderRow 0x203 epochRxSetBody o [trunk, epoch] s)

end Sys2Proof.Machine
end

