-- ==== Sys2Proof/Machine/KeyOrders.lean ====
section
/-! DEFINITION. The orders of the key vault: traffic slots, deep slots, cellar and standing blobs, and the MKA key orders (R109 to R137, R483, R484, R64, R374). -/
namespace Sys2Proof.Machine

/-! Slots an order names (R483, R112) -/

def namesDeep (g : Nat) : Bool := nbit g 15
/-- The number of the slot an argument names. -/
def slotArg (g : Nat) : Nat := g % 0x4000 + (if nbit g 14 then 0x4000 else 0)
/-- An argument that names a slot: a traffic slot, or with bit 15 a deep slot other than 7 (R112). -/
def namesSlot (g : Nat) : Bool := decide (g < 0x10000) && (if namesDeep g then decide (slotArg g < 64) && slotArg g != 7 else decide (g < 16384))

/-- The caller of a key's checks: a function, or the part's firmware. -/
def OrdReq.caller (o : OrdReq) : Nat := if o.src = 0 then o.fn else 16

/-- The target of a key: a pinned slot, or a slot the part allocates for 0x4000; else the status it is refused with. -/
def targetSlot (s : State) (g : Nat) : Except Nat Nat :=
  if g = 0x4000 then (match allocSlot s with | some n => .ok n | none => .error St.FULL)
  else if g < pinTop s then .ok g else .error St.UNSUPPORTED

/-- A key may be written into a slot that nobody claims and no frame, tub or job uses (R119; log entry 76). -/
def intoSlot (n : Nat) (f : OrdBody) : OrdBody := fun o s =>
  match claimOn s (.slot n) with
  | some c => (.busy c, s)
  | none => if inUse s n then (.busy (noHolder (.slot n)), s) else f o s

/-- The slot holds this key with these attributes and this origin already (R374). -/
def slotSame (s : State) (n : Nat) (key : Bytes) (attr expiry : Nat) (src : Option KeyFrom) : Bool :=
  let t := slotOf s n
  t.valid && t.key == keyOf key && nbits t.w0.toNat 6 16 == nbits attr 6 16 && t.g2 TS.EXPIRY == expiry % 2 ^ 32 &&
  (match src with
   | none => t.g1 TS.HAS_PARENT == 0
   | some p => t.g1 TS.HAS_PARENT == 1 && (t.g1 TS.PARENT_DEEP == 1) == p.deep && t.g1 TS.PARENT_SLOT == p.slot && t.g1 TS.PARENT_GEN == p.gen)

/-- Writes a key by order unless its slot holds it already; OK with the results and ROLE_EPOCH in g23. -/
def putKey (n : Nat) (key : Bytes) (attr expiry : Nat) (src : Option KeyFrom) (rs : List (Nat × W64)) (s : State) : OrdAns × State :=
  let s' := if slotSame s n key attr expiry src then s else writeKey n key attr expiry src none (decide (pinTop s ≤ n)) s
  (.done St.OK (rs ++ [res 7 (twinF s Fd.TWN_STATUS_ROLE_EPOCH)]), s')

def keyLen (attr : Nat) : Nat := if nbits attr 6 2 = 1 then 32 else 16

/-! KEY_INSTALL (R121) -/

def keyInstallBody : OrdBody := fun o s =>
  let n := o.arg 0
  if pinTop s ≤ n then ordSt St.UNSUPPORTED s
  else match ordRead o s (o.arg 1) 80 with
    | none => ordNoRead o s (o.arg 1) 80
    | some b =>
      let s := fetchDeep (be b 8 2 % 64) s
      let x := openBlob .install b s
      if x.res = 1 then ordSt St.KEK_INVALID s
      else if x.res = 2 then ordSt St.BLOB_BAD s
      else if !standOk x.attr then ordSt St.UNSUPPORTED s
      else intoSlot n (fun _ s => putKey n x.key x.attr x.expiry (some ⟨true, x.parent, x.pgen, b2n (dBit s x.parent 8)⟩) [] s) o s

/-- KEY_INSTALL (Table 07.9). -/
def execKeyInstall (o : OrdBy) (slot cell : W64) (s : State) : Ans := .next (orderRow 0x501 keyInstallBody o [slot, cell] s)

/-! KEY_GENERATE -/

def keyGenerateBody : OrdBody := fun o s =>
  match targetSlot s (o.arg 0) with
  | .error st => ordSt st s
  | .ok n =>
    if !attrOk (o.arg 1) then ordSt St.UNSUPPORTED s
    else intoSlot n (fun o s => putKey n ((natBe 64 s.draw.toNat).take (keyLen (o.arg 1))) (o.arg 1) 0 none [res 0 n] s.drew) o s

/-- KEY_GENERATE (Table 07.9). -/
def execKeyGenerate (o : OrdBy) (slot attr : W64) (s : State) : Ans := .next (orderRow 0x502 keyGenerateBody o [slot, attr] s)

/-! KEY_DERIVE (R110, R111, R127, R128) -/

/-- A key that an order uses as a parent: its status, its bytes and where its child comes from. -/
structure Parent where
  st : Nat
  key : Bytes
  src : KeyFrom

def noParent (st : Nat) : Parent := ⟨st, [], ⟨false, 0, 0, 0⟩⟩

/-- A deep slot as a derivation parent, its check word verified (R116): an invalid one is KEK_INVALID, or SLOT_BAD after a failed check. -/
def deepParent (s : State) (d : Nat) : Parent × State :=
  let s := fetchDeep d s
  let x := deepOf s d
  if !dBit s d 0 then (noParent (if dBit s d 1 then St.SLOT_BAD else St.KEK_INVALID), s)
  else if !dBit s d DS.U_DERIVE then (noParent St.DENIED, s)
  else (⟨0, deep256 s d, ⟨true, d, x.g DS.GEN, x.g DS.CASCADE⟩⟩, s)

/-- A traffic slot as a parent: the checks of Table 04.7, and no orphan (R128). -/
def slotParent (n use : Nat) (o : OrdReq) (s : State) : Parent × State :=
  let (st, s) := useKey n (some use) o.caller (slotWhole s n) s
  let t := slotOf s n
  if st ≠ 0 then (noParent st, s)
  else if t.g0 TS.ORPHAN = 1 then (noParent St.KEK_INVALID, s)
  else (⟨0, t.bytes, ⟨false, n, t.g1 TS.GEN, t.g0 TS.CASCADE⟩⟩, s)

/-- The parent of KEY_DERIVE: of the deep slots only the owner root and the owner keys have that use (Table 04.3, R112). -/
def keyParent (g : Nat) (o : OrdReq) (s : State) : Parent × State :=
  if !namesDeep g then slotParent g TS.U_DERIVE o s
  else if 1 ≤ slotArg g ∧ slotArg g ≤ 7 then (noParent St.UNSUPPORTED, s)
  else deepParent s (slotArg g)

def keyDeriveBody : OrdBody := fun o s =>
  let n := o.arg 3
  if !namesSlot (o.arg 0) ∨ n = 0 ∨ 32 < n ∨ !attrOk (o.arg 4) then ordSt St.UNSUPPORTED s
  else match targetSlot s (o.arg 1) with
    | .error st => ordSt st s
    | .ok t =>
      let (p, s) := keyParent (o.arg 0) o s
      if p.st ≠ 0 then ordSt p.st s
      else match ordRead o s (o.arg 2) n with
      | none => ordNoRead o s (o.arg 2) n
      | some ctx =>
        intoSlot t (fun o s =>
          putKey t (kdf p.key (ascii "BD3208 DERIVE") ctx (8 * keyLen (o.arg 4))) (o.arg 4) 0 (some p.src) [res 1 t] s) o s

/-- KEY_DERIVE (Table 07.9). -/
def execKeyDerive (o : OrdBy) (parent target ctxCell ctxLen attr : W64) (s : State) : Ans :=
  .next (orderRow 0x503 keyDeriveBody o [parent, target, ctxCell, ctxLen, attr] s)

/-! KEY_INVALIDATE (R127, R483) -/

/-- KEY_INVALIDATE of a deep slot; one without a key completes OK and keeps its GEN (log entry 121). -/
def invalidateDeepOrder (d : Nat) : OrdBody := unclaimed (.deep d) fun _ s =>
  if d ≤ 4 then ordSt St.DENIED s else ordOk (if dBit s d 0 then invalidateDeep d false s else s)

def invalidateOrder (n : Nat) : OrdBody := unclaimed (.slot n) fun _ s =>
  let t := slotOf s n
  if t.valid then ordOk (invalidate n 1 s)
  else if pinTop s ≤ n ∧ t.alloc ∧ t.uses = 0 then ordOk (setSlot n { t with alloc := false } s)
  else ordOk s

def keyInvalidateBody : OrdBody := fun o s =>
  if !namesSlot (o.arg 0) then ordSt St.UNSUPPORTED s
  else if namesDeep (o.arg 0) then invalidateDeepOrder (slotArg (o.arg 0)) o s
  else invalidateOrder (o.arg 0) o s

/-- KEY_INVALIDATE (Table 07.9). -/
def execKeyInvalidate (o : OrdBy) (slot : W64) (s : State) : Ans := .next (orderRow 0x504 keyInvalidateBody o [slot] s)

/-! KEY_ATTR (R113, R128, R130, R483) -/

/-- KEY_ATTR of a deep slot; one without a key gives NOT_FOUND (log entry 123). -/
def deepAttrOrder (d : Nat) : OrdBody := unclaimed (.deep d) fun o s =>
  if d ≤ 4 then ordSt St.DENIED s
  else if o.arg 1 ≠ 0 then ordSt St.UNSUPPORTED s
  else if !dBit s d 0 then ordSt St.NOT_FOUND s
  else
    let x := deepOf s d
    ordOk (sealDeep d { x with w := fset (fset x.w DS.CASCADE (nbits (o.arg 2) 0 1)) DS.STANDING_OK (nbits (o.arg 2) 1 1) } s)

def slotAttrOrder (n : Nat) : OrdBody := unclaimed (.slot n) fun o s =>
  let t := slotOf s n
  let stand := nbits (o.arg 2) 1 1
  if !t.valid then ordSt St.NOT_FOUND s
  else if 2 ^ 32 ≤ o.arg 1 ∨ (stand = 1 ∧ !([1, 3, 4, 6].contains (t.g0 TS.KCLASS))) then ordSt St.UNSUPPORTED s
  else if stand = 1 ∧ t.g0 TS.ORPHAN = 1 then ordSt St.KEK_INVALID s
  else
    let u := ((t.p0 TS.CASCADE (nbits (o.arg 2) 0 1)).p0 TS.STANDING_OK stand).p2 TS.EXPIRY (o.arg 1)
    let s := sealSlot n u s
    ordOk (if reached s (o.arg 1) then expire n s else s)

def keyAttrBody : OrdBody := fun o s =>
  if !namesSlot (o.arg 0) ∨ 4 ≤ o.arg 2 then ordSt St.UNSUPPORTED s
  else if namesDeep (o.arg 0) then deepAttrOrder (slotArg (o.arg 0)) o s
  else slotAttrOrder (o.arg 0) o s

/-- KEY_ATTR (Table 07.9). -/
def execKeyAttr (o : OrdBy) (slot expiry flags : W64) (s : State) : Ans := .next (orderRow 0x505 keyAttrBody o [slot, expiry, flags] s)

/-! KEM_PUBLIC and DEEP_IMPORT (R112, R113, R121, R374) -/

def kemPublicBody : OrdBody := fun o s =>
  let s := fetchDeep 2 s
  if !dBit s 2 0 then ordSt St.NO_KEY s
  else ordWrite o (o.arg 0) (slice (Config.kemPublic (deepKey s 2)) 0 1568) [] s

/-- KEM_PUBLIC (Table 07.9). -/
def execKemPublic (o : OrdBy) (cell : W64) (s : State) : Ans := .next (orderRow 0x506 kemPublicBody o [cell] s)

/-- A use that slots 5 and 6 do not have: they are derivation parents of 256 bits (Table 04.3, R364, R382). -/
def deepUseOk (d attr : Nat) : Bool :=
  deepAttrOk attr && (!(d == 5 || d == 6) || (!nbit attr 4 && !nbit attr DS.U_WRAP && !nbit attr DS.U_AEAD))

/-- Writes an imported key: nothing when it is there already, COUNTER_END and GEN_END when the slot's generation has run out or the replacement would bring it to its end (log entry 122). -/
def importKey (d : Nat) (key : Bytes) (attr : Nat) (s : State) : OrdAns × State :=
  let x := deepOf s d
  let key := key.take (if nbit attr 4 then 64 else 32)
  if !deepUseOk d attr then ordSt St.UNSUPPORTED s
  else if dBit s d 0 && deepKey s d == deepKeyOf key && nbits x.w.toNat 4 11 == nbits attr 4 11 then ordEpoch s
  else if 0xFFFF ≤ x.g DS.GEN + b2n (dBit s d 0) then ordSt St.COUNTER_END (event Ev.GEN_END [0x8000 + d] s)
  else
    let s := if dBit s d 0 then invalidateDeep d false s else s
    ordEpoch (writeDeep d key attr 3 s)

/-- A key encapsulated to the part: the ciphertext, then the key wrapped with padding under the shared secret (log entry 77). -/
def importKem (d : Nat) (o : OrdReq) (s : State) : OrdAns × State :=
  let attr := o.arg 2
  let n := if nbit attr 4 then 72 else 40
  let s := fetchDeep 2 s
  if !dBit s 2 0 then ordSt St.NO_KEY s
  else match ordRead o s (o.arg 1) (1568 + n) with
    | none => ordNoRead o s (o.arg 1) (1568 + n)
    | some b => match keyUnwrapPad (natBe 32 (Config.kemDecap (deepKey s 2) (b.take 1568)).toNat) (slice b 1568 n) with
      | none => ordSt St.AUTH_FAIL s
      | some k => if k.length = n - 8 then importKey d k attr s else ordSt St.AUTH_FAIL s

def importBlob (d : Nat) (o : OrdReq) (s : State) : OrdAns × State :=
  match ordRead o s (o.arg 1) 112 with
  | none => ordNoRead o s (o.arg 1) 112
  | some b =>
    let s := fetchDeep (be b 8 2 % 64) s
    let x := openBlob .deepImport b s
    if x.res = 1 then ordSt St.KEK_INVALID s
    else if x.res = 2 then ordSt St.BLOB_BAD s
    else importKey d x.key x.attr s

/-- The cell holds a VERSION 0x02 blob. -/
def cellIsBlob (o : OrdReq) (s : State) : Bool :=
  match ordRead o s (o.arg 1) 3 with
  | some b => b == [0x42, 0x56, 0x02]
  | none => false

def deepImportInto (d : Nat) : OrdBody := unclaimed (.deep d) fun o s =>
  if d ≤ 4 then ordSt St.DENIED s
  else if o.arg 2 = 0 then importBlob d o s
  else if cellIsBlob o s ∨ !deepAttrOk (o.arg 2) then ordSt St.UNSUPPORTED s
  else importKem d o s

def deepImportBody : OrdBody := fun o s =>
  if 64 ≤ o.arg 0 ∨ o.arg 0 = 7 then ordSt St.UNSUPPORTED s else deepImportInto (o.arg 0) o s

/-- DEEP_IMPORT (Table 07.9). -/
def execDeepImport (o : OrdBy) (d cell attr : W64) (s : State) : Ans := .next (orderRow 0x507 deepImportBody o [d, cell, attr] s)

/-! CELLAR_PUT and CELLAR_DELETE (R126; log entry 75 for the layout) -/

/-- Blob i of a put: 80 bytes, one in each 128 bytes of the cells. -/
def putBlob (o : OrdReq) (s : State) (i : Nat) : Bytes :=
  match o.cell with
  | some b => slice b (128 * i) 80
  | none => memBytes s (landingAt (o.arg 0) + 128 * i) 80

def blobHandle (b : Bytes) : Nat := be b 4 4

/-- The handles of a put that hold another blob or are claimed, or that an earlier blob of the put names. -/
def putClash (s : State) : List Bytes → List Bytes → List Nat
  | _, [] => []
  | before, b :: t =>
    let h := blobHandle b
    (if (cellarUsed s h && memBytes s (blobAt h) 80 != b) || (claimOn s (.handle h)).isSome || before.any (fun x => blobHandle x == h && x != b) then [h] else []) ++ putClash s (before ++ [b]) t

/-- Blobs are written one by one: how many, and the first handle whose sector refused. -/
def writeBlobs : List Bytes → Nat → Option Nat → State → Nat × Option Nat × State
  | [], n, bad, s => (n, bad, s)
  | b :: t, n, bad, s =>
    let h := blobHandle b
    if readable s (blobAt h) 80 && memBytes s (blobAt h) 80 == b then writeBlobs t (n + 1) bad s
    else
      let (ok, s) := memWrite (blobAt h) (b ++ zeros 48) .good s
      if ok then writeBlobs t (n + 1) bad s else writeBlobs t n (some (bad.getD h)) s

def cellarPutBody : OrdBody := fun o s =>
  let n := o.arg 1
  let bs := (List.range n).map (putBlob o s)
  if 4096 < n then ordSt St.UNSUPPORTED s
  else if (ordRead o s (o.arg 0) (128 * n)).isNone then ordNoRead o s (o.arg 0) (128 * n)
  else if bs.any (fun b => decide (2 ^ 20 ≤ blobHandle b)) then ordSt St.UNSUPPORTED s
  else match putClash s [] bs with
    | h :: _ => (.done St.BUSY [res 0 h], s)
    | [] =>
      let (k, bad, s) := writeBlobs bs 0 none s
      match bad with
      | none => ordEpoch s
      | some h => (.done St.ABORTED [res 0 k, res 1 h], s)

/-- CELLAR_PUT (Table 07.9). -/
def execCellarPut (o : OrdBy) (cell blobs : W64) (s : State) : Ans := .next (orderRow 0x508 cellarPutBody o [cell, blobs] s)

def deleteBlob (h : Nat) : OrdBody := unclaimed (.handle h) fun _ s =>
  if handleNamed s h then (.busy (noHolder (.handle h)), s)
  else if !cellarUsed s h then ordSt St.NOT_FOUND s
  else
    let (ok, s) := memWrite (blobAt h) (zeros 128) .good s
    ordSt (if ok then St.OK else St.ABORTED) s

def cellarDeleteBody : OrdBody := fun o s => if 2 ^ 20 ≤ o.arg 0 then ordSt St.UNSUPPORTED s else deleteBlob (o.arg 0) o s

/-- CELLAR_DELETE (Table 07.9). -/
def execCellarDelete (o : OrdBy) (handle : W64) (s : State) : Ans := .next (orderRow 0x509 cellarDeleteBody o [handle] s)

/-! STANDING_SAVE and STANDING_DELETE (R130) -/

def standingOf (s : State) (i : Nat) : Bytes := tget bytes0 s.attic.standing i
def setStanding (i : Nat) (b : Bytes) (s : State) : State := { s with attic := { s.attic with standing := tput bytes0 s.attic.standing i b } }

/-- A standing blob goes to the attic, unless its region is read-only (R459). -/
def storeStanding (i : Nat) (b : Bytes) (s : State) : OrdAns × State :=
  let (ok, s) := atticWrite 3 (blkStanding i) s
  if ok then ordOk (setStanding i b s) else ordSt St.COUNTER_END s

def saveDeep (d i : Nat) (s : State) : OrdAns × State :=
  let s := fetchDeep d s
  let x := deepOf s d
  if !dBit s d 0 then ordSt (if dBit s d 1 then St.SLOT_BAD else St.NO_KEY) s
  else if x.g DS.STANDING_OK = 0 then ordSt St.DENIED s
  else storeStanding i (standingBlob s i (0x8000 + d) (deepBytes s d) (nbits x.w.toNat 4 11 * 16) 0) s

def saveSlot (n i : Nat) (o : OrdReq) (s : State) : OrdAns × State :=
  if !(slotOf s n).valid then ordSt St.NO_KEY s
  else
    let (st, s) := useKey n none o.caller (slotWhole s n) s
    let t := slotOf s n
    if st ≠ 0 then ordSt st s
    else if t.g0 TS.ORPHAN = 1 then ordSt St.KEK_INVALID s
    else if t.g0 TS.STANDING_OK = 0 then ordSt St.DENIED s
    else storeStanding i (standingBlob s i n t.bytes (nbits t.w0.toNat 6 16 * 64) (t.g2 TS.EXPIRY)) s

def standingSaveBody : OrdBody := fun o s =>
  let i := o.arg 1
  if !namesSlot (o.arg 0) ∨ 256 ≤ i ∨ (!namesDeep (o.arg 0) ∧ pinTop s ≤ o.arg 0) then ordSt St.UNSUPPORTED s
  else if standingOf s i ≠ [] then (.busy (noHolder (.standing i)), s)
  else
    let s := fetchDeep 1 s
    if !dBit s 1 0 then ordSt St.KEK_INVALID s
    else if namesDeep (o.arg 0) then saveDeep (slotArg (o.arg 0)) i s
    else saveSlot (o.arg 0) i o s

/-- STANDING_SAVE (Table 07.9). -/
def execStandingSave (o : OrdBy) (slot index : W64) (s : State) : Ans := .next (orderRow 0x50A standingSaveBody o [slot, index] s)

def standingDeleteBody : OrdBody := fun o s =>
  if 256 ≤ o.arg 0 then ordSt St.UNSUPPORTED s
  else if standingOf s (o.arg 0) = [] then ordSt St.NOT_FOUND s
  else storeStanding (o.arg 0) [] s

/-- STANDING_DELETE (Table 07.9). -/
def execStandingDelete (o : OrdBy) (index : W64) (s : State) : Ans := .next (orderRow 0x50B standingDeleteBody o [index] s)

/-- What a host function could read of a traffic slot (R109, R64): its key where EXPORT is 1, the function is OWNER_FN and the access table grants it R on the strongroom. No row of the opcode table carries such a read (log entry 74). -/
def slotRead (s : State) (fn n : Nat) : Option Bytes :=
  let t := slotOf s n
  if t.valid && t.bit TS.EXPORT && t.g0 TS.OWNER_FN == fn && permits s 0x00 fn 0 then some t.bytes else none

/-! MKA (R64, Table 02.9; log entries 73 and 74) -/

/-- The KDF of IEEE 802.1X-2020: CMAC blocks over the counter, the label, a zero, the context and the length. -/
def mkaBlocks (key label ctx : Bytes) (bits : Nat) : Nat → Nat → Bytes
  | 0, _ => []
  | n + 1, i => cmac key (natBe 1 i ++ label ++ [0] ++ ctx ++ natBe 2 bits) ++ mkaBlocks key label ctx bits n (i + 1)

def mkaKdf (key label ctx : Bytes) (bits : Nat) : Bytes := (mkaBlocks key label ctx bits (ceilDiv bits 128) 1).take (bits / 8)

/-- Attributes of the keys of Table 02.9, by class and use bits, with their length and owner. -/
def mkaAttr (cls uses len owner : Nat) : Nat := len * 2 ^ 6 + cls * 2 ^ 8 + uses + 2 ^ 16 + owner * 2 ^ 18
def useBit (b : Nat) : Nat := 2 ^ b

/-- Two targets of one order; two allocated ones differ, and one slot named twice is UNSUPPORTED (log entry 124). -/
def twoTargets (s : State) (a b : Nat) : Except Nat (Nat × Nat) :=
  match targetSlot s a with
  | .error e => .error e
  | .ok x =>
    match targetSlot (if a = 0x4000 then setSlot x { slotOf s x with uses := 1 } s else s) b with
    | .error e => .error e
    | .ok y => if x = y then .error St.UNSUPPORTED else .ok (x, y)

def mkaDeriveBody : OrdBody := fun o s =>
  let cak := o.arg 0
  if 16384 ≤ cak then ordSt St.UNSUPPORTED s
  else match twoTargets s (o.arg 2) (o.arg 3) with
    | .error st => ordSt st s
    | .ok (ick, kek) => match ordRead o s (o.arg 1) 16 with
      | none => ordNoRead o s (o.arg 1) 16
      | some ckn =>
        let (p, s) := slotParent cak TS.U_DERIVE o s
        let t := slotOf s cak
        if p.st ≠ 0 then ordSt p.st s
        else if t.g0 TS.KCLASS ≠ 1 then ordSt St.UNSUPPORTED s
        else
          let len := t.g0 TS.LEN
          let own := t.g0 TS.OWNER_FN
          let k := fun (label : String) => mkaKdf p.key (ascii label) ckn (if len = 1 then 256 else 128)
          let put := fun (n : Nat) (label : String) (attr : Nat) (s : State) => writeKey n (k label) attr 0 (some p.src) none (decide (pinTop s ≤ n)) s
          intoSlot ick (intoSlot kek (fun _ s =>
            let s := put ick "IEEE8021 ICK" (mkaAttr 2 (useBit TS.EXPORT) len own) s
            (.done St.OK [res 2 ick, res 3 kek], put kek "IEEE8021 KEK" (mkaAttr 3 (useBit TS.U_WRAP) len own) s))) o s

/-- MKA_DERIVE (Table 07.9). -/
def execMkaDerive (o : OrdBy) (cak cknCell ick kek : W64) (s : State) : Ans := .next (orderRow 0x510 mkaDeriveBody o [cak, cknCell, ick, kek] s)

/-- The key-encryption key of an order, and its target. -/
def withKek (f : Parent → Nat → OrdBody) : OrdBody := fun o s =>
  if 16384 ≤ o.arg 0 then ordSt St.UNSUPPORTED s
  else match targetSlot s (o.arg 1) with
    | .error st => ordSt st s
    | .ok n =>
      let (p, s) := slotParent (o.arg 0) TS.U_WRAP o s
      if p.st ≠ 0 then ordSt p.st s
      else if (slotOf s (o.arg 0)).g0 TS.KCLASS ≠ 3 then ordSt St.UNSUPPORTED s
      else intoSlot n (f p n) o s

def sakAttr (s : State) (kek len : Nat) : Nat := mkaAttr 0 (useBit TS.U_AEAD) len ((slotOf s kek).g0 TS.OWNER_FN)

def mkaSakGenBody : OrdBody := withKek fun p n o s =>
  let sak := (natBe 64 s.draw.toNat).take p.key.length
  let attr := sakAttr s (o.arg 0) (b2n (p.key.length == 32))
  match ordWrite o (o.arg 2) (keyWrap p.key sak) [res 1 n] s.drew with
  | (.done 0 rs, s) => (.done 0 rs, writeKey n sak attr 0 none none (decide (pinTop s ≤ n)) s)
  | x => x

/-- MKA_SAK_GEN (Table 07.9). -/
def execMkaSakGen (o : OrdBy) (kek target cell : W64) (s : State) : Ans := .next (orderRow 0x511 mkaSakGenBody o [kek, target, cell] s)

/-- The Distributed SAK: a wrapped key of 256 bits, else one of 128 bits. -/
def distributedSak (key b : Bytes) : Option Bytes :=
  match keyUnwrap key (slice b 0 40) with
  | some k => some k
  | none => keyUnwrap key (slice b 0 24)

def mkaSakUnwrapBody : OrdBody := withKek fun p n o s =>
  match ordRead o s (o.arg 2) 40 with
  | none => ordNoRead o s (o.arg 2) 40
  | some b => match distributedSak p.key b with
    | none => ordSt St.AUTH_FAIL s
    | some k => (.done St.OK [res 1 n], writeKey n k (sakAttr s (o.arg 0) (b2n (k.length == 32))) 0 (some p.src) none (decide (pinTop s ≤ n)) s)

/-- MKA_SAK_UNWRAP (Table 07.9). -/
def execMkaSakUnwrap (o : OrdBy) (kek target cell : W64) (s : State) : Ans := .next (orderRow 0x512 mkaSakUnwrapBody o [kek, target, cell] s)

end Sys2Proof.Machine
end

