-- ==== Sys2Proof/Machine/Lanes.lean ====
section
/-! DEFINITION. Lanes and ports (R297 to R318, R351, R354): bring-up, loss of signal, ports up and down, lane groups, eye scans, PRBS, counter snapshots and line quality. A lane is named by its LAN page L (R318). -/
namespace Sys2Proof.Machine

/-! Lanes, groups and ports -/

def laneRun (s : State) (L : Nat) : LaneRun := tget laneRun0 s.lanes L
def setLaneRun (L : Nat) (x : LaneRun) (s : State) : State := { s with lanes := tput laneRun0 s.lanes L x }
def laneF (s : State) (L : Nat) (f : Fld) : Nat := s.fld (Reg.LAN_LANE_STATUS L) f
def setLaneF (L : Nat) (f : Fld) (v : Nat) (s : State) : State := s.setFld (Reg.LAN_LANE_STATUS L) f v
def laneState (s : State) (L : Nat) : Nat := laneF s L Fd.LAN_LANE_STATUS_STATE
def setLaneState (L v : Nat) (s : State) : State := setLaneF L Fd.LAN_LANE_STATUS_STATE v s
def laneUp (s : State) (L : Nat) : Bool := laneState s L == 6

/-- Lane groups the variant has (R4): a BD3208-L lacks groups 2 and 3 of each side. -/
def groupPresent (s : State) (G : Nat) : Bool := decide (G < 8) && (s.variant != 1 || decide (G % 4 < 2))
def lanePresent (s : State) (L : Nat) : Bool := decide (L < 73) && (decide (64 ≤ L) || groupPresent s (L / 8))

/-- A lane that brings itself up: client and line lanes of enabled groups in Service, the crosscut and the shaft in Service and Banked (R302, R315, R316). -/
def laneMay (s : State) (L : Nat) : Bool :=
  s.live && lanePresent s L && (if L < 64 then trafficOn s && grouping s (L / 8) != 0 else s.mode == 2 || s.mode == 3)

/-- The lane whose place a physical client or line lane takes under RX_REVERSE (R304). -/
def placeOf (s : State) (L : Nat) : Nat := if s.flag (Reg.LAN_GRP_CFG (L / 8)) Fd.LAN_GRP_CFG_RX_REVERSE then L / 8 * 8 + (7 - L % 8) else L

/-- The MAC port of a lane: a d.port value, 64 for the crosscut, 65 for the shaft. -/
def macOf (s : State) (L : Nat) : Option Nat := if L < 64 then portOfLane s (placeOf s L) else if L < 72 then some 64 else some 65

/-- The physical lanes of a MAC port. -/
def macLanes (s : State) (p : Nat) : List Nat :=
  if p < 64 then (List.range (portWidth s p)).map (fun i => placeOf s (p + i)) else if p = 64 then (List.range 8).map (64 + ·) else [72]

/-! Ports up and down (R302, R306) -/

/-- Received pause state of a client port, cleared as the port goes down (Table 11.7). -/
def clearPause (p : Nat) (s : State) : State :=
  if 32 ≤ p then s
  else (List.range 8).foldl (fun s c => endPause p c s) s

def portDown (p : Nat) (s : State) : State :=
  if !portUp s p then s
  else
    let s := (s.setFld (Reg.MAC_PORT_STATUS p) Fd.MAC_PORT_STATUS_UP 0).setFld (Reg.MAC_PORT_STATUS p) Fd.MAC_PORT_STATUS_LOCAL_FAULT 1
    event Ev.PORT_DOWN [p] (clearPause p s)

/-- The port comes up with its last lane; codeword lock on every lane stands for the PCS's lock and deskew (log entry 81). -/
def portCheck (p : Nat) (s : State) : State :=
  if portUp s p || !(macLanes s p).all (laneUp s) then s
  else
    let s := (s.setFld (Reg.MAC_PORT_STATUS p) Fd.MAC_PORT_STATUS_UP 1).setFld (Reg.MAC_PORT_STATUS p) Fd.MAC_PORT_STATUS_LOCAL_FAULT 0
    event Ev.PORT_UP [p] s

/-- The recovered-clock outputs whose source is a lane (R351). -/
def rclkOf (s : State) (L : Nat) : List Nat :=
  (if L < 64 ∧ s.fld Reg.TIM_RCLK Fd.TIM_RCLK_SRC0 = L then [0] else []) ++ (if L < 64 ∧ s.fld Reg.TIM_RCLK Fd.TIM_RCLK_SRC1 = L then [1] else [])

/-- A lane leaves UP for another state (R306, R309, R351). -/
def leaveUp (L st : Nat) (s : State) : State :=
  if !laneUp s L then setLaneState L st s
  else
    let s := setLaneRun L { laneRun s L with scanLost := true } (setLaneF L Fd.LAN_LANE_STATUS_FEC_LOCK 0 (setLaneState L st s))
    let s := (rclkOf s L).foldl (fun s k => event Ev.RCLK_SQUELCH [k, L] s) s
    match macOf s L with
    | some p => portDown p s
    | none => if 32 ≤ L ∧ framed s (L - 32) then laneLost (L - 32) s else s

/-! Bring-up (R302, R303, Table 11.3) -/

/-- The first row: signal detected, under the lane's configuration as it now stands (R318); without signal the lane waits in IDLE. -/
def startLane (L : Nat) (s : State) : State :=
  let cfg := s.reg (Reg.LAN_LANE_CFG L)
  let inv := if fget cfg Fd.LAN_LANE_CFG_RX_POL_AUTO = 1 then 0 else fget cfg Fd.LAN_LANE_CFG_RX_INVERT
  let s := leaveUp L (if laneF s L Fd.LAN_LANE_STATUS_SIGNAL = 1 then 2 else 1) s
  let s := setLaneF L Fd.LAN_LANE_STATUS_CDR_LOCK 0 (setLaneF L Fd.LAN_LANE_STATUS_FEC_LOCK 0 (setLaneF L Fd.LAN_LANE_STATUS_RX_INVERTED inv s))
  setLaneRun L { laneRun s L with at_ := some s.time.up, cfg := cfg, kept := false } s

/-- A lane takes the state its group and the mode give it: bring-up, or deep state (R307). -/
def restartLane (L : Nat) (s : State) : State := if laneMay s L then startLane L s else leaveUp L 0 s

/-- LOS_CLEAR (R302, Table 11.4): the signal is back. -/
def execLosClear (lane : Fin 73) (s : State) : Ans :=
  let L := lane.val
  .next (onlyIf (s.live && lanePresent s L && laneF s L Fd.LAN_LANE_STATUS_SIGNAL == 0) (fun s =>
    let s := setLaneF L Fd.LAN_LANE_STATUS_SIGNAL 1 s
    if laneMay s L && laneState s L != 7 then startLane L s else s) s)

/-- CDR_LOCK (R302): the CDR locks to the incoming signal; training or adaptation begins. -/
def execCdrLock (lane : Fin 73) (s : State) : Ans :=
  let L := lane.val
  .next (onlyIf (laneMay s L && laneState s L == 2) (fun s =>
    setLaneState L (if fget (laneRun s L).cfg Fd.LAN_LANE_CFG_TRAIN_EN = 1 then 3 else 4) (setLaneF L Fd.LAN_LANE_STATUS_CDR_LOCK 1 s)) s)

/-- Inversion the receiver has found, applied with RX_POL_AUTO = 1 (R303). -/
def takePolarity (L : Nat) (inverted : Bool) (s : State) : State :=
  if fget (laneRun s L).cfg Fd.LAN_LANE_CFG_RX_POL_AUTO = 0 ∨ !inverted ∨ laneF s L Fd.LAN_LANE_STATUS_RX_INVERTED = 1 then s
  else event Ev.POL_CORRECTED [L] (setLaneF L Fd.LAN_LANE_STATUS_RX_INVERTED 1 s)

/-- A precoder setting: 0 off, 1 on, else as training requests; untrained lanes leave it off (log entry 82). -/
def precode (v : Nat) (asked : Bool) : Nat := if v < 2 then v else b2n asked

/-- The equaliser is set: FEC alignment begins, its bound 1 ms (Table 11.3). -/
def toAlign (L : Nat) (txPre rxPre : Bool) (s : State) : State :=
  let c := (laneRun s L).cfg
  let s := setLaneF L Fd.LAN_LANE_STATUS_TX_PRECODING (precode (fget c Fd.LAN_LANE_CFG_TX_PRECODE) txPre) s
  let s := setLaneF L Fd.LAN_LANE_STATUS_RX_PRECODING (precode (fget c Fd.LAN_LANE_CFG_RX_PRECODE) rxPre) s
  setLaneRun L { laneRun s L with at_ := some s.time.up, txPre := txPre, rxPre := rxPre } (setLaneState L 5 s)

/-- LINK_TRAINING_DONE (R301 to R303): equaliser settings and precoding are agreed. -/
def execLinkTrainingDone (lane : Fin 73) (txPre rxPre inverted : Bool) (s : State) : Ans :=
  let L := lane.val
  .next (onlyIf (laneMay s L && laneState s L == 3) (fun s => toAlign L txPre rxPre (takePolarity L inverted s)) s)

/-- Polarity that alignment markers show on a lane that does not train; a code-7 lane finds it from the alignment word (R303). -/
def markerPolarity (L : Nat) (inverted : Bool) (s : State) : State :=
  if fget (laneRun s L).cfg Fd.LAN_LANE_CFG_TRAIN_EN = 0 ∧ !(decide (32 ≤ L) && decide (L < 64) && framed s (L - 32)) then takePolarity L inverted s else s

/-- ADAPT_DONE (R301 to R303): receiver adaptation without training completes. -/
def execAdaptDone (lane : Fin 73) (inverted : Bool) (s : State) : Ans :=
  let L := lane.val
  .next (onlyIf (laneMay s L && laneState s L == 4) (fun s => toAlign L false false (markerPolarity L inverted s)) s)

/-- FEC codeword lock: the lane is UP; its port may come up, and a code-7 lane hunts for its frame (R302). -/
def lockFec (L : Nat) (s : State) : State :=
  let s := setLaneRun L { laneRun s L with at_ := none, kept := false } (setLaneF L Fd.LAN_LANE_STATUS_FEC_LOCK 1 (setLaneState L 6 s))
  match macOf s L with
  | some p => portCheck p s
  | none => if 32 ≤ L ∧ framed s (L - 32) then setRxLane (L - 32) (hunt (rxLaneOf s (L - 32))) s else s

/-- A lane that goes UP with the settings it kept through Banked takes up the precoding agreed before (R301, R307). -/
def keptSettings (L : Nat) (s : State) : State := if laneState s L = 5 then s else toAlign L (laneRun s L).txPre (laneRun s L).rxPre s

/-- FEC_LOCK (R302): codeword lock. A lane that left Banked with its settings kept needs no training before it (R307). -/
def execFecLock (lane : Fin 73) (inverted : Bool) (s : State) : Ans :=
  let L := lane.val
  .next (onlyIf (laneMay s L && (laneState s L == 5 || (laneRun s L).kept && (laneState s L == 3 || laneState s L == 4)))
    (fun s => lockFec L (markerPolarity L inverted (keptSettings L s))) s)

/-- The bound of a lane's bring-up step has passed (Table 11.3). -/
def boundPassed (s : State) (L : Nat) : Bool :=
  match (laneRun s L).at_, [2, 3, 4, 5].contains (laneState s L) with
  | some t, true => decide (t + 1000000 * (match laneState s L with | 2 => 2 | 3 => 502 | 4 => 102 | _ => 1) < s.time.up)
  | _, _ => false

/-- LANE_TRAIN_FAIL (R302): a step misses its bound; the lane waits 10 ms. -/
def execLaneTrainFail (lane : Fin 73) (s : State) : Ans :=
  let L := lane.val
  .next (onlyIf (laneMay s L && boundPassed s L) (fun s =>
    let s := setLaneF L Fd.LAN_LANE_STATUS_CDR_LOCK 0 (setLaneState L 1 s)
    event Ev.LANE_TRAIN_FAIL [L] (setLaneRun L { laneRun s L with at_ := some s.time.up } s)) s)

/-- TRAIN_RETRY (R302): the wait of 10 ms ends. -/
def execTrainRetry (lane : Fin 73) (s : State) : Ans :=
  let L := lane.val
  .next (onlyIf (laneMay s L && laneState s L == 1 && laneF s L Fd.LAN_LANE_STATUS_SIGNAL == 1 &&
    (match (laneRun s L).at_ with | some t => decide (t + 10000000 ≤ s.time.up) | none => false)) (startLane L) s)

/-! Losses (R305, Table 11.4) -/

/-- LANE_LOS (R305): loss of signal. In deep state only the signal detector runs; a client or line lane under PRBS test hears its own generator, and a crosscut or shaft lane under test stays in it (R308). -/
def execLaneLos (lane : Fin 73) (s : State) : Ans :=
  let L := lane.val
  .next (onlyIf (s.live && lanePresent s L && laneF s L Fd.LAN_LANE_STATUS_SIGNAL == 1) (fun s =>
    let s := setLaneF L Fd.LAN_LANE_STATUS_SIGNAL 0 s
    if laneState s L = 0 ∨ laneState s L = 7 ∧ L < 64 then s
    else
      let s := event Ev.LANE_LOS [L] (bump (Reg.LAN_CNT_LOS L) 1 s)
      if laneState s L = 7 then s else setLaneF L Fd.LAN_LANE_STATUS_CDR_LOCK 0 (leaveUp L 1 s)) s)

/-- LANE_LOL (R305): the CDR loses lock; bring-up from the CDR row. -/
def execLaneLol (lane : Fin 73) (s : State) : Ans :=
  let L := lane.val
  .next (onlyIf (laneMay s L && laneF s L Fd.LAN_LANE_STATUS_CDR_LOCK == 1 && [3, 4, 5, 6].contains (laneState s L)) (fun s =>
    let s := event Ev.LANE_LOL [L] (bump (Reg.LAN_CNT_LOL L) 1 s)
    let s := setLaneF L Fd.LAN_LANE_STATUS_CDR_LOCK 0 (leaveUp L 2 s)
    setLaneRun L { laneRun s L with at_ := some s.time.up } s) s)

/-- FEC_ALIGN_LOSS (R305): codeword alignment is lost; the lane leaves UP until it is regained. -/
def execFecAlignLoss (lane : Fin 73) (s : State) : Ans :=
  let L := lane.val
  .next (onlyIf (laneMay s L && laneUp s L) (fun s =>
    leaveUp L 5 (event Ev.LANE_LOL [L] (bump (Reg.LAN_CNT_LOL L) 1 s))) s)

/-! Lane orders -/

/-- The lane g16 names (R318): a client or line lane, a crosscut lane, the shaft. -/
def laneArg (v : Nat) : Option Nat :=
  if v < 64 then some v else if v / 64 = 1 ∧ v % 64 < 8 then some (64 + v % 64) else if v = 128 then some 72 else none

/-- Who holds a lane: a claim, or its bring-up (R225). -/
def laneHolder (s : State) (L : Nat) : Option Claim :=
  match claimOn s (.lane L) with
  | some c => some c
  | none => if [2, 3, 4, 5].contains (laneState s L) then some (hwClaim (.lane L) 0x003) else none

/-- A lane order on a present lane that nothing holds. -/
def onLane (ok : State → Nat → Bool) (f : Nat → OrdBody) : OrdBody := notBanked fun o s =>
  match laneArg (o.arg 0) with
  | none => ordSt St.UNSUPPORTED s
  | some L =>
    if !lanePresent s L then ordSt St.UNSUPPORTED s
    else match laneHolder s L with
      | some c => (.busy c, s)
      | none => if ok s L then f L o s else ordSt St.UNSUPPORTED s

def laneRetrainBody : OrdBody := onLane laneMay fun L _ s => ordOk (startLane L s)
/-- LANE_RETRAIN (Table 07.9). -/
def execLaneRetrain (o : OrdBy) (lane : W64) (s : State) : Ans := .next (orderRow 0x101 laneRetrainBody o [lane] s)

/-- The scan holds the lane's claim until it ends (R225, R309). -/
def laneEyeScanBody : OrdBody := onLane laneUp fun L o s =>
  if !ordCellsOk o s (o.arg 1) 4096 then ordSt St.CELL_FAULT s
  else (.wait, addClaim (o.claim (.lane L)) (setLaneRun L { laneRun s L with scanAt := s.time.now, scanLost := false } s))
/-- LANE_EYE_SCAN (Table 07.9). -/
def execLaneEyeScan (o : OrdBy) (lane cell : W64) (s : State) : Ans := .next (orderRow 0x102 laneEyeScanBody o [lane, cell] s)

/-- The order that waits on a lane. -/
def laneWait (s : State) (code L : Nat) : Option OrdReq := s.fore.waits.find? (fun o => o.code == code && laneArg (o.arg 0) == some L)

/-- An eye scan cell (Table 11.5). -/
def eyeCell (lane rate points start : Nat) (counts : List (BitVec 16)) : Bytes :=
  natBe 4 0x45594531 ++ natBe 1 lane ++ natBe 1 rate ++ natBe 2 points ++ natBe 8 4194304 ++ natBe 8 start ++ zeros 40 ++
  (List.range 2016).flatMap (fun i => natBe 2 (counts.getD i 0).toNat)

/-- The record of a finished eye scan is written, its lane released, its order answered. -/
def eyeScanEnd (L points : Nat) (counts : List (BitVec 16)) (o : OrdReq) (s : State) : State :=
  let all := if L = 72 then 672 else 2016
  let lost := (laneRun s L).scanLost
  let rate := if L = 72 then 2 else if L < 64 then b2n (laneFast s (L / 8)) else 0
  let b := eyeCell (o.arg 0) rate (if lost then min points all else all) (laneRun s L).scanAt (counts.take all)
  let s := dropClaims (fun c => c.res == .lane L && c.code == 0x102) s
  match ordWrite o (o.arg 1) b [] s with
  | (.done st _, s) =>
    let st := if st = St.OK ∧ lost then St.ABORTED else st
    finishWait o st [] (event Ev.EYE_SCAN_DONE [L, st] s)
  | (_, s) => s

/-- EYE_SCAN_DONE (R309): the scan ends, ABORTED with the points completed once the lane has left UP. -/
def execEyeScanDone (lane : Fin 73) (points : Nat) (counts : List (BitVec 16)) (s : State) : Ans :=
  match laneWait s 0x102 lane.val with
  | none => .next s
  | some o => .next (onlyIf s.live (eyeScanEnd lane.val points counts o) s)

/-- The test holds the lane's claim until its time is over (R225, R308). -/
def lanePrbsBody : OrdBody := onLane (fun s _ => s.mode == 1) fun L o s =>
  if 3 < o.arg 1 ∨ (o.arg 1 = 3 ∧ L ≠ 72) ∨ o.arg 2 = 0 ∨ 60000 < o.arg 2 then ordSt St.UNSUPPORTED s
  else (.wait, addClaim (o.claim (.lane L)) (setLaneRun L { laneRun s L with at_ := some s.time.up } (setLaneState L 7 s)))
/-- LANE_PRBS (Table 07.9). -/
def execLanePrbs (o : OrdBy) (lane pattern ms : W64) (s : State) : Ans := .next (orderRow 0x103 lanePrbsBody o [lane, pattern, ms] s)

/-- The test's time has passed. -/
def prbsDue (s : State) (L ms : Nat) : Bool := match (laneRun s L).at_ with | some t => decide (t + 1000000 * ms ≤ s.time.up) | none => true

/-- PRBS_DONE (R308): errors in g16, bits in g17. -/
def execPrbsDone (lane : Fin 73) (bits errs : W64) (s : State) : Ans :=
  let L := lane.val
  match laneWait s 0x103 L with
  | none => .next s
  | some o =>
    .next (onlyIf (s.live && prbsDue s L (o.arg 2)) (fun s =>
      let s := bump (Reg.LAN_CNT_PRBS_ERR L) errs.toNat (bump (Reg.LAN_CNT_PRBS_BITS L) bits.toNat s)
      let s := restartLane L (dropClaims (fun c => c.res == .lane L && c.code == 0x103) s)
      finishWait o St.OK [(16, errs), (17, bits)] (event Ev.PRBS_DONE [L, errs.toNat, bits.toNat] s)) s)

/-! PORT_GROUP (R297, R299, R300): g16 is side in [2] and lane group in [1:0], g17 is GROUPING in [2:0] and RATE in [3] (log entry 83) -/

/-- Lanes of a side that enabled trunks use, each with its trunk. -/
def trunkLanes (s : State) : List (Nat × Nat) :=
  (List.range 16).flatMap (fun n =>
    let w := max (if txOn s n then txWidth s n else 0) (if rxOn s n then rxWidth s n else 0)
    (List.range w).filterMap (fun i => (trunkLane s n i).map (fun l => (n, l))))

/-- Enabled rates of a side in Mbit/s (R299). -/
def sideRate (s : State) (side : Nat) : Nat :=
  ((List.range 32).map (fun p => portRate s (32 * side + p))).sum +
  (if side = 1 then ((trunkLanes s).map (fun e => if laneFast s (4 + e.2 / 8) then 200000 else 100000)).sum else 0)

def sideLimit (s : State) : Nat := if s.variant = 1 then 1600000 else 3200000

/-- An enabled trunk would have a lane outside a code-7 group or at another rate than its own. -/
def trunkBroken (s : State) : Bool :=
  (trunkLanes s).any (fun e => !framed s e.2 || (txOn s e.1 && b2n (laneFast s (lineGroup e.2)) != txCfg s e.1 Fd.LFR_TRUNK_CFG_RATE) ||
    (rxOn s e.1 && b2n (laneFast s (lineGroup e.2)) != rxCfg s e.1 Fd.LFR_TRUNK_RXCFG_RATE))

/-- A transmit SC runs on a line port (R67). -/
def scRunning (s : State) (p : Nat) : Bool :=
  s.assoc.any (fun e => !tribNames s 0 e.1 && !tribNames s 1 e.1 && e.2.c AC.DIR == 0 && e.2.c AC.PORT == p &&
    e.2.ans.any (fun a => a.valid || a.inflight != 0))

/-- What keeps a group busy: a running SC, an enabled trunk, a lane test (R300). -/
def groupHeld (s : State) (G : Nat) : Option Claim :=
  if decide (4 ≤ G) && (groupPorts (grouping s G)).any (fun e => scRunning s (8 * (G - 4) + e.1)) then some (noHolder (.group G))
  else if (trunkLanes s).any (fun e => lineGroup e.2 == G) then some (noHolder (.group G))
  else match (List.range 8).findSome? (fun i => claimOn s (.lane (8 * G + i))) with
    | some c => some c
    | none => claimOn s (.group G)

def setGroup (G v : Nat) (s : State) : State :=
  (s.setFld (Reg.LAN_GRP_CFG G) Fd.LAN_GRP_CFG_GROUPING v).setFld (Reg.LAN_GRP_CFG G) Fd.LAN_GRP_CFG_RATE (v / 8)

def groupLanesAll (G : Nat) : List Nat := (List.range 8).map (8 * G + ·)

/-- A new grouping and rate of a group: refused, busy, or every lane of the group restarts. -/
def regroup (G v : Nat) (s : State) : OrdAns × State :=
  if 8 ≤ G ∨ !groupPresent s G ∨ 16 ≤ v ∨ (G < 4 ∧ v % 8 = 7) then ordSt St.UNSUPPORTED s
  else if sideLimit s < sideRate (setGroup G v s) (G / 4) ∨ trunkBroken (setGroup G v s) then ordSt St.UNSUPPORTED s
  else match groupHeld s G with
    | some c => (.busy c, s)
    | none =>
      let s := setGroup G v ((groupLanesAll G).foldl (fun s L => leaveUp L 0 s) s)
      ordOk ((groupLanesAll G).foldl (fun s L => restartLane L s) s)

def portGroupBody : OrdBody := notBanked fun o s => regroup (o.arg 0) (o.arg 1) s
/-- PORT_GROUP (Table 07.9). -/
def execPortGroup (o : OrdBy) (group grouping : W64) (s : State) : Ans := .next (orderRow 0x104 portGroupBody o [group, grouping] s)

/-! MAC_COUNTERS (R313): each counter at its offset of the port page, in network order (log entry 84) -/

def macPage (s : State) (p : Nat) : Bytes :=
  (List.range 512).flatMap (fun k => if k < 32 then zeros 8 else natBe 8 (s.reg (0x300000 + 0x1000 * p + 8 * k)).toNat)

def macCountersBody : OrdBody := notBanked fun o s =>
  let p := o.arg 0
  if 66 ≤ p ∨ (p < 64 ∧ !groupPresent s (p / 8)) then ordSt St.UNSUPPORTED s else ordWrite o (o.arg 1) (macPage s p) [] s
/-- MAC_COUNTERS (Table 07.9). -/
def execMacCounters (o : OrdBy) (port cell : W64) (s : State) : Ans := .next (orderRow 0x105 macCountersBody o [port, cell] s)

/-! Recovered clocks (R351) -/

/-- What a recovered-clock output drives in kHz: 0 while it is held low. The lane's place in TIM_RCLK is its LAN page. -/
def rclkOut (s : State) (k : Fin 2) : Nat :=
  let src := s.fld Reg.TIM_RCLK (if k = 0 then Fd.TIM_RCLK_SRC0 else Fd.TIM_RCLK_SRC1)
  let slow := s.flag Reg.TIM_RCLK (if k = 0 then Fd.TIM_RCLK_DIV0 else Fd.TIM_RCLK_DIV1)
  if s.live && s.mode == 2 && (src == 0xFF || laneUp s src) then (if slow then 25000 else 156250) else 0

/-! Line quality (R310, R354) -/

/-- The signal-degrade level of a lane: that of the enabled trunk it belongs to, or its own (R354). -/
def sdLevel (s : State) (L : Nat) : Nat :=
  match (if 32 ≤ L ∧ L < 64 then rxPlace s (L - 32) else none) with
  | some (n, _) => s.fld (Reg.LFR_TRUNK_SD n) Fd.LFR_TRUNK_SD_SD_LEVEL
  | none => match (trunkLanes s).find? (fun e => 32 + e.2 == L) with
    | some (n, _) => s.fld (Reg.LFR_TRUNK_SD n) Fd.LFR_TRUNK_SD_SD_LEVEL
    | none => s.fld (Reg.TIM_LANE_LQ L) Fd.TIM_LANE_LQ_TIM_LANE_SD

/-- The lane whose page counts the codewords of a lane's port or trunk lane (R310). -/
def countsCw (s : State) (L : Nat) : Bool := match macOf s L with | some p => (macLanes s p).head? == some L | none => true

def histAdd (L : Nat) : Nat → List Nat → State → State
  | _, [] => fun s => s
  | k, n :: t => fun s => histAdd L (k + 1) t (if k < 15 then bump (Reg.LAN_CNT_HIST L k) n s else s)

def setRun (k n : Nat) (s : State) : State := { s with time := { s.time with runs := tput nat0 s.time.runs k n } }

/-- A run of equal windows: one longer, or broken; at most 10. -/
def runStep (k : Nat) (hit : Bool) (s : State) : State := setRun k (if hit then min 10 (tget nat0 s.time.runs k + 1) else 0) s

def setDegraded (L : Nat) (v : Bool) (s : State) : State :=
  if s.flag (Reg.TIM_LANE_LQ L) Fd.TIM_LANE_LQ_DEGRADED = v then s
  else event (if v then Ev.LINE_SD else Ev.LINE_SD_CLEAR) [L] (s.setFld (Reg.TIM_LANE_LQ L) Fd.TIM_LANE_LQ_DEGRADED (b2n v))

def qualityStep (L cw uncorr sym : Nat) (s : State) : State :=
  let symbols := cw * 544
  let ser := if symbols = 0 then 0 else min (sym * 2 ^ 32 / symbols) (2 ^ 32 - 1)
  let bad := decide (sdLevel s L * symbols < sym * 2 ^ 20) || decide (0 < uncorr)
  let good := decide (sym * 2 ^ 21 < sdLevel s L * symbols) && decide (uncorr = 0)
  let s := s.setFld (Reg.TIM_LANE_LQ L) Fd.TIM_LANE_LQ_SER ser
  let s := runStep (2 * L + 1) good (runStep (2 * L) bad s)
  if tget nat0 s.time.runs (2 * L) = 10 then setDegraded L true s
  else if tget nat0 s.time.runs (2 * L + 1) = 10 then setDegraded L false s
  else s

/-- LINE_QUALITY_WINDOW (R310, R354): what the FEC of a lane that is UP counted in a window of 1 ms (log entry 85). `cw`, `corr`, `uncorr` and `hist` are those of the lane's port or trunk lane, `sym` the lane's own. -/
def execLineQualityWindow (lane : Fin 72) (cw corr uncorr sym : Nat) (hist : List Nat) (s : State) : Ans :=
  let L := lane.val
  .next (onlyIf (s.live && laneUp s L) (fun s =>
    let s := bump (Reg.LAN_CNT_SYM L) sym s
    let s := if countsCw s L then
        histAdd L 0 hist (bump (Reg.LAN_CNT_CW_UNCORR L) uncorr (bump (Reg.LAN_CNT_CW_CORR L) corr (bump (Reg.LAN_CNT_CW L) cw s)))
      else s
    qualityStep L cw uncorr sym s) s)

end Sys2Proof.Machine
end

