-- ==== Sys2Proof/Machine/Tick.lean ====
section
/-! DEFINITION. One tick of the part's clock, 8 ns: what an empty queue leads to (log entry 2). -/
namespace Sys2Proof.Machine

/-- Units of TimeSt.frac in one ns: 2^16 · 10^9. -/
def fracUnit : Nat := 65536000000000

/-- The slew of one tick: at most 100 µs per second (Table 13.1). -/
def slewPart (slew : Int) : Int := max (-52428800000) (min 52428800000 slew)

/-- Part time after 8 ns: the SYSCLK rate, the rate correction and the slew (R344). -/
def TimeSt.tick (t : TimeSt) : TimeSt :=
  let d := (t.frac : Int) + 8 * t.freq + slewPart t.slew
  { t with
    now := ((t.now : Int) + 8 + d / (fracUnit : Nat)).toNat % 2 ^ 64
    frac := (d % (fracUnit : Nat)).toNat
    slew := t.slew - slewPart t.slew
    up := t.up + 8 }

/-- The lamp-room clock after 8 ns: steps of 30,517.578 ns while the oscillator runs (R425). -/
def Lamp.tick (l : Lamp) : Lamp :=
  if !l.rtcRun then l
  else if l.phase + 8000 < 30517578 then { l with phase := l.phase + 8000 }
  else { l with phase := l.phase + 8000 - 30517578, rtc := (l.rtc + (l.frac + 30517578) / 1000) % 2 ^ 64, frac := (l.frac + 30517578) % 1000 }

/-- 8 ns pass: the lamp room always keeps time, part time runs while main supplies are up. -/
def tick (s : State) : State :=
  if s.mainOn then { s with time := s.time.tick, lamp := s.lamp.tick } else { s with lamp := s.lamp.tick }

end Sys2Proof.Machine
end

