-- ==== Sys2Proof/Machine/WinderOrders.lean ====
section
/-! DEFINITION. The orders on the winder and on buffer memory (R255 to R258, R262 to R266, R274, R276, R283, R292). -/
namespace Sys2Proof.Machine

/-! QUEUE_CFG (R272, R276) -/

/-- The idle slopes of a port and the rates of its strict-class queue shapers, in kbit/s, with one queue's slope replaced. -/
def reserved (s : State) (q slope : Nat) : Nat :=
  let e := egressOf q
  let slopeOf := fun c => if queueAt e c = q then slope else s.fld (Reg.Q_SCHED (queueAt e c)) Fd.Q_SCHED_IDLE_SLOPE
  slopeOf 5 + slopeOf 4 + (shaperOf s (queueAt e 7)).rate + (shaperOf s (queueAt e 6)).rate

/-- A queue accepts these parameters (R272); a port without a MAC, and a tributary, has no rate to hold them against (log entry 111). -/
def queueFits (s : State) (q : Nat) (limits flow sched : W64) : Bool :=
  let limit := fget limits Fd.Q_LIMITS_LIMIT
  let slope := fget sched Fd.Q_SCHED_IDLE_SLOPE
  let rate := if egressOf q < 64 then portRate s (egressOf q) * 1000 else 0
  decide (fget limits Fd.Q_LIMITS_YELLOW_MAX ≤ limit) &&
  (fget flow Fd.Q_FLOW_PFC_EN == 0 ||
    (decide (256 ≤ q) && decide (fget flow Fd.Q_FLOW_XON < fget flow Fd.Q_FLOW_XOFF) && decide (fget flow Fd.Q_FLOW_XOFF < limit))) &&
  (fget sched Fd.Q_SCHED_WEIGHT != 0 || decide (4 ≤ q % 8)) &&
  (slope == 0 || q % 8 == 4 || q % 8 == 5) &&
  (rate == 0 || decide (reserved s q slope ≤ rate))

/-- A register word with its order-writable bits replaced. -/
def owPut (s : State) (off : Nat) (v : W64) : W64 :=
  match descAt off with
  | some d => (s.reg off &&& ~~~ typeMask .ow d.fields) ||| (v &&& typeMask .ow d.fields)
  | none => s.reg off

def setOw (off : Nat) (v : W64) (s : State) : State := s.setReg off (owPut s off v)

def queueCfgBody : OrdBody := fun o s =>
  let q := o.arg 0
  if 1024 ≤ q ∨ !queueFits s q (o.argW 1) (o.argW 2) (o.argW 3) then ordSt St.UNSUPPORTED s
  else match claimOn s (.queue q) with
    | some c => (.busy c, s)
    | none => ordOk (setOw (Reg.Q_SCHED q) (o.argW 3) (setOw (Reg.Q_FLOW q) (o.argW 2) (setOw (Reg.Q_LIMITS q) (o.argW 1) s)))

/-- QUEUE_CFG (Table 07.9). -/
def execQueueCfg (o : OrdBy) (q limits flow sched : W64) (s : State) : Ans := .next (orderRow 0x601 queueCfgBody o [q, limits, flow, sched] s)

/-! METER_CFG (R257, R258) -/

/-- A byte count as a bucket level (10^-6 bit). -/
def bucketOf (bytes : Nat) : Nat := bytes * 8000000

def meterSet (m : Meter) (o : OrdReq) (now : Nat) : Meter :=
  let on := nbit (o.arg 0) 17
  let full := on && !m.enable
  { enable := on, aware := nbit (o.arg 0) 16, cir := o.arg 1, cbs := o.arg 2, eir := o.arg 3, ebs := o.arg 4
    tc := if full then bucketOf (o.arg 2) else min m.tc (bucketOf (o.arg 2))
    te := if full then bucketOf (o.arg 4) else min m.te (bucketOf (o.arg 4))
    last := if full then now else m.last }

def meterCfgBody : OrdBody := fun o s =>
  if 2 ^ 18 ≤ o.arg 0 ∨ 1600000000 < o.arg 1 ∨ 2 ^ 24 ≤ o.arg 2 ∨ 1600000000 < o.arg 3 ∨ 2 ^ 24 ≤ o.arg 4 then ordSt St.UNSUPPORTED s
  else ordOk (setMeter (o.arg 0 % 2 ^ 16) (meterSet (meterOf s (o.arg 0 % 2 ^ 16)) o s.time.up) s)

/-- METER_CFG (Table 07.9). -/
def execMeterCfg (o : OrdBy) (meter cir cbs eir ebs : W64) (s : State) : Ans := .next (orderRow 0x602 meterCfgBody o [meter, cir, cbs, eir, ebs] s)

/-! SHAPER_CFG (R262, R263) -/

def Shaper.set (x : Shaper) (rate burst : Nat) : Shaper := { x with rate := rate, burst := burst, credit := min x.credit (burst * 256 : Nat) }

def shaperCfgBody : OrdBody := fun o s =>
  if 1088 ≤ o.arg 0 ∨ 1600000000 < o.arg 1 ∨ 2 ^ 24 ≤ o.arg 2 then ordSt St.UNSUPPORTED s
  else ordOk (setShaper (o.arg 0) ((shaperOf s (o.arg 0)).set (o.arg 1) (o.arg 2)) s)

/-- SHAPER_CFG (Table 07.9). -/
def execShaperCfg (o : OrdBy) (shaper rate burst : W64) (s : State) : Ans := .next (orderRow 0x603 shaperCfgBody o [shaper, rate, burst] s)

/-! GATE_LIST (R265, R266) -/

/-- The entries of a list in a cell (Table 09.6): gates, SCHED mask, interval. -/
def listEntries (b : Bytes) (n : Nat) : List (Nat × Nat × Nat) :=
  (List.range n).map (fun i => (be b (16 + 8 * i) 1, be b (17 + 8 * i) 1, be b (20 + 8 * i) 4))

/-- A list the part runs: cycle in range and met exactly, intervals of 40 ns and more, no SCHED bit without its gate. -/
def listFits (cycle : Nat) (l : List (Nat × Nat × Nat)) : Bool :=
  decide (1000 ≤ cycle) && decide (cycle ≤ 1000000000) && (l.map (·.2.2)).sum == cycle &&
  l.all (fun g => decide (40 ≤ g.2.2) && g.1 &&& g.2.1 == g.2.1)

/-- The list waits for its instant; no entries: the list is removed then. -/
def gateListSet (e cycle base : Nat) (l : List (Nat × Nat × Nat)) (s : State) : State :=
  let g : GList := ⟨cycle, base, l⟩
  setEgress e { egressAt s e with next := some (if l = [] then none else some g, g.startFrom s.time.now) } s

def gateListBody : OrdBody := fun o s =>
  let e := o.arg 0
  if 64 ≤ e then ordSt St.UNSUPPORTED s
  else match claimOn s (.gateList e) with
    | some c => (.busy c, s)
    | none =>
      if (egressAt s e).next.isSome then (.busy (noHolder (.gateList e)), s)
      else match ordRead o s (o.arg 1) 2064 with
        | none => ordNoRead o s (o.arg 1) 2064
        | some b =>
          let n := be b 4 2
          let l := listEntries b n
          if 256 < n ∨ (n ≠ 0 ∧ !listFits (be b 0 4) l) then ordSt St.UNSUPPORTED s
          else ordOk (addClaim (o.claim (.gateList e)) (gateListSet e (be b 0 4) (o.arg 2) l s))

/-- GATE_LIST (Table 07.9). -/
def execGateList (o : OrdBy) (port cell base : W64) (s : State) : Ans := .next (orderRow 0x604 gateListBody o [port, cell, base] s)

/-! DROP_NOTIFY (R274; log entry 78) -/

def dropNotifyBody : OrdBody := fun o s =>
  let k := if s.flag Reg.WND_DN_CFG Fd.WND_DN_CFG_EN then noteTokens s else 64000000000
  if 16 ≤ o.arg 0 ∨ 1000000 < o.arg 1 then ordSt St.UNSUPPORTED s
  else
    let s := { s with wnd := { s.wnd with dnTokens := k, dnLast := s.time.up } }
    let s := s.setFld Reg.WND_DN_CFG Fd.WND_DN_CFG_FN (o.arg 0)
    let s := s.setFld Reg.WND_DN_CFG Fd.WND_DN_CFG_RATE (o.arg 1)
    ordOk (s.setFld Reg.WND_DN_CFG Fd.WND_DN_CFG_EN (b2n (o.arg 1 != 0)))

/-- DROP_NOTIFY (Table 07.9). -/
def execDropNotify (o : OrdBy) (fn rate : W64) (s : State) : Ans := .next (orderRow 0x607 dropNotifyBody o [fn, rate] s)

/-! MEM_KEY_CHANGE (R283) -/

/-- Key i takes a fresh value and the next generation; the old one stays for reading and the walk begins. -/
def startRekey (i : Nat) (s : State) : State :=
  let old := memKey s i
  let k := s.draw
  let s := { s.drew with vault := { s.vault with memKeys := tput memKey0 s.vault.memKeys i k, prevKeys := tput memKey0 s.vault.prevKeys i old } }
  let s := s.setFld (Reg.MEM_KEY_STATUS i) Fd.MEM_KEY_STATUS_KGEN (kgenOf s i + 1)
  let s := s.setFld (Reg.MEM_KEY_STATUS i) Fd.MEM_KEY_STATUS_CHANGING 1
  showWalks { s with mem := { s.mem with walks := s.mem.walks ++ [(i, s.time.up + walkNs s i ((kgenOf s i + 255) % 256))] } }

def memKeyChangeBody : OrdBody := fun o s =>
  let i := o.arg 0
  if 256 ≤ i then ordSt St.UNSUPPORTED s
  else unclaimed (.memKey i) (fun o s => (.wait, addClaim (o.claim (.memKey i)) (startRekey i s))) o s

/-- MEM_KEY_CHANGE (Table 07.9). -/
def execMemKeyChange (o : OrdBy) (index : W64) (s : State) : Ans := .next (orderRow 0x605 memKeyChangeBody o [index] s)

/-! MEM_SCRUB (R292) -/

def memScrubBody : OrdBody := fun o s =>
  let r := o.arg 0
  if 7 ≤ r ∨ regionSectors r < o.arg 1 + o.arg 2 then ordSt St.UNSUPPORTED s
  else unclaimed (.region r) (fun o s =>
    (.wait, { addClaim (o.claim (.region r)) s with mem := { s.mem with scrubs := s.mem.scrubs ++ [⟨r, o.arg 1, o.arg 2, o⟩] } })) o s

/-- MEM_SCRUB (Table 07.9). -/
def execMemScrub (o : OrdBy) (region first count : W64) (s : State) : Ans := .next (orderRow 0x606 memScrubBody o [region, first, count] s)

end Sys2Proof.Machine
end

