-- ==== Sys2Proof/Machine/Time.lean ====
section
/-! DEFINITION. Part time (R344, R345), its writes into the RTC, and queue sampling (R352). -/
namespace Sys2Proof.Machine

def setTimeState (v : Nat) (s : State) : State := s.setFld Reg.TIM_STATUS Fd.TIM_STATUS_STATE v

/-! TIME_SET (Table 13.1) -/

/-- After a step the gate state in force holds to the next entry boundary of the new time (Table 09.9). -/
def holdEntry (s : State) (e : Nat) : State :=
  let x := egressAt s e
  match x.list with
  | some l => setEgress e { x with holdTill := some (s.time.now + (l.entryAt s.time.now).2) } s
  | none => s

/-- Part time steps; a slew that has not ended is dropped (log entry 79). -/
def stepTime (v : Nat) (s : State) : State :=
  let old := s.time.now
  let s := { s with time := { s.time with now := v, frac := 0, slew := 0, steps := s.time.steps + 1 } }
  event Ev.TIME_STEP [old, v] ((listed s).foldl holdEntry s)

/-- Lists take up the length-aware rule again at their next cycle start (R269). -/
def resumeEntry (s : State) (e : Nat) : State :=
  let x := egressAt s e
  match x.list with
  | some l => setEgress e { x with resumeAt := some (l.startFrom s.time.now) } s
  | none => s

/-- Time returns to lock, from FREE or HOLDOVER. -/
def relock (s : State) : State :=
  if locked s then s
  else event Ev.TIME_LOCK [s.time.now] (setTimeState 1 ((listed s).foldl resumeEntry { s with time := { s.time with lockAt := s.time.up } }))

def steer (f : TimeSt → TimeSt) (s : State) : State := relock { s with time := { f s.time with lastSteer := s.time.up } }

/-- Gate state at the entry to holdover: a stale list stays stale only if it had not resumed. -/
def guardEntry (s : State) (e : Nat) : State :=
  let x := egressAt s e
  let waiting := match x.resumeAt with | some t => decide (s.time.now < t) | none => false
  event Ev.TG_GUARD [e] (setEgress e { x with stale := x.stale && waiting, resumeAt := none } s)

/-- LOCKED ends (R345): holdover begins, with guard bands on every list. -/
def enterHoldover (s : State) : State :=
  if !locked s then s
  else
    let s := event Ev.TIME_HOLDOVER [s.time.now] (setTimeState 2 { s with time := { s.time with holdAt := s.time.up } })
    (listed s).foldl guardEntry s

/-- A signed argument. -/
def OrdReq.argI (o : OrdReq) (k : Nat) : Int := signed 64 (o.arg k)

def timeSetBody : OrdBody := fun o s =>
  let v := o.argI 0
  if o.arg 1 = 0 then ordOk (stepTime (o.arg 0) s)
  else if o.arg 1 = 1 then
    (if v.natAbs ≤ 1000000000 then ordOk (steer (fun t => { t with slew := v * (fracUnit : Nat) }) s) else ordSt St.UNSUPPORTED s)
  else if o.arg 1 = 2 then
    (if v.natAbs ≤ 32768000000 then ordOk (steer (fun t => { t with freq := v }) s) else ordSt St.UNSUPPORTED s)
  else if o.arg 1 = 3 then (if o.arg 0 = 0 then ordOk (enterHoldover s) else ordSt St.UNSUPPORTED s)
  else ordSt St.UNSUPPORTED s

/-- TIME_SET with g17 = 0 (Table 07.9). -/
def execTimeSetStep (o : OrdBy) (time : W64) (s : State) : Ans := .next (orderRow 0x801 timeSetBody o [time, 0] s)
/-- TIME_SET with g17 = 1. -/
def execTimeSetOffset (o : OrdBy) (offset : W64) (s : State) : Ans := .next (orderRow 0x801 timeSetBody o [offset, 1] s)
/-- TIME_SET with g17 = 2. -/
def execTimeSetFrequency (o : OrdBy) (freq : W64) (s : State) : Ans := .next (orderRow 0x801 timeSetBody o [freq, 2] s)
/-- TIME_SET with g17 = 3. -/
def execTimeSetHoldover (o : OrdBy) (zero : W64) (s : State) : Ans := .next (orderRow 0x801 timeSetBody o [zero, 3] s)

/-- TIME_HOLDOVER (R345): LOCK_TMO has passed without an order of mode 1 or 2. -/
def execTimeHoldover (s : State) : Ans :=
  .next (onlyIf (s.live && locked s && decide (s.time.lastSteer + 1000000000 * s.fld Reg.TIM_CFG Fd.TIM_CFG_LOCK_TMO ≤ s.time.up)) enterHoldover s)

/-- RTC_WRITEBACK (R344): once per second in LOCKED, and after a step. -/
def execRtcWriteback (s : State) : Ans :=
  .next (onlyIf (s.live && (locked s || s.time.steps != 0) && decide (s.time.rtcAt + 1000000000 ≤ s.time.up)) (fun s =>
    { s with lamp := { s.lamp with rtc := s.time.now, phase := 0, frac := 0 }, time := { s.time with rtcAt := s.time.up } }) s)

/-! Queue sampling (R352) -/

/-- The queues a bitmap names: bit q in byte q / 8, bit q mod 8. -/
def queueSet (b : Bytes) : List Nat := (List.range 1024).filter (fun q => nbit (b.getD (q / 8) 0).toNat (q % 8))

/-- The new set and period take over at the next period start; where nothing is sampled, at once. -/
def setSampling (set : List Nat) (period : Nat) (s : State) : State :=
  if s.time.samplePeriod = 0 then
    { s with time := { s.time with sampleSet := set, samplePeriod := if set = [] then 0 else period, sampleAt := s.time.up, sampleNext := none } }
  else { s with time := { s.time with sampleNext := some (set, if set = [] then 0 else period) } }

def sampleCfgBody : OrdBody := fun o s =>
  if o.arg 1 = 0 ∨ 1000 < o.arg 1 then ordSt St.UNSUPPORTED s
  else match ordRead o s (o.arg 0) 128 with
    | none => ordNoRead o s (o.arg 0) 128
    | some b => ordOk (setSampling (queueSet b) (o.arg 1) s)

/-- SAMPLE_CFG (Table 07.9). -/
def execSampleCfg (o : OrdBy) (cell period : W64) (s : State) : Ans := .next (orderRow 0x802 sampleCfgBody o [cell, period] s)

/-- Head delay of a queue: part time less the enqueue time of its head frame. -/
def headDelay (s : State) (q : Nat) : Nat := match (queueOf s q).frames with | f :: _ => s.time.now - f.at_ | [] => 0

def sampleOne (s : State) (q : Nat) : State :=
  let d := depth (queueOf s q) % 2 ^ 32
  let h := headDelay s q % 2 ^ 32
  let s := (s.setFld (Reg.TIM_QSAMPLE q) Fd.TIM_QSAMPLE_DEPTH d).setFld (Reg.TIM_QSAMPLE q) Fd.TIM_QSAMPLE_DELAY h
  let m := Reg.TIM_QSAMPLE_MAX q
  (s.setFld m Fd.TIM_QSAMPLE_MAX_DEPTH (max d (s.fld m Fd.TIM_QSAMPLE_MAX_DEPTH))).setFld m Fd.TIM_QSAMPLE_MAX_DELAY (max h (s.fld m Fd.TIM_QSAMPLE_MAX_DELAY))

/-- A period ends: its samples are taken, and the next begins under the set that waits. -/
def samplePeriodEnd (s : State) : State :=
  let s := s.time.sampleSet.foldl sampleOne s
  let t := s.time
  let (set, per) := t.sampleNext.getD (t.sampleSet, t.samplePeriod)
  { s with time := { t with sampleSet := set, samplePeriod := per, sampleAt := t.sampleAt + 1000 * t.samplePeriod, sampleNext := none } }

/-- QUEUE_SAMPLE (R352): a sampling period has passed. -/
def execQueueSample (s : State) : Ans :=
  .next (onlyIf (s.live && s.time.samplePeriod != 0 && decide (s.time.sampleAt + 1000 * s.time.samplePeriod ≤ s.time.up)) samplePeriodEnd s)

end Sys2Proof.Machine
end

