-- ==== Sys2Proof/Machine/View.lean ====
section
/-! DEFINITION. What a read of PF BAR0 returns (R390): the stored word, with the fields that follow the part's state put in (the RO fields of the register tables), the token array and the tally window. -/
namespace Sys2Proof.Machine

/-- A word built from fields given as lowest bit, width and value. -/
def pack : List (Nat × Nat × Nat) → Nat
  | [] => 0
  | f :: t => f.2.2 % 2 ^ f.2.1 * 2 ^ f.1 + pack t

def kib (n : Nat) : Nat := ceilDiv n 1024

/-! Blocks of 64-bit words, by register -/

def galDomStatus (s : State) (d : Nat) : Nat := pack [(0, 17, (tagsOf s d).length), (17, 15, kib (backlogBytes s d)), (32, 1, b2n (s.gal.paused.contains d))]

def qStatus (s : State) (q : Nat) : Nat :=
  let x := queueOf s q
  pack [(0, 32, depth x), (32, 20, x.frames.length), (52, 1, b2n (spilled x)), (53, 1, b2n x.pausedUntil.isSome), (54, 1, b2n x.xoff)]

/-- Q_CNT_PAUSED_US, a pause that lasts included. -/
def qPaused (s : State) (q : Nat) : Nat :=
  let x := queueOf s q
  count40 (s.reg (Reg.Q_CNT_PAUSED_US q)).toNat (if x.pausedUntil.isSome then pausedFor s x / 1000 else 0)

def tgStatus (s : State) (e : Nat) : Nat :=
  let x := egressAt s e
  let g := x.list.isSome && inGuard s x
  pack [(0, 1, b2n x.list.isSome), (1, 1, b2n x.next.isSome), (2, 1, b2n g), (3, 1, b2n (x.list.isSome && staleNow s x)), (4, 8, x.entry), (32, 32, if g then guardNs s else 0)]

def poolStatus (s : State) : Nat := pack [(0, 16, kib (sramUsed s)), (16, 16, kib (rsvUsed s)), (32, 32, ceilDiv (256 * hbmCells s) 1024)]

def srmStatus (s : State) : Nat :=
  let used := (s.vault.slots.filter (fun e => decide (e.1 < pinTop s) && e.2.valid)).length
  let orphans := (s.vault.slots.filter (fun e => e.2.g0 TS.ORPHAN == 1)).length
  pack [(0, 15, used), (16, 15, cachedFree s), (31, 1, b2n s.lamp.root.isSome), (32, 1, s.fld Reg.SRM_STATUS Fd.SRM_STATUS_ERASED), (33, 15, orphans)]

def gateStatus (s : State) : Nat :=
  let flows := ((List.range 1024).filter (fun f => flowF s f Fd.GATE_FLOW_CFG_VALID == 1)).length
  pack [(0, 15, s.gate.entries.length), (15, 13, s.gate.keys.length), (28, 11, flows), (39, 1, b2n s.fore.pkeOk)]

def lanesUp (s : State) (G : Nat) : Nat := ((List.range 8).map (fun i => b2n (laneUp s (8 * G + i)) * 2 ^ i)).sum

def lrStatus (s : State) : Nat :=
  pack [(0, 1, b2n s.lamp.vbatOk), (1, 1, b2n s.lamp.rtcRun), (2, 7, s.lamp.tail.length), (9, 16, s.lamp.tailLost), (25, 1, b2n s.lamp.lampLost)]

/-- The bytes of the record that the window shows for a residue: the newest stored record of that residue, else zeros (R437). -/
def windowBytes (s : State) (k : Nat) : Bytes :=
  let all := (s.attic.evid ++ s.attic.ring).filter (fun r => r.valid && r.seq % 4096 == k)
  let newest := all.foldl (fun (m : Option TRec) r => match m with | some x => if x.seq < r.seq then some r else m | none => some r) none
  match newest with
  | some r => r.bytes
  | none => zeros 64

/-- EFF_MAX of a port that its group makes (R311); of the crosscut and the shaft while they are up (R315, R316). -/
def effMaxShown (s : State) (p : Nat) : Nat :=
  if p < 64 then (if portWidth s p = 0 then 0 else effMax s p) else if !portUp s p then 0 else if p = 64 then 16383 else 9216

/-- Bits of HST_IDE_CFG.SECURE. -/
def ideSecure (s : State) : Nat := ((List.range 4).map (fun i => b2n (tget ide0 s.host.ide i).secure * 2 ^ i)).sum

/-! DOUT (R372, Table 14.15) -/

/-- The highest response level the partner last reported. -/
def peerLevel (s : State) : Nat := nbits s.twin.peerState 4 3

/-- The value of one DOUT bit from its source. -/
def doutBit (s : State) (i : Nat) : Bool :=
  let src := nbits (s.reg Reg.TWN_DOUT_SRC).toNat (8 * i) 8
  let ix := src % 32
  match src / 32 with
  | 0 => nbit (s.fld Reg.TWN_DOUT Fd.TWN_DOUT_VALUE) i
  | 1 => decide (1 ≤ levelInForce s) || (s.twin.link.up && decide (1 ≤ peerLevel s))
  | 2 => portUp s (32 + ix)
  | 3 => decide (ix < 16) && lfrUp s ix
  | 4 => portUp s ix
  | 5 => twinF s Fd.TWN_STATUS_PEER == 2
  | _ => false

def doutNow (s : State) : Nat := ((List.range 8).map (fun i => b2n (doutBit s i) * 2 ^ i)).sum

/-- What this part drives low: the computed values of a part that holds its own role, the mirror of one that drives as a twin. -/
def doutDriven (s : State) : Nat :=
  if !s.live ∨ s.mode = 0 then 0 else if !twinOn s ∨ isActive s then doutNow s else if s.twin.driving then s.twin.dout else 0

/-! The whole map -/

def tokenWord (s : State) (first : Nat) : Nat := leNat ((List.range 8).map (fun i => BitVec.ofNat 8 (tokenOf s (first + i))))

/-- Registers whose word, or some of whose fields, follow the state. -/
def view (s : State) (off : Nat) : Option Nat :=
  if off < 0x100000 then
    (if off = 0 then some (pack [(0, 8, 0xA1), (8, 4, s.variant), (16, 16, 0x3208)])
     else if off = 8 then some (s.serial % 2 ^ 64)
     else if off = 0x10 then some (s.serial / 2 ^ 64 % 2 ^ 64)
     else if off = 0x20 then some (pack [(0, 1, s.fld off Fd.HST_IDE_CFG_REQUIRE), (1, 4, ideSecure s)])
     else if 0x10000 ≤ off ∧ off < 0x20000 then some (tokenWord s (off - 0x10000))
     else none)
  else if off < 0x200000 then
    (let o := off - 0x100000
     if o = 0 then some ((fset (s.reg off) Fd.PWR_STATUS_LIFECYCLE s.attic.lifecycle).toNat)
     else if o = 8 then some ((fset (s.reg off) Fd.PWR_RESET_CAUSE_COUNT (min s.attic.resets 0xFFFF)).toNat)
     else if o = 0x18 then some (pack [(0, 32, s.attic.fwA.version), (32, 32, s.attic.fwB.version)])
     else if o = 0x20 then some (pack [(0, 9, s.attic.spares), (16, 6, s.attic.readonly)])
     else if 0x100 ≤ o ∧ o < 0x200 then some (counterOf s ((o - 0x100) / 8))
     else none)
  else if 0x208040 ≤ off ∧ off < 0x208080 then
    some ((fset (s.reg off) Fd.LAN_GRP_STATUS_LANES_UP (lanesUp s ((off - 0x208040) / 8))).toNat)
  else if 0x300000 ≤ off ∧ off < 0x342000 ∧ off % 0x1000 = 8 then
    some ((fset (s.reg off) Fd.MAC_PORT_STATUS_EFF_MAX (effMaxShown s ((off - 0x300000) / 0x1000))).toNat)
  else if off = Reg.TBL_STAMP then some (tblStamp s)
  else if off = Reg.TBL_STATUS then some (pack [(0, 19, s.cls.peers.length), (19, 17, s.cls.scis.length), (36, 13, s.cls.learnQ.length)])
  else if off = Reg.GAL_PRESENT then some (galPresent s)
  else if off = Reg.GAL_TAGS then some ((fset (s.reg off) Fd.GAL_TAGS_FREE (tagsFree s)).toNat)
  else if 0x701000 ≤ off ∧ off < 0x701700 ∧ off % 16 = 8 then some (galDomStatus s ((off - 0x701000) / 16))
  else if off = Reg.SRM_STATUS then some (srmStatus s)
  else if off = Reg.WND_POOL_STATUS then some (poolStatus s)
  else if 0x900200 ≤ off ∧ off < 0x900600 ∧ off % 16 = 0 then some (tgStatus s ((off - 0x900200) / 16))
  else if 0x901000 ≤ off ∧ off < 0x921000 ∧ off % 0x80 = 0x18 then some (qStatus s ((off - 0x901000) / 0x80))
  else if 0x901000 ≤ off ∧ off < 0x921000 ∧ off % 0x80 = 0x58 then some (qPaused s ((off - 0x901000) / 0x80))
  else if 0x930000 ≤ off ∧ off < 0x932200 then some (unsigned 48 (shaperOf s ((off - 0x930000) / 8)).credit)
  else if off = Reg.GATE_STATUS then some (gateStatus s)
  else if off = Reg.TIM_NOW then some s.time.now
  else if off = Reg.TWN_DOUT then some (pack [(0, 8, s.fld off Fd.TWN_DOUT_VALUE), (8, 8, doutDriven s), (16, 8, doutDriven s)])
  else if 0xE00100 ≤ off ∧ off < 0xE00200 then
    (let m := (off - 0xE00100) / 8
     if m < 24 then some (pack [(0, 3, s.fld off Fd.TMP_LEVEL_LEVEL), (4, 3, floorOf s m), (8, 3, effective s m)]) else none)
  else if off = Reg.LR_STATUS then some (lrStatus s)
  else if off = Reg.LR_RTC then some s.lamp.rtc
  else if off = Reg.LR_CFG then some s.lamp.cfg.toNat
  else if off = Reg.TLY_STATUS then some s.attic.nextSeq
  else if off = Reg.TLY_FILL then some (pack [(0, 15, s.attic.evid.length), (16, 17, s.attic.ring.length)])
  else if off = Reg.TLY_EVID_LOST then some s.attic.evidLost
  else if 0xE80000 ≤ off ∧ off < 0xEC0000 then some (leNat (slice (windowBytes s ((off - 0xE80000) / 64)) (off % 64) 8))
  else none

/-- The register belongs to a lane, a lane group or a port that the variant lacks (R4; log entry 125 for what a read of it returns). -/
def absentUnit (s : State) (off : Nat) : Bool :=
  let group := if 0x200000 ≤ off ∧ off < 0x204000 then some ((off - 0x200000) / 0x800)
    else if 0x208000 ≤ off ∧ off < 0x208080 then some (off % 0x40 / 8)
    else if 0x300000 ≤ off ∧ off < 0x340000 then some ((off - 0x300000) / 0x8000)
    else if 0xC02000 ≤ off ∧ off < 0xC02200 then some ((off - 0xC02000) / 64) else none
  match group with | some G => !groupPresent s G | none => false

/-- The 64-bit word at an 8-byte aligned offset of PF BAR0; an undefined offset reads 0 (R390), and so does a unit that reads as absent (R4). -/
def readReg (s : State) (off : Nat) : W64 :=
  if off % 8 ≠ 0 ∨ 0xF00000 ≤ off ∨ absentUnit s off = true then 0 else match view s off with | some v => BitVec.ofNat 64 v | none => s.reg off

/-! Reads that clear or reload (R169, R353, R356, R439) -/

/-- What a read leaves behind in a register with RC fields. LOW_WATER then counts from the present (log entry 107). -/
def afterRead (off : Nat) (s : State) : State :=
  if off = Reg.GAL_TAGS then s.setFld off Fd.GAL_TAGS_LOW_WATER (tagsFree s)
  else if 0xC01000 ≤ off ∧ off < 0xC01200 then s.setFld off Fd.TIM_MERGE_DIFF_MAX 0
  else if 0xC04000 ≤ off ∧ off < 0xC08000 ∧ off % 16 = 8 then s.setReg off 0
  else if 0xE00200 ≤ off ∧ off < 0xE00248 then
    (let v := s.fld off Fd.TMP_RAIL_MV
     (s.setFld off Fd.TMP_RAIL_MIN_MV v).setFld off Fd.TMP_RAIL_MAX_MV v)
  else if 0xE00300 ≤ off ∧ off < 0xE00388 then s.setFld off Fd.TMP_TEMP_MAX (s.fld off Fd.TMP_TEMP_TEMP)
  else s

end Sys2Proof.Machine
end

