-- ==== Sys2Proof/Machine/Roles.lean ====
section
/-! DEFINITION. The control role (R359, R360, R367 to R373): yields, claims, sessions with the partner and with hewers as far as orders and modes touch them. -/
namespace Sys2Proof.Machine

/-! TWN_STATUS -/

def setTwn (f : Fld) (v : Nat) (s : State) : State := s.setFld Reg.TWN_STATUS f v
def ctrlOf (s : State) : Nat := twinF s Fd.TWN_STATUS_CTRL
def isStandby (s : State) : Bool := ctrlOf s == 1
def synced (s : State) : Bool := twinF s Fd.TWN_STATUS_SYNCED == 1
def roleIn (s : State) : Bool := twinF s Fd.TWN_STATUS_ROLE_IN == 1
def peerAlive (s : State) : Bool := twinF s Fd.TWN_STATUS_PEER == 2
def resyncOn (s : State) : Bool := twinF s Fd.TWN_STATUS_RESYNC_ACTIVE == 1
def roleEpoch (s : State) : Nat := twinF s Fd.TWN_STATUS_ROLE_EPOCH

/-- Strapped overman on a variant that can be one (R5, Table 00.1). -/
def isOverman (s : State) : Bool := twinF s Fd.TWN_STATUS_ROLE_SEL == 1 && s.variant == 0
def isHewer (s : State) : Bool := twinF s Fd.TWN_STATUS_ROLE_SEL == 2

/-! Sessions -/

/-- A session's key leaves its slot, which stays in the allocation pool (R125). -/
def freeKey (l : Link) (s : State) : State :=
  match l.slot with
  | some n => if (slotOf s n).valid then invalidate n 1 s else s
  | none => s

def setLink (l : Link) (s : State) : State := { s with twin := { s.twin with link := l } }

/-- The crosscut buffer's copies are lost with the session, counted (Table 14.14). -/
def loseCopies (s : State) : State :=
  bump Reg.TWN_CNT_XC_DROP s.twin.xcBuf.length { s with twin := { s.twin with xcBuf := [] } }

/-- The copy of the control image ends (R375); its claims go. -/
def endCopy (ok : Bool) (s : State) : State :=
  let s := dropClaims (fun c => c.src == 3 && c.code == 0x007) (setTwn Fd.TWN_STATUS_RESYNC_ACTIVE 0 { s with twin := { s.twin with copied := [] } })
  if ok then setTwn Fd.TWN_STATUS_SYNCED 1 s else event Ev.RESYNC_FAIL [roleEpoch s, s.twin.gen] (setTwn Fd.TWN_STATUS_SYNCED 0 s)

/-- The session with the partner ends, and with it a running copy. -/
def dropSession (s : State) : State :=
  let s := setLink .reset (loseCopies (freeKey s.twin.link s))
  if resyncOn s then endCopy false s else s

/-- An overlap ends: its duration is counted and recorded (R373). -/
def endOverlap (s : State) : State :=
  match s.twin.overlapAt with
  | some t => event Ev.ROLE_OVERLAP [s.time.up - t, roleEpoch s] (bump Reg.TWN_CNT_OVERLAP 1 { s with twin := { s.twin with overlapAt := none } })
  | none => s

/-! Overman duties that end with the role -/

def hewerOf (s : State) (h : Nat) : Option Hewer := tget none0 s.twin.hewers h
def setHewer (h : Nat) (x : Option Hewer) (s : State) : State := { s with twin := { s.twin with hewers := tput none0 s.twin.hewers h x } }
def setHewerF (h : Nat) (f : Fld) (v : Nat) (s : State) : State := s.setFld (Reg.TWN_HEWER_STATUS h) f v

/-- A BLOB_SEND ends with a status and its three counts; its handles are free (R383). -/
def endBlobs (status : Nat) (s : State) : State :=
  match s.twin.blobRun with
  | none => s
  | some r =>
    let named := (List.range 64).filter (fun h => nbit r.mask h)
    let silent := (named.filter (fun h => r.waiting.any (fun w => w.1 == h))).length
    let s := { s with twin := { s.twin with blobRun := none } }
    let s := dropClaims (fun c => c.code == 0x904) s
    let s := named.foldl (fun s h => event Ev.BLOB_SENT [h, r.accepted, r.refused] s) s
    finishWait r.req status [res 0 r.accepted, res 1 r.refused, res 2 silent] s

/-- Every shaft session of an overman ends. -/
def dropHewers (s : State) : State :=
  s.twin.hewers.foldl (fun s e => match e.2 with
    | some h => setHewerF e.1 Fd.TWN_HEWER_STATUS_UP 0 (setHewer e.1 (some { h with link := .reset }) (freeKey h.link s))
    | none => s) s

/-! Yield and claim (R368, R370) -/

/-- The part gives up the control role: YIELDING, ROLE_OUT released, YIELD sent. -/
def yieldRole (cause : Nat) (s : State) : State :=
  if ctrlOf s ≠ 2 then s
  else
    let s := endOverlap s
    let s := { s with twin := { s.twin with dout := doutNow s, driving := true } }
    let s := xcSend 0x02 (natBe 1 cause) (setTwn Fd.TWN_STATUS_CTRL 3 (setTwn Fd.TWN_STATUS_ROLE_OUT 0 s))
    let s := if resyncOn s then endCopy false s else s
    let s := if cause = 6 ∨ cause = 7 then s else setTwn Fd.TWN_STATUS_SYNCED 0 s
    event Ev.ROLE_YIELD [cause, roleEpoch s] (dropHewers (endBlobs St.ABORTED s))

/-- The guard's last trigger is a monitor's and its level is still in force: how the role controller sees that monitor (log entry 140). -/
def lastFired (s : State) (m level : Nat) : Bool :=
  s.fld Reg.TMP_STATUS Fd.TMP_STATUS_LAST_MONITOR == m && decide (level ≤ levelInForce s)

/-- MEMCHECK of Table 14.8: a check failure in the association, cellar or landing region, where records, key maps, blobs and what the foreman reaches lie. -/
def memFault (s : State) : Bool := lastFired s 0x0F 1 && [0, 1, 5].contains (regionOfCell (s.fld Reg.MEM_POISON_LAST Fd.MEM_POISON_LAST_CELL))

/-- Triggers of Table 14.8 that persist in this part. -/
def selfFault (s : State) : Bool := s.fore.stopped || memFault s || s.guard.cautionLong || decide (2 ≤ levelInForce s)

/-- A row of Table 14.7 holds. -/
def mayClaim (s : State) : Bool :=
  isStandby s && s.mode == 2 && !selfFault s && !s.twin.ownPos &&
  (if synced s then
    (s.twin.peerYield && !roleIn s) || (twinF s Fd.TWN_STATUS_PEER == 3 && (s.position == 0 || !roleIn s))
   else s.twin.startDue && !roleIn s && !s.twin.peerClaim)

/-- The five actions of a claim, in order. -/
def claimRole (s : State) : State :=
  let s := setTwn Fd.TWN_STATUS_ROLE_OUT 1 s
  let e := (max (roleEpoch s) s.twin.peerEpoch + 1) % 2 ^ 32
  let s := setTwn Fd.TWN_STATUS_CTRL 2 (setTwn Fd.TWN_STATUS_ROLE_EPOCH e s)
  let overlap := if s.twin.link.up && s.twin.peerClaim then some s.time.up else none
  let s := { s with twin := { s.twin with startAt := none, startDue := false, peerYield := false, driving := true, releaseAt := none, overlapAt := overlap } }
  event Ev.ROLE_ACTIVE [e] (bump Reg.TWN_CNT_SWITCH 1 (xcSend 0x03 [] s))

def tryClaim (s : State) : State := if mayClaim s then claimRole s else s

/-! TWIN_EN and Service (R360, R368) -/

/-- A part with TWIN_EN = 1 that enters Service starts as STANDBY. -/
def twinStart (s : State) : State :=
  if twinOn s ∧ s.mode = 2 ∧ ctrlOf s = 0 then
    { setTwn Fd.TWN_STATUS_CTRL 1 s with twin := { s.twin with startAt := some s.time.up, startDue := false } }
  else s

/-- TWIN_EN cleared: the part is STANDALONE. -/
def twinStop (s : State) : State :=
  let s := endOverlap (dropSession s)
  let s := setTwn Fd.TWN_STATUS_SYNCED 0 (setTwn Fd.TWN_STATUS_PEER 0 (setTwn Fd.TWN_STATUS_ROLE_OUT 0 (setTwn Fd.TWN_STATUS_CTRL 0 s)))
  { s with twin := { s.twin with startAt := none, startDue := false, driving := false, releaseAt := none, peerClaim := false, peerYield := false } }

end Sys2Proof.Machine
end

