-- ==== Sys2Proof/Machine/RegOrders.lean ====
section
/-! DEFINITION. REG_WRITE, REG_READ and LEVEL_SET (R224, R422): the rules that each register of the tables sets for the orders that write it. -/
namespace Sys2Proof.Machine

/-! Where a write goes -/

/-- The 8-byte word and the bits an offset names: an offset of 4 modulo 8 names the upper half. -/
def wordOff (off : Nat) : Nat := off - off % 8
def halfShift (off : Nat) : Nat := if off % 8 = 4 then 32 else 0

/-- The order-writable bits of a word. -/
def owBits (off : Nat) : W64 := match descAt off with | some d => typeMask .ow d.fields | none => 0

/-- A register's word as orders see it: for the line framer the last value written, whether or not it has taken effect (R106). -/
def latest (s : State) (off : Nat) : W64 :=
  if off = Reg.LR_CFG then s.lamp.cfg
  else match (s.lfr.waiting.filter (fun w => w.1 == off)).getLast? with
    | some w => w.2
    | none => s.reg off

/-- The state with every waiting write of the line framer in effect. -/
def settledLfr (s : State) : State := s.lfr.waiting.foldl (fun s w => lfrApply w.1 w.2 s) s

/-! The line framer (R73, R83, R93, R102, R104, R299, R485) -/

/-- No element comes twice. -/
def distinct : List Nat → Bool
  | [] => true
  | a :: t => !t.contains a && distinct t

/-- An enabled trunk of a direction has a width the table knows, a line lane for every place, all in code-7 groups at its lane rate. -/
def trunkSound (s : State) (n width rate : Nat) (on : Bool) : Bool :=
  !on || (width != 0 && (List.range width).all (fun i => match trunkLane s n i with
    | some l => framed s l && b2n (laneFast s (lineGroup l)) == rate
    | none => false))

/-- Trunks whose derived keys could meet: two enabled transmit trunks with one base slot have two selectors (R93; log entry 127). -/
def tselClash (s : State) (n m : Nat) : Bool :=
  n != m && txOn s n && txOn s m && txCfg s n Fd.LFR_TRUNK_CFG_DERIVE == 1 && txCfg s m Fd.LFR_TRUNK_CFG_DERIVE == 1 &&
  txCfg s n Fd.LFR_TRUNK_CFG_BASE_SLOT == txCfg s m Fd.LFR_TRUNK_CFG_BASE_SLOT && txCfg s n Fd.LFR_TRUNK_CFG_TSEL == txCfg s m Fd.LFR_TRUNK_CFG_TSEL

def trunkRate (s : State) (dir n : Nat) : Nat := if dir = 0 then txCfg s n Fd.LFR_TRUNK_CFG_RATE else rxCfg s n Fd.LFR_TRUNK_RXCFG_RATE

/-- What an enabled tributary must be (R83, R102, R104, R485). -/
def tribSound (s : State) (dir t : Nat) : Bool :=
  let n := tribTrunk s dir t
  let map := mapOf s dir t
  !tribOn s dir t ||
  (remapFits s dir t map && (boundLine s (tribClient s dir t)).isNone &&
    (!tribMerge s dir t ||
      (tribMate s dir t != n && trunkRate s dir (tribMate s dir t) == trunkRate s dir n && trunkWidth s dir (tribMate s dir t) == trunkWidth s dir n)) &&
    (dir == 0 || decide (1 ≤ tribF s dir t Fd.LFR_TRIB_CFG_MERGE_WAIT) && decide (tribF s dir t Fd.LFR_TRIB_CFG_MERGE_WAIT ≤ 250)))

/-- The whole configuration of the line framer keeps its rules. -/
def lfrSound (s : State) : Bool :=
  (List.range 16).all (fun n =>
    trunkSound s n (txWidth s n) (txCfg s n Fd.LFR_TRUNK_CFG_RATE) (txOn s n) &&
    trunkSound s n (rxWidth s n) (rxCfg s n Fd.LFR_TRUNK_RXCFG_RATE) (rxOn s n) &&
    (List.range 16).all (fun m => !tselClash s n m)) &&
  distinct ((trunkLanes s).map (fun e => e.2)) && decide (sideRate s 1 ≤ sideLimit s) &&
  (List.range 64).all (fun t => tribSound s 0 t && tribSound s 1 t)

/-- A value of MERGE_WAIT outside 1 to 250 or a WIDTH above 4 is refused on a disabled unit too (log entry 86). -/
def lfrRange (off : Nat) (v : W64) : Bool :=
  if off < 0x401000 then (if off % 0x100 = 0 ∨ off % 0x100 = 0x30 then decide (fget v Fd.LFR_TRUNK_CFG_WIDTH ≤ 4) else true)
  else if off < 0x406000 then
    decide (1 ≤ fget v Fd.LFR_TRIB_CFG_MERGE_WAIT) && decide (fget v Fd.LFR_TRIB_CFG_MERGE_WAIT ≤ 250)
  else decide (10 ≤ fget v Fd.LFR_TUB_FLUSH_FLUSH) && decide (fget v Fd.LFR_TUB_FLUSH_FLUSH ≤ 10000)

/-- A register of the line framer that only its own order changes: EPOCH_RX_SET and TRIB_REMAP (R85, R224). -/
def lfrOwn (off : Nat) : Bool := if off < 0x401000 then off % 0x100 == 0x28 else decide (off < 0x406000) && off % 0x40 != 0

/-! Bindings of ports (R485) -/

/-- A client port's TBL_PORT_CFG word keeps the bindings one to one, and no rule is left to send frames outside the new binding (R11). -/
def bindSound (s : State) (p : Nat) (v : W64) : Bool :=
  fget v Fd.TBL_PORT_CFG_BIND_EN == 0 ||
  ((List.range 32).all (fun q => q == p || boundLine s q != some (fget v Fd.TBL_PORT_CFG_BIND_LINE)) &&
    (tribsOf (settledLfr s) 0 p).isEmpty && (tribsOf (settledLfr s) 1 p).isEmpty && rulesKept s (s.setReg (Reg.TBL_PORT_CFG p) v))

/-! Domains (R142) -/

def domSound (s : State) (d : Nat) (v : W64) : Bool :=
  let m := fget v Fd.GAL_DOM_CFG_BACKLOG_MAX
  let others := ((List.range 112).map (fun i => if i = d then 0 else domF s i Fd.GAL_DOM_CFG_BACKLOG_MAX)).sum
  decide (256 ≤ fget v Fd.GAL_DOM_CFG_TAG_MAX) && decide (fget v Fd.GAL_DOM_CFG_TAG_MAX ≤ 65536) && decide (16 ≤ m) && decide (m ≤ 16384) &&
  decide (fget v Fd.GAL_DOM_CFG_BACKLOG_XON < fget v Fd.GAL_DOM_CFG_BACKLOG_XOFF) && decide (fget v Fd.GAL_DOM_CFG_BACKLOG_XOFF < m) &&
  decide (others + m ≤ 16384)

/-! Ranges of every other register (the register tables; log entry 86) -/

/-- A value lies between two bounds. -/
def within (lo hi n : Nat) : Bool := decide (lo ≤ n) && decide (n ≤ hi)

/-- A source of a recovered-clock output: a lane that is present, or SYSCLK. -/
def rclkOk (s : State) (n : Nat) : Bool := (decide (n < 0x40) && groupPresent s (n / 8)) || n == 0xFF

/-- Blocks 0 to 8: host, power, lanes, MACs, line framer, MACsec, tables, galleries, strongroom. -/
def rangeLow (s : State) (off : Nat) (v : W64) : Bool :=
  if off < 0x100000 then true
  else if off < 0x200000 then decide (fget v Fd.PWR_CFG_PROFILE_ASSOC ≤ 8192)
  else if off < 0x208000 then fget v Fd.LAN_LANE_CFG_TX_PRECODE != 3 && fget v Fd.LAN_LANE_CFG_RX_PRECODE != 3
  else if off < 0x300000 then true
  else if off < 0x400000 then within 1518 16383 (fget v Fd.MAC_PORT_CFG_MAX_LEN)
  else if off < 0x500000 then (let t := settledLfr s
     let u := lfrApply off v t
     !lfrOwn off && lfrRange off v && lfrSound u && rulesKept t u)
  else if off < 0x600000 then off % 0x100 != 0 || off == Reg.MSC_TPID || fget v Fd.MSC_PORT_CFG_CLEAR_TAGS != 3
  else if off = Reg.TBL_CFG then
    decide (fget v Fd.TBL_CFG_MOVE_HOLD ≤ 1000) && decide (fget v Fd.TBL_CFG_UDF0_OFF ≤ 248) && decide (fget v Fd.TBL_CFG_UDF1_OFF ≤ 248)
  else if off < 0x700000 then (if off < 0x600200 then bindSound s ((off - 0x600100) / 8) v else true)
  else if off = Reg.GAL_EPOCH then false
  else if off = Reg.GAL_CFG then
    within 16 4096 (fget v Fd.GAL_CFG_STEP_MAX) && within 10 1000 (fget v Fd.GAL_CFG_SCREEN_TMO) && decide (fget v Fd.GAL_CFG_LA_SHARE ≤ 32)
  else if off < 0x800000 then domSound s ((off - 0x701000) / 16) v
  else decide (1 ≤ fget v Fd.SRM_CFG_SWEEP)

/-- Blocks 9 to 14: winder, buffer memory, gate, time, twin, guard. -/
def rangeHigh (s : State) (off : Nat) (v : W64) : Bool :=
  if off = Reg.WND_TG_CFG then decide (1 ≤ fget v Fd.WND_TG_CFG_STALE_CYCLES)
  else if off = Reg.WND_DN_CFG then decide (fget v Fd.WND_DN_CFG_RATE ≤ 1000000)
  else if off < 0x901000 then true
  else if off < 0xA00000 then
    (let q := (off - 0x901000) / 0x80
     let word := fun k => if off % 0x80 = k then v else s.reg (Reg.Q_LIMITS q + k)
     queueFits s q (word 0) (word 8) (word 0x10))
  else if off = Reg.MEM_CFG then
    within 1 168 (fget v Fd.MEM_CFG_SCRUB_PERIOD) && within 1 32 (fget v Fd.MEM_CFG_REKEY_RATE) && within 1 100 (fget v Fd.MEM_CFG_COALESCE)
  else if off < 0xA01000 then true
  else if off < 0xB00000 then
    (let n := fget v Fd.MEM_START_START
     within 256 (effMax s ((off - 0xA01000) / 8)) n && n % 256 == 0)
  else if off = Reg.GATE_CFG then within 1 1000 (fget v Fd.GATE_CFG_MAX_WAIT) && within 10 32 (fget v Fd.GATE_CFG_RESERVE)
  else if off < 0xC00000 then
    (if off % 0x40 = 0 then fget v Fd.GATE_FLOW_CFG_VALID == 0 || (fget v Fd.GATE_FLOW_CFG_SETS != 0 && fget v Fd.GATE_FLOW_CFG_BURST != 0)
     else decide (fget v Fd.GATE_FLOW_RATE_RATE ≤ 250000))
  else if off = Reg.TIM_CFG then within 1 50 (fget v Fd.TIM_CFG_PTP_LEAD) && within 1 60 (fget v Fd.TIM_CFG_LOCK_TMO)
  else if off = Reg.TIM_RCLK then rclkOk s (fget v Fd.TIM_RCLK_SRC0) && rclkOk s (fget v Fd.TIM_RCLK_SRC1)
  else if off < 0xD00000 then true
  else if off = Reg.TWN_CFG then
    within 1 1000 (fget v Fd.TWN_CFG_START_WAIT) && decide (fget v Fd.TWN_CFG_MIRROR_LO ≤ fget v Fd.TWN_CFG_MIRROR_HI)
  else if off = Reg.TWN_DOUT_SRC then (List.range 8).all (fun i => decide (nbits v.toNat (8 * i + 5) 3 ≤ 5))
  else if off < 0xD00100 then true
  else if off < 0xD02000 then fget v Fd.TWN_XC_BIND_REPL == 0 || fget v Fd.TWN_XC_BIND_PROXY == 0
  else if off < 0xE00000 then within 1 64 (fget v Fd.TWN_ELIM_CFG_HISTORY) && fget v Fd.TWN_ELIM_CFG_RESET_MS != 0
  else if off = Reg.LR_CFG then within 1 100 (fget v Fd.LR_CFG_POLL)
  else if off = Reg.TLY_CFG then decide (1 ≤ fget v Fd.TLY_CFG_BURST) && within 1 60000 (fget v Fd.TLY_CFG_REFILL)
  else true

def regRange (s : State) (off : Nat) (v : W64) : Bool := if off < 0x900000 then rangeLow s off v else rangeHigh s off v

/-- What makes a change busy: a running transmit SC (R67), keys that would change range (R138). -/
def regBusy (s : State) (off : Nat) (old v : W64) : Option Claim :=
  if 0x500000 ≤ off ∧ off < 0x502000 ∧ off % 0x100 = 0 then
    (if (old ^^^ v) &&& 0xF ≠ 0 ∧ scRunning s ((off - 0x500000) / 0x100) then some (noHolder (.group (4 + (off - 0x500000) / 0x800))) else none)
  else if off = Reg.SRM_CFG then
    (let a := min (fget old Fd.SRM_CFG_PIN_TOP) (fget v Fd.SRM_CFG_PIN_TOP)
     let b := max (fget old Fd.SRM_CFG_PIN_TOP) (fget v Fd.SRM_CFG_PIN_TOP)
     (s.vault.slots.find? (fun e => decide (a ≤ e.1) && decide (e.1 < b) && e.2.valid)).map (fun e => noHolder (.slot e.1)))
  else none

/-! Monitor levels (R422) -/

def setLevel (m level : Nat) (s : State) : State := syncLamp (s.setFld (Reg.TMP_LEVEL m) Fd.TMP_LEVEL_LEVEL level)

def levelOrder (m level : Nat) (s : State) : OrdAns × State :=
  if 24 ≤ m ∨ 4 < level then ordSt St.UNSUPPORTED s
  else if level < floorOf s m then ordSt St.DENIED s
  else ordOk (setLevel m level s)

def levelSetBody : OrdBody := fun o s => levelOrder (o.arg 0) (o.arg 1) s
/-- LEVEL_SET (R422). -/
def execLevelSet (o : OrdBy) (monitor level : W64) (s : State) : Ans := .next (orderRow 0xB02 levelSetBody o [monitor, level] s)

/-! What a write changes beyond its word -/

/-- A recovered-clock output whose new source lane is not UP is held low (R351). -/
def rclkNamed (old v : W64) (k : Nat) (s : State) : State :=
  let f : Fld := if k = 0 then Fd.TIM_RCLK_SRC0 else Fd.TIM_RCLK_SRC1
  if fget v f ≠ fget old f ∧ fget v f < 64 ∧ !laneUp s (fget v f) then event Ev.RCLK_SQUELCH [k, fget v f] s else s

/-- TLY_CFG.BURST clips every fuller bucket at once (R435). -/
def clipBuckets (burst : Nat) (s : State) : State :=
  { s with guard := { s.guard with
      bucketBase := min burst s.guard.bucketBase
      buckets := tmap (fun _ => min burst s.guard.bucketBase) (fun _ n => min burst n) s.guard.buckets } }

/-- A gate flow's bucket is clipped to a new BURST (R332); a flow that ends drops its frames (R342). -/
def flowChanged (f : Nat) (s : State) : State :=
  if flowF s f Fd.GATE_FLOW_CFG_VALID = 0 then dropEntries (fun g => g.flow == f) 0x12 s
  else setGateTokens f (min (gateTokens s f) (flowF s f Fd.GATE_FLOW_CFG_BURST * 1000000000)) s

/-- FILL_EN (Table 04.15): at 0 the fills asked for stop, at 1 every parked miss asks again. -/
def fillSwitch (old v : W64) (s : State) : State :=
  if fget v Fd.SRM_CFG_FILL_EN = 0 then { s with vault := { s.vault with fills := [] } }
  else if fget old Fd.SRM_CFG_FILL_EN = 0 then askAgain s else s

/-- The write takes effect. -/
def regApply (off : Nat) (old v : W64) (s : State) : State :=
  if 0x400000 ≤ off ∧ off < 0x500000 then lfrWrite off v s
  else if off = Reg.LR_CFG then { s with lamp := { s.lamp with cfg := v } }
  else
    let s := s.setReg off v
    if 0x600200 ≤ off ∧ off < 0x600300 then s.setReg off (v &&& 0x1FFFFFFFFFFFF)
    else if 0x701000 ≤ off ∧ off < 0x702000 then backlogPfc ((off - 0x701000) / 16) s
    else if 0x900100 ≤ off ∧ off < 0x900200 then backlogPfc ((off - 0x900100) / 8) s
    else if off = Reg.SRM_CFG then fillSwitch old v s
    else if off = Reg.WND_DN_CFG then s.setReg off (v &&& ~~~ 0xC0000100000000)
    else if 0xB10000 ≤ off ∧ off < 0xB20000 then flowChanged ((off - 0xB10000) / 0x40) s
    else if off = Reg.TIM_RCLK then rclkNamed old v 1 (rclkNamed old v 0 s)
    else if off = Reg.TWN_CFG then
      (if fget old Fd.TWN_CFG_TWIN_EN = 0 then (if fget v Fd.TWN_CFG_TWIN_EN = 1 then twinStart s else s)
       else if fget v Fd.TWN_CFG_TWIN_EN = 0 then twinStop s else s)
    else if off = Reg.TLY_CFG then clipBuckets (fget v Fd.TLY_CFG_BURST) s
    else s

/-- A group's word: GROUPING and RATE as PORT_GROUP has it (R300), the rest at once. -/
def groupWrite (G : Nat) (old v : W64) (s : State) : OrdAns × State :=
  let rest := fun (s : State) => s.setReg (Reg.LAN_GRP_CFG G) ((s.reg (Reg.LAN_GRP_CFG G) &&& 0xF) ||| (v &&& ~~~ (0xF : W64)))
  if (old ^^^ v) &&& 0xF = 0 then ordOk (rest s)
  else match regroup G (fget v ⟨0, 4⟩) s with
    | (.done st rs, s') => (.done st rs, if st = St.OK then rest s' else s')
    | x => x

def regWriteBody : OrdBody := fun o s =>
  let off := wordOff (o.arg 0)
  let m := (o.argW 2 <<< halfShift (o.arg 0)) &&& owBits off
  let old := latest s off
  let v := (old &&& ~~~ m) ||| ((o.argW 1 <<< halfShift (o.arg 0)) &&& m)
  if 0xF00000 ≤ o.arg 0 ∨ o.arg 0 % 4 ≠ 0 ∨ owBits off = 0 ∨ absentUnit s off = true then ordSt St.UNSUPPORTED s
  else if 0x208000 ≤ off ∧ off < 0x208040 then groupWrite ((off - 0x208000) / 8) old v s
  else if 0xE00100 ≤ off ∧ off < 0xE00200 then levelOrder ((off - 0xE00100) / 8) (fget v Fd.TMP_LEVEL_LEVEL) s
  else if !regRange s off v then ordSt St.UNSUPPORTED s
  else match regBusy s off old v with
    | some c => (.busy c, s)
    | none => ordOk (regApply off old v s)

/-- REG_WRITE (R224). -/
def execRegWrite (o : OrdBy) (off value mask : W64) (s : State) : Ans := .next (orderRow 0xA01 regWriteBody o [off, value, mask] s)

/-- The value is returned in g16; fields of type RC then change as at any read (R9). -/
def regReadBody : OrdBody := fun o s =>
  if 0xF00000 ≤ o.arg 0 ∨ o.arg 0 % 4 ≠ 0 then ordSt St.UNSUPPORTED s
  else (.done St.OK [(16, readReg s (wordOff (o.arg 0)) >>> halfShift (o.arg 0))], afterRead (wordOff (o.arg 0)) s)

/-- REG_READ (R224). -/
def execRegRead (o : OrdBy) (off : W64) (s : State) : Ans := .next (orderRow 0xA02 regReadBody o [off] s)

end Sys2Proof.Machine
end

