-- ==== Sys2Proof/Machine/Tables.lean ====
section
/-! DEFINITION. The table orders (R232 to R245). -/
namespace Sys2Proof.Machine

/-! What a record may hold -/

/-- An SCI entry that the part accepts (R234): bits [40:0] of its result. -/
def sciFits (s : State) (port : Nat) (res : W64) : Bool :=
  let rx := arec s (nbits res.toNat 0 20)
  let tx := arec s (nbits res.toNat 20 20)
  rx.c AC.DIR == 1 && rx.c AC.PORT == port && (!nbit res.toNat 40 || (tx.c AC.DIR == 0 && tx.c AC.PORT == port))

def peerResFits (res : Nat) : Bool := decide (res < 2 ^ 28)

/-! The arbiter (R240) -/

/-- The learns that reached table 0's arbiter before an order of that table commit before it. -/
def settleLearns (t : Nat) (s : State) : State :=
  if t = 0 then s.cls.learnQ.foldl (fun s l => commitLearn l s) { s with cls := { s.cls with learnQ := [] } } else s

/-! TBL_ADD (R234, R236 to R238) -/

def addPeer (key : Nat) (res : W64) (s : State) : OrdAns × State :=
  let now := tblStamp s
  match findPeer s key with
  | some (i, p) => ordOk (setPeer i { p with res := res, hit := now, learned := now, contendedAt := none } s)
  | none => match placeIn s.cls.peers (peerBuckets key) with
    | some i => ordOk (setPeer i ⟨key, res, now, now, false, none⟩ s)
    | none => ordSt St.FULL s

def setSci (i : Nat) (e : SciEnt) (s : State) : State := { s with cls := { s.cls with scis := tset s.cls.scis i e } }

def addSci (port sci : Nat) (res : W64) (s : State) : OrdAns × State :=
  match findSci s port sci with
  | some (i, e) => ordOk (setSci i { e with res := res } s)
  | none => match placeIn s.cls.scis (sciBuckets port sci) with
    | some i => ordOk (setSci i ⟨port, sci, res, false⟩ s)
    | none => ordSt St.FULL s

def tblAddBody : OrdBody := fun o s =>
  let r := o.arg 2
  if o.arg 0 = 0 then
    if 2 ^ 60 ≤ o.arg 1 ∨ !peerResFits r then ordSt St.UNSUPPORTED s else addPeer (o.arg 1) (o.argW 2) (settleLearns 0 s)
  else if o.arg 0 = 2 then
    let port := nbits r 41 5
    let res := BitVec.ofNat 64 (nbits r 0 41)
    if 2 ^ 46 ≤ r ∨ !sciFits s port res then ordSt St.UNSUPPORTED s else addSci port (o.arg 1) res s
  else ordSt St.UNSUPPORTED s

/-- TBL_ADD (Table 07.9). -/
def execTblAdd (o : OrdBy) (table key result : W64) (s : State) : Ans := .next (orderRow 0x301 tblAddBody o [table, key, result] s)

/-! TBL_DEL_IF (R241) -/

def delPeer (key stamp : Nat) (s : State) : OrdAns × State :=
  match findPeer s key with
  | some (i, p) => if p.hit < stamp then ordOk { s with cls := { s.cls with peers := tdel s.cls.peers i } } else ordSt St.HIT_RACE s
  | none => ordSt St.NOT_FOUND s

def delSci (port sci : Nat) (s : State) : OrdAns × State :=
  match findSci s port sci with
  | some (i, _) => ordOk { s with cls := { s.cls with scis := tdel s.cls.scis i } }
  | none => ordSt St.NOT_FOUND s

def tblDelIfBody : OrdBody := fun o s =>
  if o.arg 0 = 0 then delPeer (o.arg 1) (o.arg 2) (settleLearns 0 s)
  else if o.arg 0 = 2 then (if 32 ≤ o.arg 2 then ordSt St.UNSUPPORTED s else delSci (o.arg 2) (o.arg 1) s)
  else ordSt St.UNSUPPORTED s

/-- TBL_DEL_IF (Table 07.9). -/
def execTblDelIf (o : OrdBy) (table key stamp : W64) (s : State) : Ans := .next (orderRow 0x302 tblDelIfBody o [table, key, stamp] s)

/-! Records (Table 08.7) -/

/-- Entries of a table. -/
def tblSize (t : Nat) : Nat := if t = 0 then 262144 else if t = 1 then 8192 else if t = 2 then 65536 else 0

/-- Where record i of an order lies: its cell and its offset. -/
def recAt (t first i : Nat) : Nat × Nat := (first + i / perCell t, recSize t * (i % perCell t))

/-- Where record i of an order lies in memory. -/
def recAddr (t first i : Nat) : Nat := landingAt (recAt t first i).1 + (recAt t first i).2

/-- What keeps an order from reading its records (Table 10.3). -/
def recsBar (o : OrdReq) (s : State) (t first n : Nat) : Option (OrdAns × State) :=
  readBar o (recCells t first n) ((List.range n).flatMap (fun i => cellsOf (recAddr t first i) (recSize t))) s

def recBytes (s : State) (t first i : Nat) : Bytes :=
  memBytes s (landingAt (recAt t first i).1 + (recAt t first i).2) (recSize t)

/-- One record as its parts. -/
structure TblRec where
  index : Nat
  valid : Bool
  key : Nat
  port : Nat
  mask : Nat
  res : W64
  deriving DecidableEq, Repr

def parseRec (t : Nat) (b : Bytes) : TblRec :=
  let i := be b 0 4
  let v := nbit (be b 4 1) 0
  if t = 0 then ⟨i, v, peerKey (be b 14 2) (be b 8 6), 0, 0, BitVec.ofNat 64 (be b 16 8)⟩
  else if t = 1 then ⟨i, v, be b 8 40, 0, be b 48 40, BitVec.ofNat 64 (be b 88 8)⟩
  else ⟨i, v, be b 8 8, be b 16 1, 0, BitVec.ofNat 64 (be b 24 8)⟩

/-- The bucket of an index is one of the key's. -/
def inBucket (i : Nat) (b : Nat × Nat) : Bool := i / 8 == b.1 || i / 8 == b.2

/-- A record that stands by itself (R232, R234, R242). -/
def recFits (s : State) (t : Nat) (r : TblRec) : Bool :=
  decide (r.index < tblSize t) && (!r.valid ||
    (if t = 0 then decide (r.key < 2 ^ 60) && peerResFits r.res.toNat && inBucket r.index (peerBuckets r.key) &&
        (match findPeer s r.key with | some (i, _) => i == r.index | none => true)
     else if t = 1 then ruleFits s r.key r.mask r.res
     else decide (r.port < 32) && decide (r.res.toNat < 2 ^ 41) && inBucket r.index (sciBuckets r.port r.key) && sciFits s r.port r.res &&
        (match findSci s r.port r.key with | some (i, _) => i == r.index | none => true)))

/-- No record names the index, or in a keyed table the key, of another. -/
def recsDistinct (t : Nat) : List TblRec → Bool
  | [] => true
  | r :: rest => rest.all (fun x => x.index != r.index && (t == 1 || !x.valid || !r.valid || x.key != r.key || x.port != r.port)) && recsDistinct t rest

/-- One entry is written or cleared. -/
def writeRec (t : Nat) (s : State) (r : TblRec) : State :=
  let now := tblStamp s
  if t = 0 then { s with cls := { s.cls with peers := if r.valid then tset s.cls.peers r.index ⟨r.key, r.res, now, now, false, none⟩ else tdel s.cls.peers r.index } }
  else if t = 1 then { s with cls := { s.cls with rules := if r.valid then tset s.cls.rules r.index ⟨r.key, r.mask, r.res, false⟩ else tdel s.cls.rules r.index } }
  else { s with cls := { s.cls with scis := if r.valid then tset s.cls.scis r.index ⟨r.port, r.key, r.res, false⟩ else tdel s.cls.scis r.index } }

/-- Is the entry at an index locked (R243). -/
def recLocked (s : State) (t i : Nat) : Bool :=
  if t = 0 then (match tfind s.cls.peers i with | some p => p.lock | none => false)
  else if t = 1 then (match tfind s.cls.rules i with | some p => p.lock | none => false)
  else (match tfind s.cls.scis i with | some p => p.lock | none => false)

/-! TBL_DMA_WRITE (R242, R243) -/

def tblDmaWriteBody : OrdBody := fun o s =>
  let t := o.arg 0
  let n := o.arg 2
  if 3 ≤ t ∨ tblSize t < n then ordSt St.UNSUPPORTED s
  else if (recsBar o s t (o.arg 1) n).isSome then (recsBar o s t (o.arg 1) n).getD (ordSt St.CELL_FAULT s)
  else
    let rs := (List.range n).map (fun i => parseRec t (recBytes s t (o.arg 1) i))
    let s := settleLearns t s
    if !(rs.all (recFits s t) && recsDistinct t rs) then ordSt St.UNSUPPORTED s
    else if rs.any (fun r => recLocked s t r.index) then ordSt St.BUSY s
    else ordOk (rs.foldl (writeRec t) s)

/-- TBL_DMA_WRITE (R243): locks and writes its entries inside one step, and is refused where an entry is locked (log entry 64). -/
def execTblDmaWrite (o : OrdBy) (table cell entries : W64) (s : State) : Ans := .next (orderRow 0x303 tblDmaWriteBody o [table, cell, entries] s)

/-! TBL_COMPARE (R244) -/

/-- The entry at a record's index holds what the record says. -/
def recSame (s : State) (t : Nat) (r : TblRec) : Bool :=
  if t = 0 then (match tfind s.cls.peers r.index with | some p => r.valid && p.key == r.key && p.res == r.res | none => !r.valid)
  else if t = 1 then (match tfind s.cls.rules r.index with | some p => r.valid && p.value == r.key && p.mask == r.mask && p.res == r.res | none => !r.valid)
  else (match tfind s.cls.scis r.index with | some p => r.valid && p.port == r.port && p.sci == r.key && p.res == r.res | none => !r.valid)

/-- One shadow record: the differences so far, those skipped, and its CMP byte written. A record that a DMA write would refuse is not repaired (log entry 63). -/
def compareOne (t first : Nat) (repair : Bool) (acc : Nat × Nat × State) (i : Nat) : Nat × Nat × State :=
  let (d, k, s) := acc
  let r := parseRec t (recBytes s t first i)
  let at_ := landingAt (recAt t first i).1 + (recAt t first i).2 + 5
  let put := fun (v : Nat) (s : State) => (memWrite at_ [BitVec.ofNat 8 v] .good s).2
  if recLocked s t r.index then (d, k + 1, put 3 s)
  else if recSame s t r then (d, k, put 0 s)
  else if repair && recFits s t r then (d + 1, k, put 2 (writeRec t s r))
  else (d + 1, k, put 1 s)

def tblCompareBody : OrdBody := fun o s =>
  let t := o.arg 0
  let n := o.arg 2
  if 3 ≤ t ∨ tblSize t < n ∨ 1 < o.arg 3 then ordSt St.UNSUPPORTED s
  else if (recsBar o s t (o.arg 1) n).isSome then (recsBar o s t (o.arg 1) n).getD (ordSt St.CELL_FAULT s)
  else if !(List.range n).all (fun i => decide ((parseRec t (recBytes s t (o.arg 1) i)).index < tblSize t)) then ordSt St.UNSUPPORTED s
  else
    let (d, k, s) := (List.range n).foldl (compareOne t (o.arg 1) (o.arg 3 == 1)) (0, 0, if o.arg 3 = 1 then settleLearns t s else s)
    (.done St.OK [res 0 d, res 1 k], event Ev.COMPARE_DONE [t, n, d, k] s)

/-- TBL_COMPARE (Table 07.9). -/
def execTblCompare (o : OrdBy) (table cell entries repair : W64) (s : State) : Ans :=
  .next (orderRow 0x304 tblCompareBody o [table, cell, entries, repair] s)

/-! TBL_READ (R242) -/

/-- The record of the entry at an index; an empty entry reads zeros behind its index. -/
def recOf (s : State) (t i : Nat) : Bytes :=
  let head := fun (v : Bool) => natBe 4 i ++ natBe 1 (b2n v) ++ zeros 3
  if t = 0 then (match tfind s.cls.peers i with
    | some p => head true ++ natBe 6 (p.key % 2 ^ 48) ++ natBe 2 (p.key / 2 ^ 48) ++ natBe 8 p.res.toNat ++ natBe 6 p.hit ++ zeros 2
    | none => head false ++ zeros 24)
  else if t = 1 then (match tfind s.cls.rules i with
    | some r => head true ++ natBe 40 r.value ++ natBe 40 r.mask ++ natBe 8 r.res.toNat
    | none => head false ++ zeros 88)
  else (match tfind s.cls.scis i with
    | some e => head true ++ natBe 8 e.sci ++ natBe 1 e.port ++ zeros 7 ++ natBe 8 e.res.toNat
    | none => head false ++ zeros 24)

/-- Records written cell by cell. -/
def readOut (t index first : Nat) : Nat → Nat → State → Bool × State
  | 0, _, s => (true, s)
  | left + 1, i, s =>
    let (ok, s) := memWrite (landingAt (recAt t first i).1 + (recAt t first i).2) (recOf s t (index + i)) .good s
    if ok then readOut t index first left (i + 1) s else (false, s)

def tblReadBody : OrdBody := fun o s =>
  let t := o.arg 0
  let n := o.arg 2
  if 3 ≤ t ∨ tblSize t < o.arg 1 + n then ordSt St.UNSUPPORTED s
  else if !(recCells t (o.arg 3) n).all (ordCellOk o s) then ordSt St.CELL_FAULT s
  else
    let (ok, s) := readOut t (o.arg 1) (o.arg 3) n 0 s
    ordSt (if ok then St.OK else St.ABORTED) s

/-- TBL_READ (Table 07.9). -/
def execTblRead (o : OrdBy) (table index count cell : W64) (s : State) : Ans := .next (orderRow 0x305 tblReadBody o [table, index, count, cell] s)

end Sys2Proof.Machine
end

