-- ==== Sys2Proof/Machine/Programs.lean ====
section
/-! DEFINITION. Management-program bundles from the doorbell to their completion (R213 to R221, R397, R447). -/
namespace Sys2Proof.Machine

/-! Signer records (R215; layout: log entry 60) -/

/-- A signer record: key id, flags, the two masks and the two public keys. -/
def signerLen : Nat := 2699
def parseSigner (b : Bytes) : Signer :=
  ⟨be b 0 4, nbit (be b 4 2) 0, nbit (be b 4 2) 1, nbit (be b 4 2) 2, be b 6 2 % 2 ^ 11, be b 8 2, slice b 10 97, slice b 107 2592, 0⟩

def signerOf (s : State) (id : Nat) : Option Signer := s.attic.signers.find? (fun x => x.keyId == id)

/-- The highest SEQ accepted from a signer, those whose attic write waits included (R216). -/
def lastSeqOf (s : State) (x : Signer) : Nat :=
  (s.fore.accepted.filter (fun b => b.signer == x.keyId)).foldl (fun m b => max m b.seq) x.lastSeq

/-! Reading a bundle (R213) -/

/-- The header and program table fit R213. `room` is what the cells hold. -/
def entryFits (b : Bytes) (count sig i : Nat) : Bool :=
  let e := 64 + 16 * i
  let off := be b e 4
  let n := be b (e + 4) 2
  let aoff := be b (e + 8) 4
  let alen := be b (e + 12) 4
  be b (e + 6) 2 == 0 && decide (1 ≤ n) && decide (n ≤ 8192) && off % 8 == 0 && decide (64 + 16 * count ≤ off) && decide (off + 8 * n ≤ sig) &&
  (if alen = 0 then aoff == 0 else aoff % 8 == 0 && decide (64 + 16 * count ≤ aoff) && decide (aoff + alen ≤ sig))

def bundleFits (b : Bytes) (room : Nat) : Bool :=
  let count := be b 6 1
  let sig := be b 24 4
  be b 0 4 == 0x4E4D5042 && be b 4 1 == 1 && be b 5 1 == 1 && decide (1 ≤ count) && decide (count ≤ 16) && decide (be b 7 1 ≤ 1) &&
  be b 28 4 == 0 && be b 48 16 == 0 && sig % 8 == 0 && be b 8 4 == sig + 4723 && decide (be b 8 4 ≤ room) && decide (64 + 16 * count ≤ sig) &&
  (List.range count).all (entryFits b count sig) &&
  decide (((List.range count).map (fun i => be b (64 + 16 * i + 12) 4)).sum ≤ 16 * 2 ^ 20)

def progOf (b : Bytes) (i : Nat) : Prog :=
  let e := 64 + 16 * i
  ⟨codeOf (be b (e + 4) 2) (b.drop (be b e 4)), slice b (be b (e + 8) 4) (be b (e + 12) 4)⟩

def bundleOf (b : Bytes) (ticket fn first cells result limit : Nat) : Bundle :=
  ⟨ticket, fn, first, cells, result, limit, be b 12 4, be b 16 8, be b 32 16, nbit (be b 7 1) 0, false,
   (List.range (be b 6 1)).map (progOf b), b.take (be b 8 4), be b 24 4⟩

/-! Refusal and completion (R217, R397) -/

/-- The cells of a bundle and of its results. -/
def bundleCells (b : Bundle) : List Nat := (List.range b.cells).map (b.first + ·) ++ (List.range b.progs.length).map (b.result + ·)

/-- A bundle is over: its cells go back, then its completion entry is written. -/
def bundleOver (b : Bundle) (status ran : Nat) (s : State) : State :=
  let s := handBack (ownCells s b.fn (bundleCells b)) s
  pushCpl b.fn (1 + status * 2 ^ 8 + b.result * 2 ^ 16 + b.first * 2 ^ 32 + ran % 32 * 2 ^ 48) b.seq s

/-- MP_REFUSED: evidence only for BAD_SIGNATURE (Table 07.12). -/
def refusedEvent (b : Bundle) (status : Nat) (s : State) : State :=
  let vals := [b.signer * 2 ^ 32 + b.fn, b.seq, status]
  if status = St.BAD_SIGNATURE then event Ev.MP_REFUSED vals s
  else record (mkRec Ev.MP_REFUSED (evInfo Ev.MP_REFUSED).1 false 0 0 0 (evData vals) s) s

def refuseBundle (b : Bundle) (status : Nat) (s : State) : State := bundleOver b status 0 (refusedEvent b status s)

/-! Checks 1 to 5 (Table 07.6) -/

/-- A part may take a bundle of a signer: a function of its mask; ADMIN in Recovery (R445), which the record of R447 is to have (Table 17.2); no signer in Retired (R448; log entry 61). -/
def signerTakes (s : State) (x : Signer) (fn : Nat) : Bool := nbit x.fnMask fn && (s.mode != 4 || x.admin || s.attic.lifecycle == 0) && s.attic.lifecycle != 3

/-- The record a Blank part's bundle brings (R447). -/
def blankSigner (s : State) (b : Bundle) : Option Signer :=
  let att := (b.progs.getD 0 ⟨[], []⟩).att
  let x := parseSigner att
  if s.attic.lifecycle = 0 ∧ b.target = s.serial ∧ signerLen ≤ att.length ∧ x.keyId = b.signer then some x else none

/-- The signer a bundle is checked against, and whether it is the bundle of R447. A part in Blank takes no other bundle, whatever its table holds (R2). -/
def signerFor (s : State) (b : Bundle) : Option (Signer × Bool) :=
  match signerOf s b.signer with
  | some x => if s.attic.lifecycle = 0 then none else some (x, false)
  | none => (blankSigner s b).map (fun x => (x, true))

def targetFits (s : State) (b : Bundle) : Bool := b.target == 0 || b.target == s.serial

/-- Checks 3 to 5: none when they pass. -/
def signerCheck (s : State) (b : Bundle) : Option Nat :=
  if !targetFits s b then some St.BAD_FORMAT
  else match signerFor s b with
    | none => some St.NO_SIGNER
    | some (x, _) => if !signerTakes s x b.fn then some St.NO_SIGNER else if b.seq ≤ lastSeqOf s x then some St.SEQ_OLD else none

/-- A range of cells is the function's and handed over. -/
def rangeReady (s : State) (fn first n : Nat) : Bool := (List.range n).all (fun i => cellReady s fn (first + i))

/-- One descriptor of the order ring is taken: its bundle is checked and joins the verification queue, or is refused (log entry 58). -/
def takeDescriptor (fn w0 w1 : Nat) (s : State) : State :=
  let first := nbits w0 0 16
  let cells := nbits w0 16 16
  let result := nbits w0 32 16
  let limit := nbits w0 48 16
  let k := s.fore.nextTicket
  let s := { s with fore := { s.fore with nextTicket := (k + 1) % 2 ^ 24, revoked := s.fore.revoked.filter (fun x => x != k) } }
  let empty : Bundle := ⟨k, fn, first, cells, result, limit, 0, 0, 0, false, false, [], [], 0⟩
  let outside := ((List.range cells).map (first + ·)).find? (fun c => !ownsCell s fn c)
  let (ok, s) := readCells (if rangeReady s fn first cells then cellsOf (landingAt first) (4096 * cells) else []) .good s
  if !rangeReady s fn first cells || !ok then
    let s := match outside with | some c => violation fn 0x15 c s | none => s
    refuseBundle empty St.CELL_FAULT s
  else
    let raw := cellBytes s first (4096 * cells)
    if w1 ≠ 0 ∨ limit = 0 ∨ 10000 < limit ∨ !bundleFits raw (4096 * cells) then
      refuseBundle { empty with signer := be raw 12 4, seq := be raw 16 8 } St.BAD_FORMAT s
    else
      let b := bundleOf raw k fn first cells result limit
      match signerCheck s b with
        | some st => refuseBundle b st s
        | none => { s with fore := { s.fore with verify := s.fore.verify ++ [{ b with blank := (signerOf s b.signer).isNone }] } }

/-- Descriptors are taken in order while the engine's queue of 32 has room; the rest stay in their ring. -/
def pullRing (fn : Nat) : Nat → State → State
  | 0, s => s
  | fuel + 1, s =>
    let h := s.pgFld fn pgOrdDb RF.ORD_HEAD
    if h = s.pgFld fn pgOrdDb RF.ORD_TAIL ∨ 32 ≤ s.fore.verify.length then s
    else
      let s' := s.setPgFld fn pgOrdDb RF.ORD_HEAD ((h + 1) % 64)
      pullRing fn fuel (takeDescriptor fn (s.pg fn (0x1000 + 16 * h)).toNat (s.pg fn (0x1000 + 16 * h + 8)).toNat s')

def pullRings (s : State) : State := (List.range 16).foldl (fun s fn => if s.host.flr.contains fn then s else pullRing fn 64 s) s

/-- A producer index that would not pass the consumer's (R396). -/
def tailFits (n head tail new : Nat) : Bool := decide ((tail + n - head) % n ≤ (new + n - head) % n)

/-- ORDER_RING_DOORBELL (R220, R396). -/
def execOrderRingDoorbell (fn : Fin 16) (tail : BitVec 6) (s : State) : Ans :=
  .next (onlyIf (s.live && !s.host.flr.contains fn.val) (pageRequest fn.val pgOrdDb (fun s =>
    if tailFits 64 (s.pgFld fn.val pgOrdDb RF.ORD_HEAD) (s.pgFld fn.val pgOrdDb RF.ORD_TAIL) tail.toNat then
      pullRing fn.val 64 (s.setPgFld fn.val pgOrdDb RF.ORD_TAIL tail.toNat)
    else bumpPg fn.val pgRingFault 1 s)) s)

/-! Verification (R214, R218) -/

/-- Both signatures verify over bytes 0 to SIG_OFFSET - 1. -/
def bundleVerifies (b : Bundle) (x : Signer) : Bool :=
  let msg := b.raw.take b.sigOff
  Config.ecdsaVerify x.ec msg (slice b.raw b.sigOff 96) && Config.mldsaVerify x.ml (ascii "BD3208 MP") msg (slice b.raw (b.sigOff + 96) 4627)

/-- The signer's highest SEQ goes to the attic (R216); the one signer of a Blank part has no record to hold it (log entry 62). -/
def writeSeq (b : Bundle) (s : State) : Bool × State :=
  if b.blank then (true, s)
  else
    let (ok, s) := atticWrite 3 blkSigners s
    if ok then (true, { s with attic := { s.attic with
      signers := s.attic.signers.map (fun x => if x.keyId = b.signer then { x with lastSeq := max x.lastSeq b.seq } else x) } })
    else (false, s)

def acceptedEvent (b : Bundle) (s : State) : State := event Ev.MP_ACCEPTED [b.signer * 2 ^ 32 + b.fn, b.seq] s

/-- A verified bundle is accepted: its SEQ is written, or waits for the caution state to end. -/
def acceptBundle (b : Bundle) (s : State) : State :=
  let b := { b with raw := [] }
  if inCaution s then
    { s with fore := { s.fore with accepted := s.fore.accepted ++ [b] }, guard := { s.guard with held := s.guard.held ++ [.bundleSeq b.ticket] } }
  else
    let (ok, s) := writeSeq b s
    if ok then acceptedEvent b { s with fore := { s.fore with accepted := s.fore.accepted ++ [b] } } else refuseBundle b St.COUNTER_END s

/-- The held SEQ write of an accepted bundle, when the caution state ends. -/
def releaseSeq (ticket : Nat) (s : State) : State :=
  match s.fore.accepted.find? (fun b => b.ticket == ticket) with
  | some b =>
    let (ok, s) := writeSeq b s
    if ok then acceptedEvent b s
    else refuseBundle b St.COUNTER_END { s with fore := { s.fore with accepted := s.fore.accepted.filter (fun x => x.ticket != ticket) } }
  | none => s

/-- Checks 4 to 7 at the end of a verification. -/
def verified (b : Bundle) (s : State) : State :=
  match signerFor s b with
  | none => refuseBundle b St.NO_SIGNER s
  | some (x, _) =>
    if !signerTakes s x b.fn || s.fore.revoked.contains b.ticket then refuseBundle b St.NO_SIGNER s
    else if !bundleVerifies b x then refuseBundle b St.BAD_SIGNATURE s
    else if b.seq ≤ lastSeqOf s x then refuseBundle b St.SEQ_OLD s
    else if !b.progs.all (fun p => codeLoads p.code) then refuseBundle b St.BAD_FORMAT s
    else acceptBundle b s

/-- BUNDLE_VERIFY_DONE (R218): the engine works in submission order; a stopped engine ends no verification. -/
def execBundleVerifyDone (fn : Fin 16) (ticket : Nat) (s : State) : Ans :=
  match s.fore.verify with
  | b :: rest =>
    .next (onlyIf (s.live && s.fore.pkeOk && b.fn == fn.val && b.ticket == ticket) (fun s =>
      pullRings (verified b { s with fore := { s.fore with verify := rest } })) s)
  | [] => .next s

/-! Running (R218, R219) -/

/-- A thread as a program finds it: registers, predicates and scratch zeroed (R206). -/
def freshThread (t : Nat) (s : State) : State :=
  let s := setForeThread t (thread0 t) s
  { s with fore := { s.fore with scratch := tdrop (fun a _ => decide (t * 0x10000 ≤ a) && decide (a < (t + 1) * 0x10000)) s.fore.scratch } }

def startBundle (t : Nat) (b : Bundle) (x : Signer) (s : State) : State :=
  setRunning t (some ⟨b, 0, none, 0, s.time.now, s.time.up, 0, none, 0, 0, 0, false, none, x.admin, x.test, x.orderMask, []⟩) (freshThread t s)

/-- The signer as it stands when a bundle starts. For the bundle of R447 its attachment's record. -/
def startSigner (s : State) (b : Bundle) : Option Signer :=
  if b.blank then some { parseSigner ((b.progs.getD 0 ⟨[], []⟩).att) with test := false, admin := true }
  else if s.attic.lifecycle = 0 ∨ s.fore.revoked.contains b.ticket then none
  else (signerOf s b.signer).map (fun x => { x with test := x.test && b.target == s.serial })

/-- PROGRAM_START (R218): the oldest accepted bundle starts on a free thread; one whose signer is gone ends with NO_SIGNER (Table 07.11). -/
def execProgramStart (t : Fin 4) (s : State) : Ans :=
  match s.fore.accepted with
  | b :: rest =>
    .next (onlyIf (s.live && foreOn s && !inCaution s && t.val != 0 && (running s t.val).isNone) (fun s =>
      let s := { s with fore := { s.fore with accepted := rest } }
      match startSigner s b with
      | some x => startBundle t.val b x s
      | none => refuseBundle b St.NO_SIGNER s) s)
  | [] => .next s

/-! The end of a program (R219, R220) -/

/-- The header of Table 07.7. -/
def resultHeader (b : Bundle) (idx status fcode fpc orders lastOrder lastStatus start end_ : Nat) : Bytes :=
  natBe 4 0x4E4D5052 ++ natBe 1 status ++ natBe 1 idx ++ natBe 1 fcode ++ zeros 1 ++ natBe 8 b.seq ++ natBe 4 b.signer ++
  natBe 2 fpc ++ natBe 2 orders ++ natBe 2 lastOrder ++ natBe 1 lastStatus ++ zeros 1 ++ natBe 8 start ++ natBe 8 end_ ++ zeros 19 ++ natBe 1 0xA5

/-- The header of program idx; a cell the part does not own gets none (R394; log entry 110). -/
def writeHeader (b : Bundle) (idx : Nat) (h : Bytes) (s : State) : State :=
  if cellReady s b.fn (b.result + idx) then (memWrite (landingAt (b.result + idx)) h .good s).2 else s

/-- Headers of the programs of a bundle that never run. -/
def unrun (b : Bundle) (status from_ : Nat) (s : State) : State :=
  (List.range (b.progs.length - from_)).foldl (fun s i =>
    writeHeader b (from_ + i) (resultHeader b (from_ + i) status 0 0 0 0 0 s.time.now s.time.now) s) s

/-- The bundle on a thread is over. -/
def threadDone (t : Nat) (r : Running) (worst : Option Nat) (s : State) : State :=
  bundleOver r.b (worst.getD 0) (r.ran + 1) (freeUsed r.used (setRunning t none (freshThread t s)))

/-- The next program of the bundle starts at once on the same thread. -/
def nextProgram (t : Nat) (r : Running) (worst : Option Nat) (s : State) : State :=
  setRunning t (some { r with
    idx := r.idx + 1, worst := worst, ran := r.ran + 1, start := s.time.now, upAt := s.time.up, grace := 0, waitFrom := none
    orders := 0, lastOrder := 0, lastStatus := 0, status := none }) (freshThread t s)

/-- A program has ended: its header, then the bundle's next program, or the programs that are left out, or the bundle's end (R218). -/
def programOver (t : Nat) (r : Running) (status : Nat) (s : State) : State :=
  let h := foreThread s t
  let fault := if status = St.FAULT then h.fcode else 0
  let s := writeHeader r.b r.idx (resultHeader r.b r.idx status fault h.fpc r.orders r.lastOrder r.lastStatus r.start s.time.now) s
  let worst := if r.worst.isSome ∨ status = 0 then r.worst else some status
  if r.idx + 1 < r.b.progs.length then
    if r.b.stopOnFail ∧ worst.isSome then threadDone t r worst (unrun r.b St.SKIPPED (r.idx + 1) s)
    else nextProgram t r worst s
  else threadDone t r worst s

/-- Cells a reset function's aborted work held go back to HOST once none of its programs is left (Table 15.10). -/
def freeHeld (fn : Nat) (s : State) : State :=
  if s.fore.running.any (fun e => match e.2 with | some r => r.aborted && r.b.fn == fn | none => false) then s
  else
    let s' := handBack ((s.host.heldCells.filter (fun e => e.1 == fn)).map (·.2)) s
    { s' with host := { s'.host with heldCells := s.host.heldCells.filter (fun e => e.1 != fn) } }

/-- The program of a reset function ends with nothing handed to that function (R221). -/
def programAborted (t : Nat) (r : Running) (s : State) : State :=
  event Ev.MP_ABORTED [r.b.signer * 2 ^ 32 + r.b.fn, r.b.seq] (freeHeld r.b.fn (setRunning t none (freshThread t s)))

/-- No order of the thread is in progress. -/
def orderIdle (s : State) (t : Nat) : Bool :=
  !s.fore.waits.any (fun o => o.t == t) && !s.guard.held.any (fun h => match h with | .order o => o.t == t | _ => false)

/-- The program has run past its last bundle. -/
def ranOut (s : State) (t : Nat) (r : Running) : Bool :=
  decide ((r.b.progs.getD r.idx ⟨[], []⟩).code.length ≤ (foreThread s t).pc)

/-- PROGRAM_END (R219, R221). -/
def execProgramEnd (t : Fin 4) (s : State) : Ans :=
  match running s t.val with
  | some r =>
    .next (onlyIf (s.mainOn && !s.held && orderIdle s t.val) (fun s =>
      if r.aborted then programAborted t.val r s
      else match r.status with
        | some st => programOver t.val r st s
        | none => if ranOut s t.val r then programOver t.val r St.OK s else s) s)
  | none => .next s

/-- Time the program has run, waits in the caution state apart, in ns. -/
def ranFor (s : State) (r : Running) : Nat :=
  s.time.up - r.upAt - r.grace - (match r.waitFrom with | some w => s.time.up - w | none => 0)

/-- Nobody takes the answer of an order any more. -/
def nobody : Nat := 2 ^ 32
def detach (t : Nat) (o : OrdReq) : OrdReq := if o.t = t then { o with t := nobody } else o

/-- PROGRAM_TIMEOUT (R219): a program that runs longer than its limit; an order in progress goes on without it. -/
def execProgramTimeout (t : Fin 4) (s : State) : Ans :=
  match running s t.val with
  | some r =>
    .next (onlyIf (s.live && r.status.isNone && decide (r.b.limit * 1000000 < ranFor s r)) (fun s =>
      endProgram t.val St.TIMEOUT { s with
        fore := { s.fore with waits := s.fore.waits.map (detach t.val) }
        guard := { s.guard with held := s.guard.held.map (fun h => match h with | .order o => .order (detach t.val o) | _ => h) } }) s)
  | none => .next s

end Sys2Proof.Machine
end

