-- ==== Sys2Proof/Machine/Resets.lean ====
section
/-! DEFINITION. Device resets and what they keep (R453, R454, Table 17.6), and the service profile: what PROFILE_SAVE writes and what Start-up writes back (R455, R456). -/
namespace Sys2Proof.Machine

/-! Device reset -/

/-- Part time stops being steered; the free-running clock runs on. -/
def TimeSt.fresh (t : TimeSt) : TimeSt :=
  { TimeSt.reset with now := t.now, up := t.up, stampBase := t.up, lastSteer := t.up, holdAt := t.up, lockAt := t.up, sampleAt := t.up, rtcAt := t.up }

/-- Everything a device reset loses is at its reset value; what Table 17.6 keeps stays. -/
def wiped (s : State) : State :=
  { State.reset with
    variant := s.variant, serial := s.serial, time := s.time.fresh, lamp := s.lamp, attic := s.attic
    vault := { Vault.reset with identity := s.vault.identity }, out := s.out, draws := s.draws, pending := s.pending, regs := [] }

/-- The mode before a reset: 5 for Sealed. -/
def prevMode (s : State) : Nat := if s.mainOn then s.mode else 5

/-- A device reset (Table 17.5): cause, rail of a supply cause, straps in force. Start-up follows. -/
def deviceReset (cause rail pos sel : Nat) (s : State) : State :=
  let t := wiped s
  let t := { t with attic := { t.attic with resets := t.attic.resets + 1 } }
  let t := t.setReg Reg.PWR_RESET_CAUSE (BitVec.ofNat 64 (cause + rail * 2 ^ 4 + prevMode s * 2 ^ 8))
  (t.setFld Reg.TWN_STATUS Fd.TWN_STATUS_POSITION pos).setFld Reg.TWN_STATUS Fd.TWN_STATUS_ROLE_SEL sel

/-- An internal reset: straps are sampled only as RESET_N rises (R359). -/
def internalReset (cause rail : Nat) (s : State) : State :=
  deviceReset cause rail s.position (twinF s Fd.TWN_STATUS_ROLE_SEL) s

/-- Main supplies are gone: the part is Sealed; only the lamp room and the attic hold state (R441). -/
def sealedOff (s : State) : State := { wiped s with mainOn := false }

/-! Power domains (Table 17.3) -/

/-- Domains a BD3208-L never powers (R449). -/
def domainAbsent (s : State) (d : Nat) : Bool :=
  s.variant == 1 && ([10, 11, 14, 15].contains d || decide (48 ≤ d))

/-- The state of a domain: 0 off, 1 retention, 2 on. -/
def domainState (s : State) (mode d : Nat) : Nat :=
  if domainAbsent s d then 0
  else if mode = 3 then (if d < 5 then 2 else if d < 16 then 1 else 0)
  else if mode = 4 then (if d < 8 then 2 else 0)
  else if 16 ≤ d ∧ !nbit (s.reg Reg.GAL_ONLINE).toNat (d - 16) then 0
  else 2

def powerFor (mode : Nat) (s : State) : State := (List.range 80).foldl (fun s d => setDomain d (domainState s mode d) s) s

/-! The service profile (R456) -/

/-- A register word whose configuration the profile holds: landing ranges, levels, PWR_CFG, and the configuration of the LAN, MAC, LFR, MSC, TBL, WND, MEM, GATE, TIM and TWN blocks. -/
def profileReg (off : Nat) : Bool :=
  off == Reg.PWR_CFG || (decide (0x100 ≤ off) && decide (off < 0x180)) || (decide (0xE00100 ≤ off) && decide (off < 0xE00200)) ||
  ([2, 3, 4, 5, 6, 9, 10, 11, 12, 13].contains (off / 0x100000) && !(decide (0x400000 ≤ off) && decide (off < 0x401000) && off % 0x100 == 0x28))

/-- The bits of such a word that are configuration. -/
def profileBits (off : Nat) : W64 :=
  if off < 0x1000 then ~~~ 0 else match descAt off with | some d => typeMask .ow d.fields | none => 0

/-- The configuration words of the profile: those that differ from their reset value. -/
def profileRegs (s : State) : Table W64 :=
  s.regs.filterMap (fun e =>
    if profileReg e.1 ∧ e.2 &&& profileBits e.1 ≠ regReset e.1 &&& profileBits e.1 then some (e.1, e.2 &&& profileBits e.1) else none)

/-- What the profile holds of an association record: its fields and key map, and no SA. -/
def profileArec (tub : Bool) (r : ARec) : ARec :=
  let c := if tub then r.setC AC.TUB_STATE 0 else (r.setC AC.STATE 0).setC AC.NEXT_VALID 0
  { c with ans := r.ans.map (fun e => { an0 with map := e.map }), counters := [], memBad := false }

def staticPeer (p : Peer) : Bool := fget p.res PR.STATIC == 1

/-- The limits of R456. -/
def profileFits (s : State) : Bool := decide ((s.cls.peers.filter (fun e => staticPeer e.2)).length ≤ 16384)

/-- The profile of the present configuration. -/
def captureProfile (gen : Nat) (s : State) : Profile :=
  let n := s.fld Reg.PWR_CFG Fd.PWR_CFG_PROFILE_ASSOC
  { gen := gen, ok := true
    regs := tput regReset (profileRegs s) Reg.GAL_EPOCH (s.reg Reg.GAL_EPOCH)
    access := s.host.access
    rules := s.cls.rules.map (fun e => (e.1, { e.2 with lock := false }))
    scis := s.cls.scis.map (fun e => (e.1, { e.2 with lock := false }))
    peers := (s.cls.peers.filter (fun e => staticPeer e.2)).map (fun e => (e.1, { e.2 with lock := false, contendedAt := none, hit := 0, learned := 0 }))
    images := s.gal.images, gateKeys := s.gate.keys
    assoc := (s.assoc.filter (fun e => decide (e.1 < n))).map (fun e => (e.1, profileArec (isTubRec s e.1) e.2))
    meters := s.wnd.meters.map (fun e => (e.1, { e.2 with tc := bucketOf e.2.cbs, te := bucketOf e.2.ebs, last := 0 }))
    shapers := s.wnd.shapers.map (fun e => (e.1, { e.2 with credit := 0, frac := 0 }))
    lists := s.wnd.egress.filterMap (fun e => e.2.list.map (fun l => (e.1, l))) }

/-- The copy that holds the newest generation: 0 or 1. -/
def newestCopy (s : State) : Nat :=
  match s.attic.prof0, s.attic.prof1 with
  | some a, some b => if a.gen < b.gen then 1 else 0
  | none, some _ => 1
  | _, _ => 0

/-- The header block of a profile copy (Table 17.7; log entry 13). -/
def blkProfile (copy : Nat) : Nat := 3328 + 2048 * copy

def putProfile (copy : Nat) (p : Profile) (s : State) : State :=
  { s with attic := if copy = 0 then { s.attic with prof0 := some p } else { s.attic with prof1 := some p } }

/-- PROFILE_SAVE's work (R455): the copy that is not the newest, then counter 17, then the generation. The answer is a status value. -/
def saveProfile (s : State) : Nat × State :=
  if !profileFits s then (8, s)
  else
    let copy := 1 - newestCopy s
    let (ok, s) := if 2 ^ 32 - 1 ≤ counterOf s 17 then (false, event Ev.ATTIC_COUNTER_END [17] s) else atticWrite 2 (blkProfile copy) s
    if !ok then (13, s)
    else
      let s := putProfile copy { captureProfile 0 s with ok := false } s
      let (ok, s) := counterUp 17 s
      if !ok then (13, s)
      else
        let s := putProfile copy (captureProfile (counterOf s 17) s) s
        (0, event Ev.PROFILE_SAVED [counterOf s 17, copy] s)

/-! Start-up reads a profile back -/

/-- The copy Start-up uses, with its number: that of counter 17 if it checks, else the other if that checks. -/
def chooseProfile (s : State) : Option (Nat × Profile × Bool) :=
  let cur := fun (c : Nat) (p : Option Profile) => match p with
    | some p => if p.ok && p.gen == counterOf s 17 then some (c, p, true) else none
    | none => none
  let any := fun (c : Nat) (p : Option Profile) => match p with
    | some p => if p.ok then some (c, p, false) else none
    | none => none
  match cur 0 s.attic.prof0 with
  | some x => some x
  | none => match cur 1 s.attic.prof1 with
    | some x => some x
    | none => match any 0 s.attic.prof0 with
      | some x => some x
      | none => any 1 s.attic.prof1

/-- One configuration word written back. -/
def restoreWord (s : State) (e : Nat × W64) : State := s.setReg e.1 ((s.reg e.1 &&& ~~~ profileBits e.1) ||| (e.2 &&& profileBits e.1))

/-- What every Start-up takes: access table, landing ranges, monitor levels, PWR_CFG (Table 17.4, 51 ms). -/
def restoreBase (p : Profile) (s : State) : State :=
  let s := { s with host := { s.host with access := p.access } }
  syncLamp ((p.regs.filter (fun e => e.1 == Reg.PWR_CFG || decide (e.1 < 0x1000) || decide (0xE00000 ≤ e.1))).foldl restoreWord s)

/-- A restored gate key takes its floor from the attic (R335). -/
def restoreGateKey (s : State) (e : Nat × Option GKey) : State :=
  match e.2 with
  | some k => addGateKey e.1 k.alg k.sets k.key s
  | none => s

/-- A restored gate flow starts with a full bucket. -/
def fillFlow (s : State) (f : Nat) : State :=
  if flowF s f Fd.GATE_FLOW_CFG_VALID = 1 then setGateTokens f (flowF s f Fd.GATE_FLOW_CFG_BURST * 1000000000) s else s

def restoreMeter (s : State) (e : Nat × Meter) : State := setMeter e.1 { e.2 with last := s.time.up } s
def restoreShaper (s : State) (e : Nat × Shaper) : State := setShaper e.1 e.2 s
def restoreList (s : State) (e : Nat × GList) : State := setEgress e.1 { egressAt s e.1 with list := some e.2 } s

/-- The epoch counts of a trunk come back from the attic at every start-up (R99, R101). -/
def epochsBack (s : State) (n : Nat) : State := setEpochTx n (counterOf s n) (setEpochRx n (tget nat0 s.attic.rxEpochs n) s)

/-- A restored transmit trunk starts a new epoch before it seals (R99). -/
def restoreTrunk (s : State) (n : Nat) : State :=
  let s := epochsBack s n
  if txOn s n ∧ leadOf s 0 n = n then autoEpoch n s else s

/-- The items of R456, with AUTOSTART = 1. -/
def restoreProfile (p : Profile) (s : State) : State :=
  let s := (p.regs.filter (fun e => e.1 != Reg.GAL_EPOCH)).foldl restoreWord s
  let s := match tfind p.regs Reg.GAL_EPOCH with | some w => s.setReg Reg.GAL_EPOCH w | none => s
  let now := tblStamp s
  let s := { s with
    cls := { s.cls with rules := p.rules, scis := p.scis, peers := p.peers.map (fun e => (e.1, { e.2 with hit := now, learned := now })) }
    gal := { s.gal with images := p.images }, assoc := p.assoc }
  let s := p.gateKeys.foldl restoreGateKey s
  let s := (List.range 1024).foldl fillFlow s
  let s := p.lists.foldl restoreList (p.shapers.foldl restoreShaper (p.meters.foldl restoreMeter s))
  let s := (List.range 16).foldl restoreTrunk s
  s.setFld Reg.PWR_STATUS Fd.PWR_STATUS_AUTOSTARTED 1

end Sys2Proof.Machine
end

