-- ==== Sys2Proof/Machine/StartUp.lean ====
section
/-! DEFINITION. Start-up and the commands that reset the whole part (R450 to R453, R466 to R468). -/
namespace Sys2Proof.Machine

/-! The tally (R430, R433) -/

/-- Records without a good mark among the last 16 written slots of each area. -/
def tornCount (s : State) : Nat :=
  let bad := fun (l : List TRec) => ((l.drop (l.length - 16)).filter (fun r => !r.valid)).length
  bad s.attic.evid + bad s.attic.ring

/-- One record of the tail goes into the tally with a new SEQ; it takes no token (R435). False where its area does not take it (R434). -/
def moveRecord (r : TRec) (s : State) : Bool × State :=
  let lost := r.evid && evidFull s
  let ok := written r s
  let s := append { r with mark := 0xA5 } s
  (ok, if lost then trigger0 0x14 [s.attic.evidLost] s else s)

/-- The records of the tail in order, up to the first that is not written. -/
def moveRecords : List TRec → State → Bool × State
  | [], s => (true, s)
  | r :: t, s => match moveRecord r s with
    | (true, s) => moveRecords t s
    | (false, s) => (false, s)

/-- The tail moves before any other record is appended; where the attic does not take every record, the tail and TAIL_LOST stay for the next start-up (log entry 142). -/
def moveTail (atticOk : Bool) (s : State) : State :=
  let n := s.lamp.tail.length
  let lost := s.lamp.tailLost
  if !atticOk ∨ atticRO s 1 ∨ (n = 0 ∧ lost = 0) then s
  else match moveRecords s.lamp.tail s with
    | (true, s) => event Ev.TAIL_MOVED [n, lost] { s with lamp := { s.lamp with tail := [], tailLost := 0 } }
    | (false, s) => s

/-- Torn records are counted and reported (R433). -/
def reportTorn (n : Nat) (s : State) : State :=
  if n = 0 then s else event Ev.TALLY_TORN [n] (bump Reg.TLY_CNT_TORN n s)

/-- A lamp room that lost power altogether has no integrity word (R429). -/
def checkLamp (s : State) : State :=
  if s.lamp.alive then { s with lamp := { s.lamp with lampLost := false } }
  else event Ev.LAMP_LOST [] { s with lamp := { s.lamp with alive := true, lampLost := true } }

/-- The RESET record (R453). -/
def reportReset (s : State) : State :=
  event Ev.RESET [s.fld Reg.PWR_RESET_CAUSE Fd.PWR_RESET_CAUSE_CAUSE, s.fld Reg.PWR_RESET_CAUSE Fd.PWR_RESET_CAUSE_RAIL,
    s.fld Reg.PWR_RESET_CAUSE Fd.PWR_RESET_CAUSE_PREV_MODE] s

/-- Overman straps on a part that cannot be one, and the reserved strap value, are refused (R5, R359). -/
def checkStraps (s : State) : State :=
  let sel := twinF s Fd.TWN_STATUS_ROLE_SEL
  if sel = 3 ∨ (sel = 1 ∧ s.variant ≠ 0) then event Ev.ROLE_REFUSED [sel, s.variant] s else s

/-! Firmware (R451) -/

/-- The image Start-up runs: 0 A, 1 B. The higher VERSION is tried first. -/
def chooseImage (s : State) : Option Nat :=
  let ok := fun (x : FwImg) => x.sigOk && decide (counterOf s 16 ≤ x.version)
  let first := if s.attic.fwA.version < s.attic.fwB.version then 1 else 0
  let pick := fun (k : Nat) => if k = 0 then s.attic.fwA else s.attic.fwB
  if ok (pick first) then some first else if ok (pick (1 - first)) then some (1 - first) else none

def runningVersion (s : State) : Nat :=
  if s.fld Reg.PWR_STATUS Fd.PWR_STATUS_FW_IMAGE = 0 then s.attic.fwA.version else s.attic.fwB.version

/-! Keys (R111, R131, R281, R293) -/

/-- New deep slot 4, memory keys and check keys; regions 0, 1 and 5 are zero under them. -/
def newKeys (s : State) : State :=
  let k := s.draw
  let s := writeDeep 4 (natBe 32 (k.toNat % 2 ^ 256)) 0x5100 1 s.drew
  let c := s.draw
  let s := s.drew
  let b := s.draw
  let s := { s.drew with
    assoc := [], mem := Mem.reset, cls := { s.cls with cached := [], fetching := [] }
    vault := { s.vault with
      checkKey := c.setWidth 256, checkPresent := true, bootKey := b.setWidth 256, memKeys := [], prevKeys := [], memPresent := true } }
  let s := { s with mem := { s.mem with noKey := false } }
  s.setFld Reg.MEM_STATUS Fd.MEM_STATUS_KEYS_PRESENT 1

/-- Deep slots 0 to 3 from the root key and the owner nonce. -/
def deriveDeep (root : BitVec 256) (s : State) : State :=
  let r := natBe 32 root.toNat
  let s := writeDeep 0 (kdf r (ascii "BD3208 OWNER") (natBe 32 s.attic.nonce.toNat) 256) 0x5140 0 s
  let s := writeDeep 1 (kdf r (ascii "BD3208 ATTIC") [0] 256) 0x5120 0 s
  let s := writeDeep 2 (kdf (deep256 s 0) (ascii "BD3208 KEM") [0] 512) 0x5110 0 s
  writeDeep 3 (kdf (deep256 s 0) (ascii "BD3208 CELLAR") [0] 256) 0x5120 0 s

/-- A standing blob goes back into the slot its TARGET names: GEN 0, stored attributes, no parent. -/
def restoreStanding (s : State) (e : Nat × Bytes) : State :=
  let o := openBlob (.standing e.1) e.2 s
  if o.res ≠ 0 then event Ev.STANDING_FAIL [e.1, o.res] s
  else if nbit o.target 15 then writeDeep (o.target % 64) o.key o.attr 2 s
  else writeKey (o.target % 16384) o.key o.attr o.expiry none none false s

/-- Steps 1 and 4 of R131. -/
def rebuildDeep (s : State) : State :=
  match s.lamp.root with
  | some r =>
    let s := s.attic.standing.foldl restoreStanding (deriveDeep r s)
    event Ev.DEEP_REBUILT [] s
  | none => s

/-! Ends of Start-up -/

/-- The access table of a part whose profile cannot be read, and of a Retired part (R448, R455). -/
def baseTables (s : State) : State :=
  if s.attic.lifecycle = 3 then { s with host := { s.host with access := accessTableRetired } }
  else match chooseProfile s with
    | some (c, p, cur) =>
      let s := if cur then s else event Ev.PROFILE_BAD [1 - c, p.gen] s
      (restoreBase p s).setFld Reg.PWR_STATUS Fd.PWR_STATUS_PROFILE_COPY c
    | none => { s with host := { s.host with access := accessTableBlank } }

/-- Start-up fails at a step (R452): 1 firmware, 2 self-test, 3 HBM, 4 root key, 5 profile (log entry 93). -/
def startFail (step : Nat) (s : State) : State :=
  powerFor 4 (enterRecovery (event Ev.STARTUP_FAIL [step] (baseTables s)))

/-- Galleries power up and pass their tests, or stay offline (R160). -/
def startGallery (bad : List (Fin 64)) (s : State) (g : Nat) : State :=
  if !nbit (galPresent s) g then s
  else if bad.any (fun x => x.val == g) then galleryOff g 3 s
  else event Ev.GALLERY_ONLINE [g] (setOnline g true s)

/-- Counter 16 follows the running VERSION (R451). -/
def advanceFloor (s : State) : State :=
  if counterOf s 16 < runningVersion s then
    (let (ok, s) := atticWrite 3 blkCounters s
     if ok then { s with attic := { s.attic with counters := tput nat0 s.attic.counters 16 (runningVersion s) } } else s)
  else s

/-- Start-up ends in Service: lanes begin bring-up, a twin starts as STANDBY. -/
def enterService (s : State) : State :=
  let s := powerFor 2 (setMode 2 s)
  twinStart ((List.range 73).foldl (fun s L => if lanePresent s L then restartLane L s else s) (advanceFloor s))

/-- A part that a response of L3 or L4 has taken to Recovery stays there (R424, R445). -/
def unlessHalted (f : State → State) (s : State) : State := if s.mode = 4 then s else f s

/-- With AUTOSTART = 1 the profile is restored. -/
def autostart (p : Profile) (s : State) : State :=
  if s.fld Reg.PWR_CFG Fd.PWR_CFG_AUTOSTART = 1 then restoreProfile p s else s

/-- From 51 ms on: tables, galleries, the profile, Service. -/
def startTables (i : StartIn) (s : State) : State :=
  match chooseProfile s with
  | none => startFail 5 s
  | some (_, p, _) => unlessHalted enterService (unlessHalted (autostart p) ((List.range 64).foldl (startGallery i.galBad) (baseTables s)))

/-- From the self-tests on. -/
def startMemory (i : StartIn) (s : State) : State :=
  if !i.selfTest then startFail 2 s
  else if !i.hbm then startFail 3 s
  else
    let s := (s.setFld Reg.MEM_STATUS Fd.MEM_STATUS_STACK0_OK 1).setFld Reg.MEM_STATUS Fd.MEM_STATUS_STACK1_OK 1
    let s := newKeys s
    if i.memCheck then
      (let n := (Config.free s.draws).toNat % 2 ^ 27
       powerFor 4 (checkFail n (baseTables s.drew)))
    else
      let s := rebuildDeep s
      if s.lamp.root.isNone then startFail 4 s else startTables i s

/-- The steps of Table 17.4 in order. A part without a root key, a Blank one too, ends in Recovery (R131, R452; log entry 92). -/
def startUp (i : StartIn) (s : State) : State :=
  let s := { s with time := { s.time with now := s.lamp.rtc } }
  let torn := tornCount s
  let s := reportReset (reportTorn torn (moveTail i.atticOk s))
  let s := checkStraps (checkLamp s)
  let s := (List.range 16).foldl epochsBack { s with fore := { s.fore with pkeOk := i.selfTest, started := s.time.up } }
  match chooseImage s with
  | none => startFail 1 s
  | some k =>
    let s := s.setFld Reg.PWR_STATUS Fd.PWR_STATUS_FW_IMAGE k
    startMemory i (event Ev.FW_SELECTED [k, runningVersion s] s)

/-- STARTUP (R450): a part in Start-up runs it whole. -/
def execStartup (i : StartIn) (s : State) : Ans := .next (onlyIf (s.live && s.mode == 0) (startUp i) s)

/-! Reset commands -/

def strapPos (st : Straps) : Nat := b2n st.twinPos
def strapSel (st : Straps) : Nat := st.roleSel.val

/-- POWER_ON_RESET (R466): every main rail is in its band and the power-on reset ends; the lamp room draws from the main supply again. -/
def execPowerOnReset (st : Straps) (s : State) : Ans :=
  .next (onlyIf (!s.mainOn) (fun s =>
    let s := deviceReset 0 0 (strapPos st) (strapSel st) s
    { s with lamp := { s.lamp with onVbat := false } }) s)

/-- SEQUENCING_FAULT (R467): a later group came up before group 1, so PD1 holds the power-on reset until the rails have come up again in order; nothing is recorded. -/
def execSequencingFault (s : State) : Ans := .next (onlyIf (!s.mainOn) (fun s => { s with held := true }) s)

/-- RESET_N_ASSERT (R453, R473): low for 1 µs or more resets the part; shorter pulses are ignored. -/
def execResetNAssert (lowNs : Nat) (st : Straps) (s : State) : Ans :=
  .next (onlyIf (s.mainOn && decide (1000 ≤ lowNs)) (deviceReset 1 0 (strapPos st) (strapSel st)) s)

/-- WATCHDOG (R453): firmware has not serviced its watchdog for 500 ms; an internal reset. -/
def execWatchdog (s : State) : Ans := .next (onlyIf s.live (internalReset 6 0) s)

end Sys2Proof.Machine
end

