-- ==== Sys2Proof/Machine/Control.lean ====
section
/-! DEFINITION. The control orders: signers, firmware, life cycle, modes, profile, counters, access, tally readout (R215, R404, R408 to R410, R436, R441 to R451, R455, R458). -/
namespace Sys2Proof.Machine

/-! Signers (R215, R227) -/

/-- Orders that only a signer with ADMIN may issue; image copies come from a partner that has checked. -/
def adminOnly (f : OrdBody) : OrdBody := fun o s => if o.src ≠ 2 ∧ !o.admin then ordSt St.DENIED s else f o s

/-- Two records agree in all but the SEQ the part keeps. -/
def sameSigner (a b : Signer) : Bool := { a with lastSeq := 0 } == { b with lastSeq := 0 }

/-- The record of the bundle of R447. -/
def attachedSigner (o : OrdReq) : Signer := parseSigner (o.atts.getD 0 [])

def putSigners (l : List Signer) (s : State) : OrdAns × State :=
  let (ok, s) := atticWrite 3 blkSigners s
  if ok then ordOk { s with attic := { s.attic with signers := l } } else ordSt St.COUNTER_END s

def signerAddBody : OrdBody := adminOnly fun o s =>
  match ordRead o s (o.arg 1) signerLen with
  | none => ordNoRead o s (o.arg 1) signerLen
  | some b =>
    let x := parseSigner b
    if x.keyId ≠ o.arg 0 ∨ 0xFFFF0000 ≤ x.keyId then ordSt St.UNSUPPORTED s
    else if o.blank ∧ !sameSigner x (attachedSigner o) then ordSt St.DENIED s
    else match signerOf s x.keyId with
      | some y =>
        if sameSigner x y then ordOk s
        else if o.src = 2 then putSigners (s.attic.signers.map (fun z => if z.keyId = x.keyId then { x with lastSeq := z.lastSeq } else z)) s
        else ordSt St.UNSUPPORTED s
      | none => if 32 ≤ s.attic.signers.length then ordSt St.FULL s else putSigners (s.attic.signers ++ [x]) s

/-- SIGNER_ADD (Table 07.9). -/
def execSignerAdd (o : OrdBy) (keyId cell : W64) (s : State) : Ans := .next (orderRow 0xA03 signerAddBody o [keyId, cell] s)

/-- Tickets of the bundles of a signer that wait to verify or to start (R227). -/
def waitingOf (s : State) (id : Nat) : List Nat := ((s.fore.verify ++ s.fore.accepted).filter (fun b => b.signer == id)).map (·.ticket)

def signerRevokeBody : OrdBody := adminOnly fun o s =>
  if (signerOf s (o.arg 0)).isNone then ordSt St.NOT_FOUND s
  else putSigners (s.attic.signers.filter (fun x => x.keyId != o.arg 0)) { s with fore := { s.fore with revoked := s.fore.revoked ++ waitingOf s (o.arg 0) } }

/-- SIGNER_REVOKE (Table 07.9). -/
def execSignerRevoke (o : OrdBy) (keyId : W64) (s : State) : Ans := .next (orderRow 0xA04 signerRevokeBody o [keyId] s)

/-! FIRMWARE_STAGE (R451) -/

/-- The blocks of an image's cells are written; false once a write is refused. -/
def writeImageBlocks (base : Nat) : Nat → State → Bool × State
  | 0, s => (true, s)
  | k + 1, s =>
    let (ok, s) := atticWrite 0 (base + k) s
    if ok then writeImageBlocks base k s else (false, s)

def setInactive (x : FwImg) (s : State) : State :=
  { s with attic := if s.fld Reg.PWR_STATUS Fd.PWR_STATUS_FW_IMAGE = 0 then { s.attic with fwB := x } else { s.attic with fwA := x } }

/-- The image lies in consecutive cells, VERSION in its first four bytes (log entry 94). -/
def firmwareStageBody : OrdBody := fun o s =>
  let n := o.arg 1
  if n = 0 ∨ 1024 < n then ordSt St.UNSUPPORTED s
  else match ordRead o s (o.arg 0) (4096 * n) with
    | none => ordNoRead o s (o.arg 0) (4096 * n)
    | some b =>
      if !Config.firmwareVerifies b then ordSt St.AUTH_FAIL s
      else if 2 ^ 32 - 1 ≤ counterOf s 16 then ordSt St.COUNTER_END s
      else
        let base := if s.fld Reg.PWR_STATUS Fd.PWR_STATUS_FW_IMAGE = 0 then 1024 else 0
        let (ok, s) := writeImageBlocks base n (setInactive ⟨be b 0 4, b, false⟩ s)
        if ok then ordOk (setInactive ⟨be b 0 4, b, true⟩ s) else ordSt St.COUNTER_END s

/-- FIRMWARE_STAGE (Table 07.9). -/
def execFirmwareStage (o : OrdBy) (cell cells : W64) (s : State) : Ans := .next (orderRow 0xA05 firmwareStageBody o [cell, cells] s)

/-! LIFECYCLE (R134, R135, R446, R447) -/

/-- The transitions of Table 17.2, and the re-enrolment of a part whose root key is absent. -/
def transition (s : State) (from_ goal : Nat) : Bool :=
  (from_ == 0 && goal == 1) || (from_ == 1 && goal == 2) || (from_ == 2 && goal == 1) || (decide (from_ < 3) && goal == 3) ||
  (from_ == 1 && goal == 1 && s.lamp.root.isNone)

/-- A new root key and owner nonce; standing blobs under the old root are erased, the signer table is the record with ADMIN. -/
def enrol (x : Signer) (s : State) : State :=
  let r := s.draw
  let s := s.drew
  let n := s.draw
  let s := s.drew
  { s with
    lamp := { s.lamp with root := some (r.setWidth 256) }
    attic := { s.attic with
      nonce := n.setWidth 256, owned := true, standing := [], signers := [{ x with admin := true, lastSeq := 0 }]
      resets := if s.attic.lifecycle = 0 then 0 else s.attic.resets } }

def setLifecycle (goal : Nat) (s : State) : State :=
  event Ev.LIFECYCLE_CHANGE [s.attic.lifecycle, goal] { s with attic := { s.attic with lifecycle := goal } }

/-- Every level below its Deployed floor rises to it (R422). -/
def raiseLevels (s : State) : State :=
  syncLamp ((List.range 24).foldl (fun s m =>
    if s.fld (Reg.TMP_LEVEL m) Fd.TMP_LEVEL_LEVEL < floorOf s m then s.setFld (Reg.TMP_LEVEL m) Fd.TMP_LEVEL_LEVEL (floorOf s m) else s) s)

/-- What Retired destroys for good: identity, root, nonce, standing blobs. -/
def retire (s : State) : State :=
  { s with
    vault := { s.vault with identity := false }, lamp := { s.lamp with root := none }
    attic := { s.attic with nonce := 0, owned := false, standing := [] } }

/-- To Enrolled: the record, the keys, the profile in Blank, then the reset. -/
def toEnrolled (o : OrdReq) (s : State) : OrdAns × State :=
  match ordRead o s (o.arg 1) signerLen with
  | none => ordNoRead o s (o.arg 1) signerLen
  | some b =>
    let x := parseSigner b
    if 0xFFFF0000 ≤ x.keyId ∨ (o.blank ∧ !sameSigner x (attachedSigner o)) then ordSt St.UNSUPPORTED s
    else
      let (st, s) := if s.attic.lifecycle = 0 then saveProfile s else (0, s)
      if st ≠ 0 then ordSt st s
      else
        let (ok, s) := atticWrite 3 blkEnrol s
        if ok then (.gone, internalReset 3 0 (setLifecycle 1 (enrol x s))) else ordSt St.COUNTER_END s

/-- LIFECYCLE holds the whole part: any claim, or an order that waits, makes it busy. -/
def lifecycleBody : OrdBody := adminOnly fun o s =>
  let goal := o.arg 0
  if !transition s s.attic.lifecycle goal then ordSt St.UNSUPPORTED s
  else match s.fore.claims with
    | c :: _ => (.busy c, s)
    | [] =>
      if goal = 1 then toEnrolled o s
      else
        let (ok, s) := atticWrite 3 blkLife s
        if !ok then ordSt St.COUNTER_END s
        else if goal = 2 then ordOk (raiseLevels (setLifecycle 2 s))
        else (.gone, internalReset 3 0 (setLifecycle 3 (retire s)))

/-- LIFECYCLE_ENROLLED (R446). -/
def execLifecycleEnrolled (o : OrdBy) (cell : W64) (s : State) : Ans := .next (orderRow 0xA06 lifecycleBody o [1, cell] s)
/-- LIFECYCLE_DEPLOYED (R446). -/
def execLifecycleDeployed (o : OrdBy) (s : State) : Ans := .next (orderRow 0xA06 lifecycleBody o [2] s)
/-- LIFECYCLE_RETIRED (R446). -/
def execLifecycleRetired (o : OrdBy) (s : State) : Ans := .next (orderRow 0xA06 lifecycleBody o [3] s)

/-! MODE_SET (R441 to R445) -/

/-- Test may be entered in Blank, or under a signer with TEST and a TARGET of this part. -/
def testAllowed (o : OrdReq) (s : State) : Bool := s.attic.lifecycle == 0 || o.testOk

/-- New memory keys, drawn one by one; the deep slots stay (R444). -/
def freshMemKeys (s : State) : State :=
  (List.range 256).foldl (fun s i =>
    let k := s.draw
    let t := s.drew
    { t with vault := { t.vault with memKeys := tput memKey0 t.vault.memKeys i k } }) s

/-- Test entry: the stop of R27, traffic keys and sessions gone, memory under new keys. -/
def enterTest (s : State) : State :=
  let s := zeroUnits (stopTraffic true (abortJobs s))
  let s := dropHewers (dropSession s)
  let s := { s with
    vault := { s.vault with slots := [], fills := [], sweeps := [], prevKeys := [] }
    twin := { s.twin with overman := .reset } }
  let s := dropWalks (freshMemKeys s)
  let c := s.draw
  let s := s.drew
  let s := { s with
    assoc := [], mem := { Mem.reset with noKey := false, hot := s.mem.hot, walked := zeroedUnder s }, cls := { s.cls with cached := [], fetching := [] }
    vault := { s.vault with checkKey := c.setWidth 256 } }
  powerFor 2 (setMode 1 s)

/-- A gallery reset that runs as the galleries power down ends ABORTED. -/
def dropGalleryResets (s : State) : State :=
  let gs := s.gal.restoring ++ s.gal.draining
  gs.foldl (fun s g => resetOrderEnd g St.ABORTED s) { s with gal := { s.gal with restoring := [], draining := [] } }

/-- Banked entry (R443): the stop, deep lanes, galleries off, HBM in self-refresh. -/
def enterBanked (s : State) : State :=
  let s := dropGalleryResets (stopTraffic true (abortJobs s))
  let s := (List.range 64).foldl (fun s g => clearGallery g s) s
  let s := (List.range 64).foldl (fun s L => leaveUp L 0 s) s
  powerFor 3 (setMode 3 (s.setReg Reg.GAL_ONLINE 0))

/-- A lane test or a re-key walk that MODE_SET 3 meets (Tables 07.10, 10.4). -/
def bankedMeets (s : State) : Option Claim :=
  match s.fore.claims.find? (fun c => c.code == 0x102 || c.code == 0x103) with
  | some c => some c
  | none => s.mem.walks.getLast?.map (fun w => hwClaim (.memKey w.1) 0x605)

/-- Control moves first on an ACTIVE twin whose partner can take it (Table 14.14). -/
def moveFirst (s : State) : Bool := twinOn s && isActive s && peerAlive s && s.twin.peerSynced

def toBanked (o : OrdReq) (s : State) : OrdAns × State :=
  match bankedMeets s with
    | some c => (.defer c, s)
    | none =>
      if s.mode ≠ 2 then ordSt St.UNSUPPORTED s
      else if resyncOn s && moveFirst s then (.defer (hwClaim .image 0x007), s)
      else if moveFirst s then (.wait, yieldRole 6 (addClaim (o.claim .role) (addClaim (o.claim .mode) s)))
      else ordOk (enterBanked s)

def modeSetBody : OrdBody := fun o s =>
  let m := o.arg 0
  if m = 0 ∨ 3 < m then ordSt St.UNSUPPORTED s
  else match claimOn s .mode with
    | some c => (.busy c, s)
    | none =>
      if m = s.mode then ordOk s
      else if m = 1 then
        (if !testAllowed o s then ordSt St.DENIED (trigger 0x15 [1] s)
         else if s.mode = 4 then ordSt St.DENIED s
         else if s.mode ≠ 2 then ordSt St.UNSUPPORTED s
         else ordOk (enterTest s))
      else if m = 3 then toBanked o s
      else if s.mode = 3 then (.wait, addClaim (hwClaim .mode 0x005) s)
      else if s.mode = 1 then (.gone, internalReset 4 0 s)
      else if s.mode = 4 then (.gone, internalReset 5 0 s)
      else ordSt St.UNSUPPORTED s

/-- MODE_SET_TEST (R444). -/
def execModeSetTest (o : OrdBy) (s : State) : Ans := .next (orderRow 0xA07 modeSetBody o [1] s)
/-- MODE_SET_SERVICE (R442). -/
def execModeSetService (o : OrdBy) (s : State) : Ans := .next (orderRow 0xA07 modeSetBody o [2] s)
/-- MODE_SET_BANKED (R443). -/
def execModeSetBanked (o : OrdBy) (s : State) : Ans := .next (orderRow 0xA07 modeSetBody o [3] s)

/-- Banked is left: galleries are back, lanes leave deep state with the settings they kept, the part is in Service. -/
def leaveBanked (s : State) : State :=
  let s := powerFor 2 (setMode 2 ((List.range 64).foldl (fun s g => if nbit (galPresent s) g then setOnline g true s else s) s))
  let s := (List.range 64).foldl (fun s L =>
    if lanePresent s L ∧ laneMay s L then (let t := startLane L s; setLaneRun L { laneRun t L with kept := true } t) else s) s
  let s := twinStart (dropClaims (fun c => c.res == .mode && c.code == 0x005) s)
  match s.fore.waits.find? (fun o => o.code == 0xA07 && o.arg 0 == 2) with
  | some o => finishWait o St.OK [] s
  | none => s

/-- BANKED_EXIT_DONE (R443). -/
def execBankedExitDone (s : State) : Ans :=
  .next (onlyIf (s.live && s.mode == 3 && (match claimOn s .mode with | some c => c.code == 0x005 | none => false)) leaveBanked s)

/-! PROFILE_SAVE (R455) -/

def profileSaveBody : OrdBody := unclaimed .profile fun _ s => let (st, s) := saveProfile s; ordSt st s
/-- PROFILE_SAVE (Table 07.9). -/
def execProfileSave (o : OrdBy) (s : State) : Ans := .next (orderRow 0xA08 profileSaveBody o [] s)

/-! COUNTER_INC (R458) -/

def counterIncBody : OrdBody := fun o s =>
  let n := o.arg 0
  if 32 ≤ n then ordSt St.UNSUPPORTED s
  else if n < 18 then ordSt St.DENIED s
  else
    let (ok, s) := counterUp n s
    if ok then (.done St.OK [res 0 (counterOf s n)], s) else ordSt St.COUNTER_END s
/-- COUNTER_INC (Table 07.9). -/
def execCounterInc (o : OrdBy) (n : W64) (s : State) : Ans := .next (orderRow 0xA09 counterIncBody o [n] s)

/-! ACCESS_SET (R404, R409, R410) -/

def targetKnown (t : Nat) : Bool :=
  t < 2 || (decide (0x10 ≤ t) && decide (t < 0x17)) || (decide (0x20 ≤ t) && decide (t < 0x24)) || (decide (0x30 ≤ t) && decide (t < 0x3F)) ||
  (decide (0x40 ≤ t) && decide (t < 0x80))

/-- What no ACCESS_SET may grant (R409). -/
def grantForbidden (t m p : Nat) : Bool :=
  (nbit p 0 && (t == 0x01 || t == 0x20 || (t == 0x11 && decide (m < 16)))) ||
  (nbit p 1 && t == 0x21 && m != mForeman) ||
  (p != 0 && (t == 0x00 || t == 0x01 || t == 0x11) && (m == mI3c || m == mDebug))

def setAccess (t m p : Nat) (s : State) : State :=
  { s with host := { s.host with access := tput byte0 s.host.access (t * 32 + m) (BitVec.ofNat 8 p) } }

/-- Two ranges of cells meet. -/
def rangesMeet (b c b' c' : Nat) : Bool := decide (0 < c) && decide (0 < c') && decide (b < b' + c') && decide (b' < b + c)

/-- A new landing range fits: at most 16,384 cells that exist and are nobody else's. -/
def rangeFits (s : State) (fn base count : Nat) : Bool :=
  decide (count ≤ 16384) && decide (base + count ≤ 65536) &&
  (List.range 16).all (fun g => g == fn || !rangesMeet base count (cellBase s g) (cellCount s g))

/-- Cells that leave a function's range. -/
def leaving (s : State) (fn base count : Nat) : List Nat :=
  ((List.range (cellCount s fn)).map (cellBase s fn + ·)).filter (fun c => decide (c < base) || decide (base + count ≤ c))

/-- The range changes once the leaving cells are zero; a DEVICE cell among them makes the order busy. -/
def setRange (t m p base count : Nat) (s : State) : OrdAns × State :=
  let out := leaving s m base count
  if out.any (fun c => tokenOf s c == 1) then (.busy (noHolder .mode), s)
  else
    let s := out.foldl (fun s c => zeroSectors (landingAt c) 4096 s) s
    let s := s.setReg (Reg.HST_FN_CELLS m) (BitVec.ofNat 64 (base + count * 2 ^ 16))
    ordOk (event Ev.ACCESS_CHANGED [t, m, p, base + count * 2 ^ 16] (setAccess t m p s))

def accessSetBody : OrdBody := fun o s =>
  let t := o.arg 0
  let m := o.arg 1
  let p := nbits (o.arg 2) 0 4
  if !targetKnown t ∨ 24 ≤ m then ordSt St.UNSUPPORTED s
  else if grantForbidden t m p then ordSt St.DENIED s
  else if t = 0x15 ∧ m < 16 then
    (if rangeFits s m (nbits (o.arg 2) 16 16) (nbits (o.arg 2) 32 15) then setRange t m p (nbits (o.arg 2) 16 16) (nbits (o.arg 2) 32 15) s
     else ordSt St.UNSUPPORTED s)
  else ordOk (event Ev.ACCESS_CHANGED [t, m, p] (setAccess t m p s))
/-- ACCESS_SET (Table 07.9). -/
def execAccessSet (o : OrdBy) (target master perms : W64) (s : State) : Ans := .next (orderRow 0xA0A accessSetBody o [target, master, perms] s)

/-! TALLY_READ (R436) -/

def insertRec (r : TRec) : List TRec → List TRec
  | [] => [r]
  | x :: t => if r.seq ≤ x.seq then r :: x :: t else x :: insertRec r t

/-- Valid records of a list with SEQ from `lo` on and below `hi`, in SEQ order. -/
def recordsIn (l : List TRec) (lo hi : Nat) : List TRec :=
  (l.filter (fun r => r.valid && decide (lo ≤ r.seq) && decide (r.seq < hi))).foldr insertRec []

def tallyReadBody : OrdBody := fun o s =>
  let area := o.arg 0
  let lo := o.arg 1
  let n := o.arg 2
  if 2 < area ∨ n = 0 ∨ 4096 < n then ordSt St.UNSUPPORTED s
  else if s.attic.nextSeq ≤ lo then (.done St.OK [res 0 0, res 1 lo, res 2 0], s)
  else
    let named := (if area = 1 then [] else s.attic.evid) ++ (if area = 0 then [] else s.attic.ring)
    let found := recordsIn named lo s.attic.nextSeq
    let copied := found.take n
    let stop := if n ≤ found.length then (match copied.getLast? with | some r => r.seq + 1 | none => lo) else s.attic.nextSeq
    let skipped := (stop - lo) - (recordsIn (s.attic.evid ++ s.attic.ring) lo stop).length
    let rs := [res 0 copied.length, res 1 stop, res 2 skipped]
    if copied.isEmpty then (.done St.OK rs, s) else ordWrite o (o.arg 3) (copied.flatMap TRec.bytes) rs s
/-- TALLY_READ (Table 07.9). -/
def execTallyRead (o : OrdBy) (area first records cell : W64) (s : State) : Ans := .next (orderRow 0xB01 tallyReadBody o [area, first, records, cell] s)

end Sys2Proof.Machine
end

