-- ==== Sys2Proof/Machine/TwinOrders.lean ====
section
/-! DEFINITION. The twin and hierarchy orders (R375, R377, R382, R383). -/
namespace Sys2Proof.Machine

/-! TWIN_RESYNC (R375) -/

/-- The standby asks for a copy of the control image and holds the claim on its own. -/
def askResync (s : State) : State :=
  setTwn Fd.TWN_STATUS_RESYNC_ACTIVE 1 (addClaim (hwClaim .image 0x007) (xcSend 0x06 [] { s with twin := { s.twin with copied := [] } }))

/-- Only a standby with a session has anyone to ask (log entry 96). -/
def twinResyncBody : OrdBody := fun o s =>
  if !isStandby s ∨ !s.twin.link.up then ordSt St.UNSUPPORTED s else unclaimed .image (fun _ s => ordOk (askResync s)) o s

/-- TWIN_RESYNC (Table 07.9). -/
def execTwinResync (o : OrdBy) (s : State) : Ans := .next (orderRow 0x901 twinResyncBody o [] s)

/-! ROLE_MOVE (R377) -/

def roleMoveBody : OrdBody := fun o s =>
  if o.arg 0 ≠ 1 ∨ !twinOn s then ordSt St.UNSUPPORTED s
  else match claimOn s .image, claimOn s .role with
    | some c, _ => (.busy c, s)
    | none, some c => (.busy c, s)
    | none, none =>
      if peerAlive s && s.twin.peerSynced then (.wait, yieldRole 6 (addClaim (o.claim .role) s)) else ordSt St.UNSUPPORTED s

/-- ROLE_MOVE (Table 07.9). -/
def execRoleMove (o : OrdBy) (target : W64) (s : State) : Ans := .next (orderRow 0x902 roleMoveBody o [target] s)

/-! HEWER_ENROL (R382) -/

/-- A hewer's entry; a session under the entry before it ends. -/
def enrolHewer (h serial addr : Nat) (s : State) : State :=
  let s := match hewerOf s h with | some x => freeKey x.link s | none => s
  let s := setHewerF h Fd.TWN_HEWER_STATUS_UP 0 (setHewerF h Fd.TWN_HEWER_STATUS_ENROLLED 1 s)
  setHewer h (some ⟨serial, addr, .reset⟩) s

def hewerEnrolBody : OrdBody := fun o s =>
  let h := o.arg 0
  if !isOverman s ∨ 64 ≤ h then ordSt St.UNSUPPORTED s
  else match ordRead o s (o.arg 1) 22 with
    | none => ordNoRead o s (o.arg 1) 22
    | some b => match claimOn s (.hewer h) with
      | some c => (.busy c, s)
      | none =>
        if o.src ≠ 2 ∧ 64 ≤ s.twin.hewers.length then ordSt St.FULL s
        else ordOk (enrolHewer h (be b 0 16) (be b 16 6) s)

/-- HEWER_ENROL (Table 07.9). -/
def execHewerEnrol (o : OrdBy) (id cell : W64) (s : State) : Ans := .next (orderRow 0x903 hewerEnrolBody o [id, cell] s)

/-! Shaft messages (R381) -/

/-- FLAGS of a shaft frame from a direction: 0 overman, 1 hewer. -/
def shaftFlags (s : State) (dir : Nat) : Nat := s.position + 2 * dir + 4 * twinF s Fd.TWN_STATUS_SYNCED

def shaftMac (s : State) : Nat := s.fld Reg.TWN_SHAFT_MAC Fd.TWN_SHAFT_MAC_ADDR
def shaftPeer (s : State) : Nat := s.fld Reg.TWN_SHAFT_PEER Fd.TWN_SHAFT_PEER_ADDR

/-- A sealed shaft message on a session, with its next SEQ: the session after it and the state. -/
def shaftPost (dst kind h dir : Nat) (l : Link) (payload : Bytes) (s : State) : Link × State :=
  let seq := l.tx + 1
  let hdr := linkHeader dst (shaftMac s) 0x53 kind (shaftFlags s dir) h seq payload.length
  ({ l with tx := seq }, sendShaft kind (sealedFrame hdr (linkKey s l) payload (dir * 2 ^ 95 + s.position * 2 ^ 94) seq) s)

/-- The overman sends to a hewer whose session is up. -/
def toHewer (h kind : Nat) (payload : Bytes) (s : State) : State :=
  match hewerOf s h with
  | some x => let (l, s) := shaftPost x.addr kind h 0 x.link payload s; setHewer h (some { x with link := l }) s
  | none => s

/-! BLOB_SEND (R383) -/

/-- A key that travels in a BLOB message: its handle and its bytes as Table 14.13 lays them out. -/
def blobEntry (s : State) (h : Nat) : Option Bytes :=
  if !readable s (blobAt h) 80 || !deepWhole s (be (memBytes s (blobAt h) 80) 8 2 % 64) then none
  else
    let x := openBlob (.fill h) (memBytes s (blobAt h) 80) s
    if x.res = 0 then some (natBe 4 h ++ slice x.key 0 32 ++ natBe 8 x.attr ++ natBe 4 x.expiry) else none

/-- At most 64 entries per message. -/
def messages (l : List Bytes) : List (List Bytes) := (List.range (ceilDiv l.length 64)).map (fun i => (l.drop (64 * i)).take 64)

/-- One message to a hewer, and the note that its answer is due. -/
def sendBlob (h : Nat) (acc : List (Nat × Nat) × State) (m : List Bytes) : List (Nat × Nat) × State :=
  let s := toHewer h 0x03 (natBe 2 m.length ++ zeros 6 ++ m.flatten) acc.2
  (acc.1 ++ [(h, match hewerOf s h with | some x => x.link.tx | none => 0)], s)

/-- A named hewer without a session is sent nothing and counts as one that did not answer. -/
def sendBlobs (ms : List (List Bytes)) (acc : List (Nat × Nat) × State) (h : Nat) : List (Nat × Nat) × State :=
  match hewerOf acc.2 h with
  | some x => if x.link.up then ms.foldl (sendBlob h) acc else (acc.1 ++ [(h, 0)], acc.2)
  | none => (acc.1 ++ [(h, 0)], acc.2)

/-- The blobs are read in order; the one that a bit error meets is a free value (log entry 6). -/
def readBlobs : List Nat → Option Nat → State → State
  | [], _, s => s
  | h :: t, bad, s => readBlobs t (bad.bind (fun k => if k = 0 then none else some (k - 1))) (readCells (cellsOf (blobAt h) 80) (if bad = some 0 then .bad else .good) s).2

/-- The blob that a bit error meets. -/
def badBlob (o : OrdReq) (n : Nat) (s : State) : Option Nat := if o.ecc = .bad then some ((Config.free s.draws).toNat % max 1 n) else none

/-- The handles are read and checked; those that pass are sent to every named hewer (log entry 91). -/
def startBlobs (o : OrdReq) (handles : List Nat) (s : State) : State :=
  let s := readBlobs handles (badBlob o handles.length s) s.drew
  let good := handles.filterMap (blobEntry s)
  let named := (List.range 64).filter (fun h => nbit (o.arg 0) h)
  let (waiting, s) := named.foldl (sendBlobs (messages good)) ([], s)
  { s with twin := { s.twin with blobRun := some ⟨o, o.arg 0, waiting, 0, handles.length - good.length, s.time.up⟩ } }

def blobSendBody : OrdBody := fun o s =>
  let n := o.arg 2
  let handles := (List.range n).map (o.arg 1 + ·)
  if !isOverman s ∨ n = 0 ∨ 4096 < n ∨ 2 ^ 20 < o.arg 1 + n then ordSt St.UNSUPPORTED s
  else match handles.findSome? (fun h => claimOn s (.handle h)), s.twin.blobRun with
    | some c, _ => (.busy c, s)
    | none, some r => (.busy (r.req.claim (.handle (r.req.arg 1))), s)
    | none, none => (.wait, startBlobs o handles (handles.foldl (fun s h => addClaim (o.claim (.handle h)) s) s))

/-- BLOB_SEND (Table 07.9). -/
def execBlobSend (o : OrdBy) (hewers first count : W64) (s : State) : Ans := .next (orderRow 0x904 blobSendBody o [hewers, first, count] s)

/-- Every message is acknowledged, or 100 ms have passed since the last one. -/
def blobsDone (s : State) : Bool :=
  match s.twin.blobRun with
  | some r => r.waiting.isEmpty || decide (r.lastAt + 100000000 ≤ s.time.up)
  | none => false

/-- BLOB_SEND_DONE (R383). -/
def execBlobSendDone (s : State) : Ans := .next (onlyIf (s.live && blobsDone s) (endBlobs St.OK) s)

end Sys2Proof.Machine
end

