-- ==== Sys2Proof/Machine/Ord.lean ====
section
/-! DEFINITION. The order instruction ORD (R200) and the running of deferred orders (R223): the body that each order code names (Table 07.9). -/
namespace Sys2Proof.Machine

/-- Orders of subsystems 1 to 4: lanes and ports, line framer, tables, galleries and associations. -/
def orderBodiesLow : List (Nat × OrdBody) :=
  [(0x101, laneRetrainBody), (0x102, laneEyeScanBody), (0x103, lanePrbsBody), (0x104, portGroupBody), (0x105, macCountersBody),
   (0x201, tribRemapBody), (0x202, epochChangeBody), (0x203, epochRxSetBody),
   (0x301, tblAddBody), (0x302, tblDelIfBody), (0x303, tblDmaWriteBody), (0x304, tblCompareBody), (0x305, tblReadBody),
   (0x401, progLoadBody), (0x402, epochSetBody), (0x403, galleryResetBody), (0x404, stateAccessBody), (0x405, pcntReadBody),
   (0x410, assocWriteBody), (0x411, anInstallBody), (0x412, anSelectBody), (0x413, anRetireBody), (0x414, assocReadBody), (0x415, assocCountersBody)]

/-- Orders of subsystems 5 to 8: keys, winder and memory, gate, time. -/
def orderBodiesMid : List (Nat × OrdBody) :=
  [(0x501, keyInstallBody), (0x502, keyGenerateBody), (0x503, keyDeriveBody), (0x504, keyInvalidateBody), (0x505, keyAttrBody), (0x506, kemPublicBody),
   (0x507, deepImportBody), (0x508, cellarPutBody), (0x509, cellarDeleteBody), (0x50A, standingSaveBody), (0x50B, standingDeleteBody),
   (0x510, mkaDeriveBody), (0x511, mkaSakGenBody), (0x512, mkaSakUnwrapBody),
   (0x601, queueCfgBody), (0x602, meterCfgBody), (0x603, shaperCfgBody), (0x604, gateListBody), (0x605, memKeyChangeBody), (0x606, memScrubBody), (0x607, dropNotifyBody),
   (0x701, gateKeyAddBody), (0x702, gateKeyRevokeBody), (0x703, gateFlowBody), (0x801, timeSetBody), (0x802, sampleCfgBody)]

/-- Orders of subsystems 9 to 11: twins, control, guard. -/
def orderBodiesHigh : List (Nat × OrdBody) :=
  [(0x901, twinResyncBody), (0x902, roleMoveBody), (0x903, hewerEnrolBody), (0x904, blobSendBody),
   (0xA01, regWriteBody), (0xA02, regReadBody), (0xA03, signerAddBody), (0xA04, signerRevokeBody), (0xA05, firmwareStageBody), (0xA06, lifecycleBody),
   (0xA07, modeSetBody), (0xA08, profileSaveBody), (0xA09, counterIncBody), (0xA0A, accessSetBody), (0xB01, tallyReadBody), (0xB02, levelSetBody)]

def orderBodies : List (Nat × OrdBody) := orderBodiesLow ++ orderBodiesMid ++ orderBodiesHigh

/-- What an order code does; an undefined one completes with UNSUPPORTED. -/
def orderBody (code : Nat) : OrdBody :=
  match orderBodies.find? (fun e => e.1 == code) with
  | some e => e.2
  | none => fun _ s => ordSt St.UNSUPPORTED s

/-- An order reaches the foreman by its code; an undefined code ends UNSUPPORTED before any check of who may issue it (R200). -/
def submitCode (o : OrdReq) (s : State) : State :=
  if orderBodies.any (fun e => e.1 == o.code) then submit (orderBody o.code) o s else endOrder o (BitVec.ofNat 64 St.UNSUPPORTED) [] (noteOrder o s)

/-! ORD -/

/-- The arguments of an order: g16 to g23 as the bundle reads them. -/
def ordArgs (c : Ctx) : List W64 := (List.range 8).map (fun k => c.h.g (16 + k))

/-- A foreman thread issues the order; a gallery faults. -/
def ordRes (code : BitVec 12) (rd : Reg) (ecc : Ecc) (c : Ctx) : Res' :=
  match c.who with
  | .gal _ _ => bad FC.PRIV (code.setWidth 64)
  | .fore t =>
    .ok { noEff with act := fun s => submitCode (requestBy code.toNat (ordArgs c) ⟨t, rd, ecc⟩ s) s }

/-- The program of a reset function ends at this order (R221). -/
def ordAborts (t : Thr) (gd : Prd) (code : BitVec 12) (rd : Reg) (ecc : Ecc) (b : SlotB) (s : State) : Bool :=
  match t with
  | .fore k => (match ctxOf t s with | some c => spells c (.ord t gd code rd ecc b) b && c.h.p gd.val && programReset s k.val | none => false)
  | .gal _ _ => false

def issueOrd (t : Thr) (gd : Prd) (code : BitVec 12) (rd : Reg) (ecc : Ecc) (b : SlotB) (s : State) : State :=
  if ordAborts t gd code rd ecc b s then (match t with | .fore k => endProgram k.val St.ABORTED s | .gal _ _ => s)
  else issue (.ord t gd code rd ecc b) t gd (ordRes code rd ecc) b s

/-- ORD (R200). -/
def execOrd (t : Thr) (gd : Prd) (code : BitVec 12) (rd : Reg) (ecc : Ecc) (b : SlotB) (s : State) : Ans := .next (issueOrd t gd code rd ecc b s)

/-! DEFERRED_ORDER_RUN (R223) -/

/-- A deferred order runs with the arguments it was issued with, unless the activity that deferred it still goes on (`perform` then leaves the state as it was) or the caution state holds it. -/
def runDeferred (d : Deferred) (s : State) : State :=
  if s.fore.waits.any (fun o => o.t == d.req.t) || inCaution s && heldInCaution d.req.code then s else perform (orderBody d.req.code) d.req s

/-- DEFERRED_ORDER_RUN (R223). -/
def execDeferredOrderRun (ticket : Nat) (s : State) : Ans :=
  match s.fore.deferred.find? (fun d => d.ticket == ticket) with
  | some d => .next (onlyIf (s.live && foreOn s) (runDeferred d) s)
  | none => .next s

end Sys2Proof.Machine
end

