-- ==== Sys2Proof/Machine/Monitors.lean ====
section
/-! DEFINITION. The guard's monitors, the caution state, the ends of the response levels, and the lamp room (R416 to R435). -/
namespace Sys2Proof.Machine

/-! The lamp room's tail (R425, R426, R428) -/

def putTail (l : List TRec) (s : State) : State := { s with lamp := { s.lamp with tail := l } }

/-- A record into the 64 places of the tail, under the ring's severity rule; one that finds no place is counted. -/
def tailAppend (r : TRec) (s : State) : State :=
  let r := { r with seq := s.lamp.tailSeq % 65536 }
  let s := { s with lamp := { s.lamp with tailSeq := s.lamp.tailSeq + 1 } }
  if s.lamp.tail.length < 64 then putTail (s.lamp.tail ++ [{ r with slot := s.lamp.tail.length }]) s
  else match ringEvict r.sev s.lamp.tail with
    | some (o, rest) => putTail (rest ++ [{ r with slot := o.slot }]) s
    | none => { s with lamp := { s.lamp with tailLost := min (s.lamp.tailLost + 1) 0xFFFF } }

/-- A record of the lamp room, stamped with its RTC (source kind 3). -/
def lampRecord (code level : Nat) (vals : List Nat) (s : State) : State :=
  tailAppend ⟨0, s.lamp.rtc, code, (evInfo code).1, (evInfo code).2, level, 3, 0, 0, stateByte s, evData vals, 0xA5, 0⟩ s

/-- The root key is zero. -/
def eraseRoot (s : State) : State := { s with lamp := { s.lamp with root := none } }

/-- A monitor of the lamp room while main supplies are off: it records, and at L4 the root key goes (R426). -/
def lampTrigger (m : Nat) (s : State) : State :=
  let level := tget nat0 s.lamp.levels m
  let s := lampRecord (monCode m) level [m] s
  if level = 4 then lampRecord Ev.ROOT_ERASED 4 [m] (eraseRoot s) else s

/-- A tamper loop that LR_CFG enables. -/
def loopOn (s : State) (i : Nat) : Bool := nbit (fget s.lamp.cfg Fd.LR_CFG_LOOP_EN) i

/-- LAMP_MONITOR_TRIGGER (R426). -/
def execLampMonitorTrigger (m : Fin 32) (s : State) : Ans :=
  let armed := lampMonitors.contains m.val && (!(decide (9 ≤ m.val) && decide (m.val ≤ 12)) || loopOn s (m.val - 9))
  .next (onlyIf (!s.mainOn && armed) (fun s =>
    lampTrigger m.val (if m.val = 0x17 then { s with lamp := { s.lamp with rtcRun := false } } else s)) s)

/-- The RTC stands at the first step of its poll grid (R427). -/
def pollDue (s : State) : Bool := s.lamp.rtcRun && decide (s.lamp.rtc % (1000000 * max 1 (fget s.lamp.cfg Fd.LR_CFG_POLL)) < 30518)

/-- LAMP_LOOP_POLL (R427): in Sealed a pulse senses the enabled loops; the bits given are the loops found open or shorted. -/
def execLampLoopPoll (broken : BitVec 4) (s : State) : Ans :=
  .next (onlyIf (!s.mainOn && pollDue s) (fun s =>
    (List.range 4).foldl (fun s i => if nbit broken.toNat i && loopOn s i then lampTrigger (9 + i) s else s) s) s)

/-- VBAT_ROOT_ERASE (R429): VBAT below 2.10 V with main supplies off; the cause in the record is row 8 of Table 16.1. -/
def execVbatRootErase (s : State) : Ans :=
  .next (onlyIf (!s.mainOn) (fun s => lampRecord Ev.ROOT_ERASED 0 [8] (eraseRoot { s with lamp := { s.lamp with vbatOk := false } })) s)

/-- LAMP_SUPPLY_SWITCH (R425): to VBAT when the main always-on supply leaves its band, which leaves the part Sealed; back without losing state. -/
def execLampSupplySwitch (toVbat : Bool) (s : State) : Ans :=
  if toVbat then
    let t := if s.mainOn then sealedOff s else s
    .next { t with lamp := { t.lamp with onVbat := true } }
  else .next { s with lamp := { s.lamp with onVbat := false } }

/-! Supply monitors (R417, R418) -/

/-- SUPPLY_GLITCH (R417): an excursion of 2 ns to 1 µs. On VBAT the lamp room watches, and only while it draws from it (R472). -/
def execSupplyGlitch (rail : Fin 9) (durNs : Nat) (s : State) : Ans :=
  let is := decide (2 ≤ durNs) && decide (durNs < 1000)
  if s.mainOn then .next (onlyIf (s.live && is && (rail.val != 8 || s.lamp.onVbat)) (trigger 0x02 [rail.val, durNs]) s)
  else .next (onlyIf (is && rail.val == 8 && s.lamp.onVbat) (lampTrigger 0x02) s)

/-- A reset crossing: monitor 0x00 takes the response of its level, the lamp room records the crossing, the part resets. -/
def resetCrossing (rail : Nat) (s : State) : State :=
  let level := effective s 0
  internalReset 2 rail (lampRecord Ev.SUPPLY_RESET level [rail] (respond level s))

/-- SUPPLY_RESET (R417): a main rail outside its reset band for 1 µs. -/
def execSupplyReset (rail : Fin 9) (s : State) : Ans := .next (onlyIf (s.live && rail.val != 8) (resetCrossing rail.val) s)

/-- SUPPLY_WARNING (R417): the caution state begins. -/
def execSupplyWarning (rail : Fin 9) (s : State) : Ans :=
  .next (onlyIf (s.live && rail.val != 8 && !inCaution s) (fun s =>
    let s := bump Reg.TMP_CNT_CAUTION 1 (s.setFld Reg.TMP_STATUS Fd.TMP_STATUS_CAUTION 1)
    { s with guard := { s.guard with dipRail := rail.val, dipStart := s.time.up, cautionLong := false } }) s)

/-- CAUTION_LONG (R418): the caution state has lasted 1 ms. -/
def execCautionLong (s : State) : Ans :=
  .next (onlyIf (s.live && inCaution s && !s.guard.cautionLong && decide (s.guard.dipStart + 1000000 ≤ s.time.up)) (fun s =>
    trigger 0x01 [s.guard.dipRail] { s with guard := { s.guard with cautionLong := true } }) s)

/-- One piece of held work runs. -/
def runHeld (h : Held) (s : State) : State :=
  match h with
  | .order o => perform (orderBody o.code) o (endGrace o.t s)
  | .fill x ecc => if s.vault.fills.contains x then fillRun x ecc s else s
  | .remask d ok => if dBit s d 0 then remaskChecked d ok s else s
  | .expire n => if (slotOf s n).valid && reached s ((slotOf s n).g2 TS.EXPIRY) then expire n s else s
  | .withdraw n => if (slotOf s n).valid && !parentSame s (slotOf s n) && (slotOf s n).g0 TS.WOP == 1 then withdraw n s else s
  | .sweep deep n => (match s.vault.sweeps.find? (fun w => w.deep == deep && w.slot == n) with | some w => sweepAll w s | none => s)
  | .tubKey rx t e => tubKeyDerived rx t e s
  | .oldKeys n => zeroizeOld n s
  | .bundleSeq t => releaseSeq t s
  | .gateFloor k q ecc wrOk => match gentry s k with | some g => if g.seqNo = q then tryRelease k g ecc wrOk s else s | none => s
  | .epochTx n => if changing s n && !(txTrunkOf s n).counted then countEpoch (groupOf s 0 n) n s else s
  | .rxEpoch n e => keepRxEpoch n e s

def isFill (h : Held) : Bool := match h with | .fill _ _ => true | _ => false

/-- Held fills run before everything else that is held, each group in arrival order (R137). -/
def runAllHeld : Nat → State → State
  | 0, s => s
  | k + 1, s =>
    match s.guard.held.find? isFill, s.guard.held with
    | some h, l => runAllHeld k (runHeld h { s with guard := { s.guard with held := l.erase h } })
    | none, h :: l => runAllHeld k (runHeld h { s with guard := { s.guard with held := l } })
    | none, [] => s

/-- The caution state ends: its SUPPLY_DIP record, then the held work. The dip began 1 µs before the state and ended 10 µs before its end (R417, R418; log entry 113). -/
def endCaution (minMv : Nat) (s : State) : State :=
  let dur := min (s.time.up - s.guard.dipStart - 9000) (2 ^ 32 - 1)
  let s := s.setFld Reg.TMP_STATUS Fd.TMP_STATUS_CAUTION 0
  let s := s.setReg Reg.TMP_LAST_DIP (BitVec.ofNat 64 (s.guard.dipRail + minMv % 65536 * 2 ^ 16 + dur * 2 ^ 32))
  let s := event Ev.SUPPLY_DIP [s.guard.dipRail, minMv, dur] { s with guard := { s.guard with cautionLong := false } }
  runAllHeld s.guard.held.length s

/-- CAUTION_EXIT (R418): every rail has stayed inside its narrowed band for 10 µs; the minimum of the dip is given. -/
def execCautionExit (minMv : Nat) (s : State) : Ans :=
  .next (onlyIf (s.live && inCaution s && decide (s.guard.dipStart + 10000 ≤ s.time.up)) (endCaution minMv) s)

/-! The other monitors (R419, R423, R340) -/

/-- CLOCK_FAULT: 0 SYSCLK, 1 REFCLK_LN, 2 REFCLK_CL, 3 PE_REFCLK. -/
def execClockFault (clk : Fin 4) (s : State) : Ans := .next (onlyIf s.live (trigger 0x03 [clk.val]) s)
/-- CLOCK_GLITCH. -/
def execClockGlitch (s : State) : Ans := .next (onlyIf s.live (trigger 0x04 []) s)
/-- TEMP_WARN. -/
def execTempWarn (sensor : Fin 16) (s : State) : Ans := .next (onlyIf s.live (trigger 0x05 [sensor.val]) s)
/-- TEMP_HIGH. -/
def execTempHigh (sensor : Fin 16) (s : State) : Ans := .next (onlyIf s.live (trigger 0x06 [sensor.val]) s)
/-- TEMP_LOW: sensor 16 is the lamp room's, which it also watches in Sealed. -/
def execTempLow (sensor : Fin 17) (s : State) : Ans :=
  if s.mainOn then .next (onlyIf s.live (trigger 0x07 [sensor.val]) s) else .next (onlyIf (sensor.val == 16) (lampTrigger 0x07) s)
/-- SHIELD_BREAK. -/
def execShieldBreak (s : State) : Ans := if s.mainOn then .next (onlyIf s.live (trigger 0x08 []) s) else .next (lampTrigger 0x08 s)
/-- TAMPER_LOOP (R427): with main supplies on; in Sealed a break is found by the next pulse. -/
def execTamperLoop (loop : Fin 4) (s : State) : Ans := .next (onlyIf (s.live && loopOn s loop.val) (trigger (9 + loop.val) [loop.val]) s)

/-- SHADOW_SWEEP (R423): registers whose two copies differ. The next SEQ is then the higher of the two values, of which one is unknown (log entry 6). -/
def execShadowSweep (bad : List Shadow) (s : State) : Ans :=
  .next (onlyIf (s.live && !bad.isEmpty) (fun s =>
    let s := if bad.contains .nextSeq then
        { s.drew with attic := { s.attic with nextSeq := max s.attic.nextSeq ((Config.free s.draws).toNat % 2 ^ 48) } }
      else s
    trigger 0x0D [bad.length] s) s)

/-- FOREMAN_LOCKSTEP (R205): both cores stop. -/
def execForemanLockstep (s : State) : Ans :=
  .next (onlyIf (s.live && foreOn s) (fun s => trigger 0x0E [] { s with fore := { s.fore with stopped := true } }) s)

/-- VBAT_LOW. -/
def execVbatLow (s : State) : Ans := .next (onlyIf s.live (fun s => trigger 0x16 [] { s with lamp := { s.lamp with vbatOk := false } }) s)

/-- RTC_STOP: the oscillator has stopped for 1 ms. -/
def execRtcStop (s : State) : Ans :=
  let t := { s with lamp := { s.lamp with rtcRun := false } }
  if s.mainOn then .next (onlyIf (s.live && s.lamp.rtcRun) (fun _ => trigger 0x17 [] t) s) else .next (onlyIf s.lamp.rtcRun (fun _ => lampTrigger 0x17 t) s)

/-- PKE_KAT (R340): a failed test stops the engine. -/
def execPkeKat (ok : Bool) (s : State) : Ans :=
  .next (onlyIf (s.live && s.mode == 2 && s.fore.pkeOk && !ok) (fun s => trigger 0x13 [] { s with fore := { s.fore with pkeOk := false } }) s)

/-! Response levels (R420, R421, R424) -/

/-- ISLAND_POWER_OFF (R424): an island that does not acknowledge the erase of the open window is switched off; the guard never switches off PD0 and PD1. -/
def execIslandPowerOff (dom : Fin 80) (s : State) : Ans :=
  match s.guard.win with
  | some w =>
    let w' := if 16 ≤ dom.val then { w with galOff := setNbit w.galOff (dom.val - 16) true } else { w with islOff := setNbit w.islOff (dom.val - 2) true }
    .next (onlyIf (s.live && w.erased != 0 && decide (2 ≤ dom.val)) (fun s => setDomain dom.val 0 { s with guard := { s.guard with win := some w' } }) s)
  | none => .next s

/-- The 32 bytes of Table 16.7. -/
def alarmData (w : AlarmWin) (offset : Nat) : Bytes :=
  natBe 1 w.level ++ natBe 1 (min w.fired 255) ++ (List.range 8).flatMap (fun i => natBe 2 (w.codes.getD i 0)) ++ natBe 1 w.erased ++ natBe 1 w.readBack ++
    natBe 8 w.galOff ++ natBe 2 (min offset 65535) ++ natBe 2 w.islOff

/-- The ALARM record of a window: severity ERROR up to L2, CRITICAL above. -/
def alarmRecord (w : AlarmWin) (s : State) : State :=
  let lost := losesEvidence Ev.ALARM s
  let s := record (mkRec Ev.ALARM (if 3 ≤ w.level then 4 else 3) true w.level 0 0 (alarmData w (s.time.up - w.start)) s) s
  if lost then trigger0 0x14 [s.attic.evidLost] s else s

/-- ALARM_WINDOW_END (R421): 1 µs after its first trigger the window closes. -/
def execAlarmWindowEnd (s : State) : Ans :=
  match s.guard.win with
  | some w => .next (onlyIf (s.live && decide (w.start + 1000 ≤ s.time.up)) (fun s => alarmRecord w { s with guard := { s.guard with win := none } }) s)
  | none => .next s

/-- The squelch lifts: L1 stays in force, the lanes come up through bring-up. -/
def liftSquelch (s : State) : State :=
  let s := s.setFld Reg.TMP_STATUS Fd.TMP_STATUS_LEVEL 1
  let s := event Ev.ALARM_CLEARED [2] (s.setFld Reg.TMP_STATUS Fd.TMP_STATUS_SQUELCH 0)
  (List.range 64).foldl (fun s L => if lanePresent s L then restartLane L s else s) s

/-- SQUELCH_END (Table 16.3): no L2 cause has persisted for 10 ms since the last one. -/
def execSquelchEnd (s : State) : Ans :=
  .next (onlyIf (s.live && squelched s && s.guard.halted == 0 && decide (s.guard.l2At + 10000000 ≤ s.time.up)) liftSquelch s)

/-- L1 ends: its latch clears, nothing is in force. -/
def clearAlarm (s : State) : State :=
  let s := s.setFld Reg.TMP_ALARM Fd.TMP_ALARM_L1 0
  event Ev.ALARM_CLEARED [1] (s.setFld Reg.TMP_STATUS Fd.TMP_STATUS_LEVEL 0)

/-- A host write into PF BAR0 needs W or A on its block (R411; log entry 56). -/
def hostMayWrite (s : State) (off : Nat) : Bool := permits s (0x30 + off / 0x100000) 0 1 || permits s (0x30 + off / 0x100000) 0 3

/-- The latch is set and no cause of L1 or above persists. -/
def alarmMayClear (s : State) (persist : List Nat) : Bool :=
  s.flag Reg.TMP_ALARM Fd.TMP_ALARM_L1 && !squelched s && s.guard.halted == 0 && !persist.any (fun m => decide (1 ≤ effective s m))

/-- TMP_ALARM_CLEAR (Table 16.3): the host writes 1; the latch clears when no cause of L1 or above persists; `persist` are the monitors whose cause does. -/
def execTmpAlarmClear (persist : List (Fin 32)) (s : State) : Ans :=
  .next (onlyIf (s.live && hostMayWrite s Reg.TMP_ALARM && alarmMayClear s (persist.map (·.val))) clearAlarm s)

/-- TALLY_REFILL (R435): a bucket gains a token. -/
def execTallyRefill (code : BitVec 16) (s : State) : Ans :=
  let n := tokens s code.toNat
  .next (onlyIf (s.live && decide (n < s.fld Reg.TLY_CFG Fd.TLY_CFG_BURST)) (setTokens code.toNat (n + 1)) s)

end Sys2Proof.Machine
end

