-- ==== Sys2Proof/Machine/HostLink.lean ====
section
/-! DEFINITION. The host at its BARs (R389 to R404, R411): tokens, landing cells, doorbells, transmit entries, vectors, register writes, and the host-side resets. -/
namespace Sys2Proof.Machine

/-! Who may reach what (R406, R411) -/

def busyFlr (s : State) (fn : Nat) : Bool := s.host.flr.contains fn

/-- A token fault of a function (R393, R394). -/
def tokenFault (fn cell : Nat) (s : State) : State := irq fn 5 (event Ev.TOKEN_FAULT [fn, fn, 0x15, cell] (bumpPg fn pgTokenFault 1 s))

/-- Bytes of a dropped read: 0xDEAD_DEAD in every doubleword. -/
def deadBytes (n : Nat) : Bytes := (List.range n).map (fun i => if i % 2 = 0 then 0xAD else 0xDE)

/-- The completion of a host read. -/
def readDone (fn : Nat) (data : Bytes) (ep : Bool) (s : State) : State := s.emit (.read fn data ep)

/-- Bytes whose value the spec leaves open (log entry 6). -/
def freeBytes (s : State) (n : Nat) : Bytes := (List.range n).map (fun i => (Config.free (s.draws + i)).setWidth 8)

/-! Landing cells (R389, R392, R394, R395) -/

/-- The cell a BAR2 offset names; none beyond the BAR or across a cell's end, which PCI Express rules out. -/
def barCell (s : State) (fn off len : Nat) : Option Nat :=
  if len = 0 ∨ 4096 < off % 4096 + len ∨ (if fn = 0 then 2 ^ 28 else 2 ^ 26) ≤ off then none
  else some (if fn = 0 then off / 4096 else cellBase s fn + off / 4096)

def landingWrite (fn cell off : Nat) (data : Bytes) (ecc : Ecc) (s : State) : State :=
  if !(ownsCell s fn cell && permits s 0x15 fn 1) then hostViolation fn 0x15 cell s
  else if tokenOf s cell ≠ 0 then tokenFault fn cell s
  else (memWrite (landingAt cell + off % 4096) data ecc s).2

/-- LANDING_WRITE (R395): one write request through a function's BAR2. -/
def execLandingWrite (fn : Fin 16) (off : Nat) (data : Bytes) (ide : Bool) (ecc : Ecc) (s : State) : Ans :=
  match barCell s fn.val off data.length with
  | some cell =>
    .next (onlyIf (s.live && !busyFlr s fn.val) (fun s =>
      if ideOk s ide then landingWrite fn.val cell off data ecc s else hostViolation fn.val 0x15 cell s) s)
  | none => .next s

def landingRead (fn cell off len : Nat) (ecc : Ecc) (s : State) : State :=
  if !(ownsCell s fn cell && permits s 0x15 fn 0) then readDone fn (deadBytes len) true (hostViolation fn 0x15 cell s)
  else if tokenOf s cell ≠ 0 then readDone fn (deadBytes len) true (tokenFault fn cell s)
  else
    let a := landingAt cell + off % 4096
    let (ok, s) := readCells (cellsOf a len) ecc s
    if ok then readDone fn (memBytes s a len) false s
    else { readDone fn (freeBytes s len) true s with draws := s.draws + len }

/-- LANDING_READ (R394): one read request through a function's BAR2; during an FLR it returns 0 (R403). -/
def execLandingRead (fn : Fin 16) (off len : Nat) (ide : Bool) (ecc : Ecc) (s : State) : Ans :=
  match barCell s fn.val off len with
  | some cell =>
    .next (onlyIf s.live (fun s =>
      if !ideOk s ide then readDone fn.val (deadBytes len) true (hostViolation fn.val 0x15 cell s)
      else if busyFlr s fn.val then readDone fn.val (zeros len) false s
      else landingRead fn.val cell off len ecc s) s)
  | none => .next s

/-! Tokens (Table 15.5) -/

/-- A host write to the token of a cell of its range. -/
def tokenWrite (fn cell value : Nat) (s : State) : State :=
  let t := tokenOf s cell
  if t = 0 ∧ value = 1 then setToken cell 1 s
  else if t = 2 ∧ value = 0 then
    (if s.host.clearing.contains cell then s else { s with host := { s.host with clearing := s.host.clearing ++ [cell] } })
  else tokenFault fn cell s

/-- TOKEN_WRITE (R393): byte k of the token area; beyond CELL_COUNT the area is reserved. -/
def execTokenWrite (fn : Fin 16) (k : Nat) (value : Byte) (ide : Bool) (s : State) : Ans :=
  .next (onlyIf (s.live && !busyFlr s fn.val && decide (k < 0x4000)) (fun s =>
    if !ideOk s ide then hostViolation fn.val 0x30 (0xC000 + k) s
    else if k < cellCount s fn.val then tokenWrite fn.val (cellBase s fn.val + k) value.toNat s else s) s)

/-- POISON_CLEARED (R393): every sector of the cell is zero, the token reads HOST. -/
def execPoisonCleared (cell : Fin 65536) (s : State) : Ans :=
  .next (onlyIf (s.live && s.host.clearing.contains cell.val) (fun s =>
    let s := setToken cell.val 0 (zeroSectors (landingAt cell.val) 4096 s)
    { s with host := { s.host with clearing := s.host.clearing.erase cell.val } }) s)

/-! Doorbells (R396, R398, R399) -/

/-- A producer index written by the host. -/
def doorbell (fn off : Nat) (tail head : Fld) (n new : Nat) (s : State) : State :=
  if tailFits n (s.pgFld fn off head) (s.pgFld fn off tail) new then s.setPgFld fn off tail new else bumpPg fn pgRingFault 1 s

/-- TRANSMIT_RING_DOORBELL (R398). -/
def execTransmitRingDoorbell (fn : Fin 16) (tail : BitVec 8) (s : State) : Ans :=
  .next (onlyIf (s.live && !busyFlr s fn.val) (pageRequest fn.val pgTxDb (doorbell fn.val pgTxDb RF.TX_TAIL RF.TX_HEAD 256 tail.toNat)) s)

/-- FREE_RING_DOORBELL (R399). -/
def execFreeRingDoorbell (fn : Fin 16) (tail : BitVec 10) (s : State) : Ans :=
  .next (onlyIf (s.live && !busyFlr s fn.val) (pageRequest fn.val pgRxf (doorbell fn.val pgRxf RF.RXF_TAIL RF.RXF_HEAD 1024 tail.toNat)) s)

/-! Transmit entries (R398, Table 15.7) -/

/-- The first word of the entry at the transmit ring's consumer index, and its second. -/
def txWord (s : State) (fn i k : Nat) : Nat := (s.pg fn (0x2000 + 16 * i + 8 * k)).toNat

/-- An association lies within the binding of an egress port (R485). -/
def assocWithin (s : State) (a e : Nat) : Bool :=
  let own := fun line => withinLine s a line
  let byTrib := fun (d : Nat) => (List.range 64).any (fun t => tribOn s d t && tribAssoc s d t == a && (tribClient s d t == e || tribLinePort s d t == e))
  (if e < 32 then (match boundLine s e with | some l => own l | none => false) else own (e - 32)) || byTrib 0 || byTrib 1

/-- The entry names cells that are ready, a length in range, an egress the function may use, and an association of its binding. -/
def txEntryOk (s : State) (fn w0 w1 : Nat) : Bool :=
  let e := nbits w0 32 6
  let len := nbits w0 16 14
  decide (60 ≤ len) && decide (len ≤ 16383) && cellsReady s fn (nbits w0 0 16) len && permits s (0x40 + e) fn 1 &&
    (!nbit w0 41 || assocWithin s (nbits w1 0 20) e)

/-- The consumer index moves on, the entry's cells go back, vector 2 is signalled. -/
def txAdvance (fn w0 : Nat) (s : State) : State :=
  let s := s.setPgFld fn pgTxDb RF.TX_HEAD ((s.pgFld fn pgTxDb RF.TX_HEAD + 1) % 256)
  irq fn 2 (handBack (ownCells s fn (cellsFrom (nbits w0 0 16) (nbits w0 16 14))) s)

/-- The frame of an entry as a work item of the function's domain, with the flags its content sets (Table 06.3). -/
def txItem (s : State) (fn w0 w1 : Nat) : Item :=
  let e := nbits w0 32 6
  let it := newItem (96 + fn) noPort (cellBytes s (nbits w0 0 16) (nbits w0 16 14)) (4 * s.time.now)
  { it with
    flags := preFlags s it.data true, fn := fn, cls := nbits w0 38 3, queue := queueAt e (nbits w0 38 3), target := e
    assoc := if nbit w0 41 then some (nbits w1 0 20) else none, mscCfg := s.reg (Reg.MSC_PORT_CFG (e - 32)), tpid := s.reg Reg.MSC_TPID }

/-- One entry: read into the backlog, or skipped and counted; a full domain stops the reading (R141). -/
def txTake (fn w0 w1 : Nat) (ecc : Ecc) (s : State) : State :=
  if !txEntryOk s fn w0 w1 then txAdvance fn w0 (bumpPg fn pgRingFault 1 s)
  else if !backlogRoom s (96 + fn) (nbits w0 16 14) then s
  else
    let (ok, s) := readCells (cellsOf (landingAt (nbits w0 0 16)) (nbits w0 16 14)) ecc s
    if !ok then txAdvance fn w0 (bumpPg fn pgRingFault 1 s)
    else
      let it := txItem s fn w0 w1
      let s := match it.assoc with | some a => requestAssoc a s | none => s
      txAdvance fn w0 (backlogPush it s)

/-- TRANSMIT_ENTRY_READ (R398). -/
def execTransmitEntryRead (fn : Fin 16) (ecc : Ecc) (s : State) : Ans :=
  let h := s.pgFld fn.val pgTxDb RF.TX_HEAD
  .next (onlyIf (trafficOn s && !busyFlr s fn.val && h != s.pgFld fn.val pgTxDb RF.TX_TAIL)
    (txTake fn.val (txWord s fn.val h 0) (txWord s fn.val h 1) ecc) s)

/-! Vectors (R400, R401) -/

/-- IRQ_MODERATION_EXPIRE (R401): causes that arose meanwhile are sent together, and the time begins again. -/
def execIrqModerationExpire (fn : Fin 16) (tx : Bool) (s : State) : Ans :=
  let v := if tx then 2 else 1
  let k := 2 * fn.val + b2n tx
  match tget none0 s.host.moderating k with
  | some (due, at_) =>
    .next (onlyIf (s.live && decide (at_ + 1000 * modTime fn.val v s ≤ s.time.up)) (fun s =>
      let put := fun (x : Option (Bool × Nat)) (s : State) => { s with host := { s.host with moderating := tput none0 s.host.moderating k x } }
      if due then put (if modTime fn.val v s = 0 then none else some (false, s.time.up)) (msixSend fn.val v s) else put none s) s)
  | none => .next s

/-- The second word of a vector's table entry is written; an unmasked vector with its PBA bit set is sent. -/
def msixControl (fn v : Nat) (w : W64) (s : State) : State :=
  let s := s.setPg fn (pgMsix v 1) (w &&& BitVec.ofNat 64 (2 ^ 33 - 1))
  if !nbit w.toNat 32 && nbit (s.pg fn pgPba).toNat v then
    msixSend fn v (s.setPg fn pgPba (s.pg fn pgPba &&& ~~~ BitVec.ofNat 64 (2 ^ v)))
  else s

/-- MSIX_UNMASK (R400). -/
def execMsixUnmask (fn : Fin 16) (v : Fin 64) (s : State) : Ans :=
  .next (onlyIf (s.live && !busyFlr s fn.val)
    (pageRequest fn.val (pgMsix v.val 1) (fun s => msixControl fn.val v.val (s.pg fn.val (pgMsix v.val 1) &&& ~~~ BitVec.ofNat 64 (2 ^ 32)) s)) s)

/-! Register writes (R2, R9, R390, R391, R414) -/

/-- The bits of a job slot's word that the host writes (Table 05.11). -/
def jobMask (k : Nat) : Nat :=
  if k = 0 then 0xFFFFFF else if k = 8 then 0xFFFF0000FFFF else if k = 0x10 then 0x1FFF0001FFFF
  else if k = 0x28 then 1 else if k = 0x18 ∨ k = 0x20 ∨ k = 0x30 ∨ k = 0x38 then 2 ^ 64 - 1 else 0

/-- The bits of a user-page word that the host writes; entries of the rings the part produces are the part's (R396; log entry 100). -/
def pageMask (off : Nat) : Nat :=
  if off = pgCpl then 0x3F else if off = pgRx then 0x1007F else if off = pgMod then 0x3FF03FF
  else if (0x1000 ≤ off ∧ off < 0x1400) ∨ (0x2000 ≤ off ∧ off < 0x3000) ∨ (0x4000 ≤ off ∧ off < 0x4800) then 2 ^ 64 - 1
  else if 0x8000 ≤ off ∧ off < 0x8800 then jobMask (off % 0x80)
  else if 0x9000 ≤ off ∧ off < 0x9400 then 2 ^ 64 - 1
  else 0

def maskWrite (old new : W64) (mask : Nat) : W64 := (old &&& ~~~ BitVec.ofNat 64 mask) ||| (new &&& BitVec.ofNat 64 mask)

/-- A write to a job slot: while its job runs only GO takes effect (R166). -/
def jobSlotWrite (fn off : Nat) (v : W64) (s : State) : State :=
  let j := (off - 0x8000) / 0x80
  let w := if jobRunning s fn j then s.pg fn off else maskWrite (s.pg fn off) v (pageMask off)
  s.setPg fn off (if off % 0x80 = 0 then w ||| (v &&& BitVec.ofNat 64 (2 ^ 32)) else w)

/-- A write to a user page; doorbells written here ring as their own commands do, the token area has its own command. -/
def pageWrite (fn off : Nat) (v : W64) (s : State) : State :=
  if off = pgOrdDb then
    (if tailFits 64 (s.pgFld fn pgOrdDb RF.ORD_HEAD) (s.pgFld fn pgOrdDb RF.ORD_TAIL) (nbits v.toNat 0 6) then
      pullRing fn 64 (s.setPgFld fn pgOrdDb RF.ORD_TAIL (nbits v.toNat 0 6)) else bumpPg fn pgRingFault 1 s)
  else if off = pgTxDb then doorbell fn pgTxDb RF.TX_TAIL RF.TX_HEAD 256 (nbits v.toNat 0 8) s
  else if off = pgRxf then doorbell fn pgRxf RF.RXF_TAIL RF.RXF_HEAD 1024 (nbits v.toNat 0 10) s
  else if off = pgCause then s.setPg fn off (s.pg fn off &&& ~~~ v)
  else if 0x8000 ≤ off ∧ off < 0x8800 then jobSlotWrite fn off v s
  else if 0x9000 ≤ off ∧ off < 0x9400 ∧ off % 16 = 8 then msixControl fn ((off - 0x9000) / 16) v s
  else if pageMask off = 0 then s
  else
    let s := s.setPg fn off (maskWrite (s.pg fn off) v (pageMask off))
    if off = pgCpl then flushCpl (tget nil0 s.host.cplWait fn) fn s else s

/-- A host write to OW fields is ignored and counted; in Deployed it is recorded (R2). -/
def owIgnored (off : Nat) (s : State) : State :=
  let s := bump Reg.HST_CNT_OW_IGNORED 1 s
  if s.attic.lifecycle = 2 then event Ev.REG_WRITE_IGNORED [0, 0, 0x30 + off / 0x100000, off] s else s

/-- A host write that reaches OW fields counts as ignored in every state, also where the access table denies it (R2, R448). -/
def owNoted (off : Nat) (s : State) : State :=
  match descAt off with
  | some d => if typeMask .ow d.fields ≠ 0 then owIgnored off s else s
  | none => s

/-- A write to PF BAR0 by the types of its fields. A 1 into TMP_ALARM acts as TMP_ALARM_CLEAR where no cause persists (log entry 126). -/
def bar0Write (off : Nat) (v : W64) (s : State) : State :=
  if 0xF0000 ≤ off % 0x100000 then s.setReg off (s.reg off &&& ~~~ v)
  else match descAt off with
    | some d =>
      let s := owNoted off s
      if off = Reg.TMP_ALARM then (if nbit v.toNat 0 && alarmMayClear s [] then clearAlarm s else s) else s.setReg off (s.reg off &&& ~~~ (v &&& typeMask .w1c d.fields))
    | none => s

/-- HOST_REGISTER_WRITE (R9): PF BAR0 (`bar0`, the PF only) or the function's own user page. -/
def execHostRegisterWrite (fn : Fin 16) (bar0 : Bool) (off : Nat) (value : W64) (ide : Bool) (s : State) : Ans :=
  if bar0 then
    .next (onlyIf (s.live && fn.val == 0 && off % 8 == 0 && decide (off < 0xF00000)) (fun s =>
      if ideOk s ide && hostMayWrite s off then bar0Write off value s else hostViolation 0 (0x30 + off / 0x100000) off (owNoted off s)) s)
  else
    .next (onlyIf (s.live && !busyFlr s fn.val && off % 8 == 0 && decide (off < 0x10000)) (fun s =>
      if ideOk s ide then pageWrite fn.val off value s else hostViolation fn.val 0x30 off s) s)

/-- What a host read of its user page returns (Table 15.16): the stored word, with the range and the ports put in. -/
def readPage (s : State) (fn off : Nat) : W64 :=
  if busyFlr s fn then (if off = pgStatus then BitVec.ofNat 64 (2 ^ 31) else 0)
  else if off = pgStatus then
    BitVec.ofNat 64 (pack [(0, 16, cellBase s fn), (16, 15, cellCount s fn), (32, 1, b2n (anySecure s))])
  else if off = pgTxPorts then BitVec.ofNat 64 (((List.range 64).map (fun e => b2n (permits s (0x40 + e) fn 1) * 2 ^ e)).sum)
  else if 0xC000 ≤ off ∧ off < 0x10000 then
    BitVec.ofNat 64 (leNat ((List.range 8).map (fun i =>
      if off - 0xC000 + i < cellCount s fn then BitVec.ofNat 8 (tokenOf s (cellBase s fn + (off - 0xC000) + i)) else 0)))
  else s.pg fn off

/-! Host-side resets (R402, R403, Table 15.10) -/

/-- Cells of the transmit entries not yet read, of the posted free cells, and of jobs submitted and not started. -/
def unreadTx (s : State) (fn : Nat) : List Nat :=
  let h := s.pgFld fn pgTxDb RF.TX_HEAD
  (List.range ((s.pgFld fn pgTxDb RF.TX_TAIL + 256 - h) % 256)).flatMap (fun i =>
    let w := txWord s fn ((h + i) % 256) 0
    cellsFrom (nbits w 0 16) (nbits w 16 14))
def postedFree (s : State) (fn : Nat) : List Nat := (List.range (freePosted s fn)).map (freeCellAt s fn)
def queuedJobs (s : State) (fn : Nat) : List Nat := ((List.range 16).filter (jobWaits s fn)).flatMap (jobCells s fn)

/-- Words of a user page that a reset of its function puts back: rings, interrupts, and the slots of jobs that do not run. -/
def pageLost (s : State) (fn key : Nat) : Bool :=
  let off := key % 0x10000
  key / 0x10000 == fn && (decide (off < 0x80) || (decide (0x1000 ≤ off) && decide (off < 0x8000)) ||
    (decide (0x9000 ≤ off) && decide (off < 0xC000)) ||
    (decide (0x8000 ≤ off) && decide (off < 0x8800) && !jobRunning s fn ((off - 0x8000) / 0x80)))

/-- Management programs, bundles and deferred orders of a reset function (R221). -/
def abortFn (fn : Nat) (s : State) : State :=
  let mine := (s.fore.verify ++ s.fore.accepted).filter (fun b => b.fn == fn)
  let s := handBack (ownCells s fn (mine.flatMap bundleCells)) s
  { s with fore := { s.fore with
      verify := s.fore.verify.filter (fun b => b.fn != fn), accepted := s.fore.accepted.filter (fun b => b.fn != fn)
      running := s.fore.running.map (fun e => (e.1, e.2.map (fun r => if r.b.fn = fn then { r with aborted := true } else r)))
      deferred := s.fore.deferred.map (fun d => if d.req.fn = fn then { d with silent := true } else d) } }

def silenceJobs (fn : Nat) (s : State) : State :=
  { s with gal := { s.gal with jobs := s.gal.jobs.map (fun b => if b.fn = fn then { b with silent := true } else b) } }

/-- The DEVICE cells left: those of running jobs stay until the jobs end, those a program may hold until it ends, the rest go back. -/
def releaseRest (fn : Nat) (s : State) : State :=
  let jobs := (s.gal.jobs.filter (fun b => b.fn == fn)).flatMap (fun b => jobCells s fn b.j)
  let rest := ((s.host.tokens.filter (fun e => e.2 == 1 && ownsCell s fn e.1)).map (·.1)).filter (fun c => !jobs.contains c)
  if s.fore.running.any (fun e => match e.2 with | some r => r.b.fn == fn | none => false) then
    { s with host := { s.host with heldCells := s.host.heldCells ++ rest.map (fun c => (fn, c)) } }
  else handBack rest s

/-- The reset of one function. -/
def resetFn (fn : Nat) (s : State) : State :=
  let s := handBack (ownCells s fn (unreadTx s fn ++ postedFree s fn ++ queuedJobs s fn)) s
  let s := releaseRest fn (silenceJobs fn (abortFn fn s))
  { s with
    page := tdrop (fun k _ => pageLost s fn k) s.page
    host := { s.host with
      phase := tdrop (fun k _ => k / 4 == fn) s.host.phase
      cplWait := tdel s.host.cplWait fn
      moderating := tdrop (fun k _ => k / 2 == fn) s.host.moderating } }

def resetFns (fns : List Nat) (kind : Nat) (s : State) : State :=
  event Ev.FN_RESET [kind, (fns.map (fun f => 2 ^ f)).sum] (fns.foldl (fun s f => resetFn f s) s)

/-- FLR (R402, R403): of a VF, or of the PF with every VF. -/
def execFlr (fn : Fin 16) (s : State) : Ans :=
  let fns := if fn.val = 0 then List.range 16 else [fn.val]
  .next (onlyIf s.live (fun s =>
    let s := resetFns fns (if fn.val = 0 then 1 else 0) s
    { s with host := { s.host with flr := (s.host.flr.filter (fun f => !fns.contains f)) ++ fns } }) s)

/-- FLR_COMPLETE (R403): the PF's ends those of its VFs. -/
def execFlrComplete (fn : Fin 16) (s : State) : Ans :=
  .next (onlyIf s.live (fun s =>
    { s with host := { s.host with flr := if fn.val = 0 then (if busyFlr s 0 then [] else s.host.flr) else s.host.flr.filter (fun f => f != fn.val) } }) s)

/-- PERST_N, hot reset or link down (R402): every function; IDE streams and SPDM sessions end. -/
def execPerstN (k : PcieReset) (s : State) : Ans :=
  .next (onlyIf s.live (fun s =>
    let kind := match k with | .perst => 2 | .hot => 3 | .linkDown => 4
    let s := resetFns (List.range 16) kind (endSessions s)
    let s := s.setReg Reg.HST_LINK_STATUS 0
    { s with host := { s.host with flr := [], ide := [], spdmVersion := 0, spdmState := 0, spdmAlg := 0, transcript := [] } }) s)

/-- PCIE_LINK_UP (R387): the rate and width trained; 64 GT/s runs in FLIT mode. -/
def execPcieLinkUp (rate width : Fin 16) (s : State) : Ans :=
  .next (onlyIf (s.live && decide (1 ≤ rate.val) && decide (rate.val ≤ 6) && [1, 2, 4, 8].contains width.val) (fun s =>
    s.setReg Reg.HST_LINK_STATUS (BitVec.ofNat 64 (pack [(0, 1, 1), (1, 3, rate.val), (4, 4, width.val), (8, 1, b2n (rate.val == 6))]))) s)

end Sys2Proof.Machine
end

