-- ==== Sys2Proof/Machine/Board.lean ====
section
/-! DEFINITION. Board management (R412), the test port (R475), DIN (R474), telemetry (R439, R449), and the reads that change what they read (R9). -/
namespace Sys2Proof.Machine

/-! Reads by the PF (R9, R411) -/

/-- A read of a PF BAR0 register by the PF: its word, or a violation (R411). -/
def bar0Read (off : Nat) (s : State) : State :=
  if ideOk s true && permits s (0x30 + off / 0x100000) 0 0 then
    afterRead off (readDone 0 (natLe 8 (readReg s off).toNat) false s)
  else readDone 0 (deadBytes 8) true (hostViolation 0 (0x30 + off / 0x100000) off s)

/-- LOW_WATER_READ (R169). -/
def execLowWaterRead (s : State) : Ans := .next (onlyIf s.live (bar0Read Reg.GAL_TAGS) s)
/-- QSAMPLE_MAX_READ (R356). -/
def execQsampleMaxRead (q : Fin 1024) (s : State) : Ans := .next (onlyIf s.live (bar0Read (Reg.TIM_QSAMPLE_MAX q.val)) s)
/-- MERGE_DIFF_MAX_READ (R353). -/
def execMergeDiffMaxRead (trib : Fin 64) (s : State) : Ans := .next (onlyIf s.live (bar0Read (Reg.TIM_MERGE_DIFF trib.val)) s)
/-- RAIL_TEMP_MAX_READ (R439): TMP_TEMP of a sensor, or TMP_RAIL of one of the nine rails. -/
def execRailTempMaxRead (temp : Bool) (k : Fin 17) (s : State) : Ans :=
  .next (onlyIf (s.live && (temp || decide (k.val < 9))) (bar0Read (if temp then Reg.TMP_TEMP k.val else Reg.TMP_RAIL k.val)) s)

/-! Telemetry (R439, R449) -/

def maxTemp (a b : Nat) : Nat := if signed 16 a ≤ signed 16 b then b else a

def railUpdate (first : Bool) (m : Telemetry) (s : State) (r : Nat) : State :=
  match m.mv[r]? with
  | some v =>
    let off := Reg.TMP_RAIL r
    let v := v.toNat
    let lo := if first then v else min v (s.fld off Fd.TMP_RAIL_MIN_MV)
    let hi := if first then v else max v (s.fld off Fd.TMP_RAIL_MAX_MV)
    ((s.setFld off Fd.TMP_RAIL_MV v).setFld off Fd.TMP_RAIL_MIN_MV lo).setFld off Fd.TMP_RAIL_MAX_MV hi
  | none => s

def tempUpdate (first : Bool) (m : Telemetry) (s : State) (k : Nat) : State :=
  match m.temp[k]? with
  | some v =>
    let off := Reg.TMP_TEMP k
    let hi := if first then v.toNat else maxTemp v.toNat (s.fld off Fd.TMP_TEMP_MAX)
    (s.setFld off Fd.TMP_TEMP_TEMP v.toNat).setFld off Fd.TMP_TEMP_MAX hi
  | none => s

def powerUpdate (m : Telemetry) (s : State) (d : Nat) : State :=
  match m.mw[d]? with
  | some v => s.setFld (Reg.PWR_DOM d) Fd.PWR_DOM_MW v.toNat
  | none => s

def telemetry (m : Telemetry) (s : State) : State :=
  let first := s.host.measuredAt.isNone
  let s := (List.range 9).foldl (railUpdate first m) s
  let s := (List.range 17).foldl (tempUpdate first m) s
  let s := (List.range 80).foldl (powerUpdate m) s
  let ok := match m.mv[8]? with | some v => decide (2400 < v.toNat) | none => s.lamp.vbatOk
  { s with lamp := { s.lamp with vbatOk := ok }, host := { s.host with measuredAt := some s.time.up } }

/-- TELEMETRY_UPDATE (R439): every 1 ms; entries the lists leave out keep their value. -/
def execTelemetryUpdate (m : Telemetry) (s : State) : Ans :=
  .next (onlyIf (s.live && (match s.host.measuredAt with | some t => decide (t + 1000000 ≤ s.time.up) | none => true)) (telemetry m) s)

/-- DIN_CHANGE (R474): a level held for three samples is accepted. -/
def execDinChange (pin : Fin 8) (high : Bool) (s : State) : Ans :=
  let v := s.fld Reg.PWR_DIN Fd.PWR_DIN_LEVEL
  .next (onlyIf (s.live && nbit v pin.val != high) (fun s =>
    (s.setFld Reg.PWR_DIN Fd.PWR_DIN_LEVEL (setNbit v pin.val high)).setFld Reg.PWR_DIN Fd.PWR_DIN_CHANGED
      (setNbit (s.fld Reg.PWR_DIN Fd.PWR_DIN_CHANGED) pin.val true)) s)

/-! The I3C target (R412) -/

def i3cStatic (s : State) : Nat := 0x52 + s.position
def setDyn (a : Option Nat) (s : State) : State := { s with host := { s.host with i3cDyn := a } }
def i3cSay (b : Bytes) (s : State) : State := s.emit (.i3c b)

/-- A target takes part in SETDASA and ENTDAA only while it has no dynamic address, and answers directed codes only with one (PRESUMED, log entry 106). -/
def hasDyn (s : State) : Bool := s.host.i3cDyn.isSome

/-- Bus characteristics: a target, SDR only, no in-band interrupts, full speed (R412). -/
def i3cBcr : Nat := 0x00

/-- SETDASA. -/
def execSetdasa (static : BitVec 7) (dyn : BitVec 7) (s : State) : Ans :=
  .next (onlyIf (s.live && !hasDyn s && static.toNat == i3cStatic s) (setDyn (some dyn.toNat)) s)
/-- ENTDAA: the part sends its provisional id and characteristics and takes the address given. -/
def execEntdaa (dyn : BitVec 7) (s : State) : Ans :=
  .next (onlyIf (s.live && !hasDyn s)
    (fun s => setDyn (some dyn.toNat) (i3cSay (natBe 6 Config.i3cPid ++ natBe 1 i3cBcr ++ [Config.i3cDcr]) s)) s)
/-- SETNEWDA. -/
def execSetnewda (dyn : BitVec 7) (s : State) : Ans := .next (onlyIf (s.live && hasDyn s) (setDyn (some dyn.toNat)) s)
/-- RSTDAA. -/
def execRstdaa (s : State) : Ans := .next (onlyIf s.live (setDyn none) s)
/-- GETPID. -/
def execGetpid (s : State) : Ans := .next (onlyIf (s.live && hasDyn s) (i3cSay (natBe 6 Config.i3cPid)) s)
/-- GETBCR. -/
def execGetbcr (s : State) : Ans := .next (onlyIf (s.live && hasDyn s) (i3cSay (natBe 1 i3cBcr)) s)
/-- GETDCR. -/
def execGetdcr (s : State) : Ans := .next (onlyIf (s.live && hasDyn s) (i3cSay [Config.i3cDcr]) s)
/-- GETSTATUS: two bytes whose value the spec leaves open (free value, log entry 6). -/
def execGetstatus (s : State) : Ans := .next (onlyIf (s.live && hasDyn s) (fun s => (i3cSay (natBe 2 (Config.free s.draws).toNat) s).drew) s)
/-- GETMRL: 64. -/
def execGetmrl (s : State) : Ans := .next (onlyIf (s.live && hasDyn s) (i3cSay (natBe 2 64)) s)

/-- I3C_PRIVATE_WRITE: four bytes, network order, an 8-byte aligned PF BAR0 offset; anything else is discarded. -/
def execI3cPrivateWrite (data : Bytes) (s : State) : Ans :=
  .next (onlyIf (s.live && data.length == 4 && beNat data % 8 == 0 && decide (beNat data < 0x1000000))
    (fun s => { s with host := { s.host with i3cPtr := beNat data } }) s)

/-- Blocks of the lanes, MACs and line framer lie in the lane domains; every other block is powered out of Sealed (Table 17.3). -/
def blockPowered (s : State) (b : Nat) : Bool :=
  if b = 2 ∨ b = 3 ∨ b = 4 then (List.range 8).any (fun i => s.fld (Reg.PWR_DOM (8 + i)) Fd.PWR_DOM_STATE != 0) else true

/-- A page the I3C master may read. -/
def i3cMay (s : State) (off : Nat) : Bool := permits s (0x30 + off / 0x100000) mI3c 0 && blockPowered s (off / 0x100000)

/-- One byte at a BAR0 offset as the port sends it. -/
def i3cByte (s : State) (a : Nat) : Byte :=
  if i3cMay s a then BitVec.ofNat 8 ((readReg s (a / 8 * 8)).toNat / 256 ^ (a % 8)) else if a % 2 = 0 then 0xAD else 0xDE

/-- A private read of n bytes from the pointer. -/
def i3cRead (n : Nat) (s : State) : State :=
  let p := s.host.i3cPtr
  let at_ := (List.range n).map (fun i => (p + i) % 0x1000000)
  let words := (List.range ((p % 8 + n + 7) / 8)).map (fun i => (p / 8 * 8 + 8 * i) % 0x1000000)
  let data := at_.map (i3cByte s)
  let bad := at_.find? (fun a => !i3cMay s a)
  let s := i3cSay data s
  let s := (words.filter (i3cMay s)).foldl (fun s w => afterRead w s) s
  let s := match bad with | some a => violation mI3c (0x30 + a / 0x100000) a s | none => s
  { s with host := { s.host with i3cPtr := (p + n) % 0x1000000 } }

/-- I3C_PRIVATE_READ: up to 64 bytes; the pointer advances by the bytes read. -/
def execI3cPrivateRead (len : Nat) (s : State) : Ans := .next (onlyIf (s.live && decide (0 < len)) (i3cRead (min len 64)) s)

/-! The test access port (R475) -/

/-- The code of BYPASS: all ones. -/
def tapBypass : Nat := 0xFF
def setIr (i : Nat) (s : State) : State := { s with host := { s.host with tapIr := i } }

/-- IDCODE. -/
def execIdcode (s : State) : Ans := .next (onlyIf s.mainOn (fun s => (setIr 0x100 s).emit (.tap 0x13208B3F)) s)
/-- BYPASS: its one bit captures 0. -/
def bypass (s : State) : State := (setIr tapBypass s).emit (.tap 0)
def execBypass (s : State) : Ans := .next (onlyIf s.mainOn bypass s)

/-- Blank, or Test mode, which other states reach only under a signed authorisation (R444). -/
def tapMay (s : State) : Bool := s.attic.lifecycle == 0 || s.mode == 1

/-- TAP_INSTRUCTION: honoured, or BYPASS in its place and monitor 0x15. -/
def execTapInstruction (ir : Byte) (s : State) : Ans :=
  .next (onlyIf s.mainOn (fun s =>
    if ir.toNat = tapBypass then bypass s
    else if tapMay s then setIr ir.toNat s
    else onlyIf s.live (trigger 0x15 [ir.toNat]) (bypass s)) s)

end Sys2Proof.Machine
end

