-- ==== Sys2Proof/Machine/Copy.lean ====
section
/-! DEFINITION. The control image on its way between twins (R375, R376, Table 14.2): the items the active sends, how the standby applies one, and what it replaces at the end of a copy. -/
namespace Sys2Proof.Machine

/-! Items: an image order's code and arguments with their content; code 0 is the tally sequence and the generation (log entry 90) -/

/-- An item that the active sends. -/
structure Sent where
  code : Nat
  args : List Nat
  content : Bytes
  deriving DecidableEq, Repr

/-- A signer record as its 2,699 bytes (log entry 60). -/
def signerBytes (x : Signer) : Bytes :=
  natBe 4 x.keyId ++ natBe 2 (b2n x.admin + 2 * b2n x.test + 4 * b2n x.firmware) ++ natBe 2 x.orderMask ++ natBe 2 x.fnMask ++ slice x.ec 0 97 ++ slice x.ml 0 2592

/-- A frame-program image as Table 07.1 lays it out. -/
def imageBytes (im : Image) : Bytes :=
  natBe 4 0x4E494D47 ++ natBe 1 1 ++ zeros 1 ++ natBe 2 im.code.length ++ im.entries.flatMap (natBe 2) ++ zeros 4 ++ natBe 8 im.build ++ zeros 32 ++
    im.code.flatMap (fun b => natBe 4 b.1 ++ natBe 4 b.2)

def listBytes (l : GList) : Bytes :=
  natBe 4 l.cycle ++ natBe 2 l.entries.length ++ zeros 10 ++ l.entries.flatMap (fun e => natBe 1 e.1 ++ natBe 1 e.2.1 ++ zeros 2 ++ natBe 4 e.2.2)

/-- Registers of the image that do not read as at reset, and every monitor level. -/
def regItems (s : State) : List Sent :=
  ((s.regs.map (·.1)).filter imageReg ++ ((List.range 24).map Reg.TMP_LEVEL).filter (fun k => !(s.regs.map (·.1)).contains k)).map
    (fun off => ⟨0xA01, [off, (s.reg off &&& owBits off).toNat, (owBits off).toNat], []⟩)

def meterItems (s : State) : List Sent :=
  s.wnd.meters.map (fun e => ⟨0x602, [e.1 + b2n e.2.aware * 2 ^ 16 + b2n e.2.enable * 2 ^ 17, e.2.cir, e.2.cbs, e.2.eir, e.2.ebs], []⟩)
def shaperItems (s : State) : List Sent := s.wnd.shapers.map (fun e => ⟨0x603, [e.1, e.2.rate, e.2.burst], []⟩)

/-- The list an egress runs or is about to run. -/
def listOf (x : Egress) : Option GList := match x.next with | some (l, _) => l | none => x.list
def listItems (s : State) : List Sent :=
  s.wnd.egress.filterMap (fun e => (listOf e.2).map (fun l => ⟨0x604, [e.1, 0, l.base], listBytes l⟩))

def keyItems (s : State) : List Sent :=
  s.gate.keys.filterMap (fun e => e.2.map (fun k => ⟨0x701, [e.1, 0, k.alg + k.sets * 2 ^ 32], k.key⟩))
def signerItems (s : State) : List Sent := s.attic.signers.map (fun x => ⟨0xA03, [x.keyId, 0, x.lastSeq], signerBytes x⟩)
def hewerItems (s : State) : List Sent :=
  s.twin.hewers.filterMap (fun e => e.2.map (fun h => ⟨0x903, [e.1, 0], natBe 16 h.serial ++ natBe 6 h.addr⟩))
def programItems (s : State) : List Sent :=
  s.gal.images.filterMap (fun e => e.2.map (fun im => ⟨0x401, [e.1, 0], imageBytes im⟩)) ++ [⟨0x402, [dispatchEpoch s], []⟩]

def mirroredRecords (s : State) : List Nat := (s.assoc.map (·.1)).filter (mirrored s)
def assocItems (s : State) : List Sent := (mirroredRecords s).map (fun a => ⟨0x410, [a, 0], recordBytes s a ++ zeros 16⟩)

/-- The whole image. -/
def imageItems (s : State) : List Sent :=
  ⟨0, [s.attic.nextSeq, s.twin.gen], []⟩ :: (signerItems s ++ programItems s ++ regItems s ++ meterItems s ++ shaperItems s ++
    listItems s ++ keyItems s ++ hewerItems s ++ assocItems s)

def sendItem (s : State) (i : Sent) : State := xcSend 0x07 (itemBytes i.code i.args i.content) s

/-- The active begins a copy: it holds the claim on the image and on the mirrored records, and sends every item. -/
def startCopy (s : State) : State :=
  let s := dropClaims (fun c => c.src == 3 && c.code == 0x007) s
  let s := (mirroredRecords s).foldl (fun s a => if (claimOn s (.record a)).isNone then addClaim (hwClaim (.record a) 0x007) s else s) s
  (imageItems s).foldl sendItem (setTwn Fd.TWN_STATUS_RESYNC_ACTIVE 1 (addClaim (hwClaim .image 0x007) s))

/-! Applying an item -/

/-- An item as an order of the crosscut peer. -/
def itemOrder (i : ImageItem) : OrdReq :=
  ⟨i.code.toNat, i.args, nobody, 0, 0, 2, true, true, 0x7FF, 0, 0, false, [i.att], some i.cell, .good⟩

/-- A program image goes into its epoch unless items in flight hold it (log entry 98). -/
def copyImage (o : OrdReq) (s : State) : Bool × State :=
  let e := o.arg 0
  let att := o.atts.getD 0 []
  if 4 ≤ e ∨ !imageFits att then (false, s)
  else if imageOf s e = some (imageFrom att) then (true, s)
  else if epochCount s e ≠ 0 ∨ !imageLoads (imageFrom att) then (false, s)
  else (true, writeImage e (imageFrom att) s)

/-- A gate key replaces one of its id; a key that stays keeps its window. -/
def copyGateKey (o : OrdReq) (s : State) : Bool × State :=
  let sets := nbits (o.arg 2) 32 32
  match gkey s (o.arg 0), o.cell with
  | some k, some b =>
    if k.key = slice b 0 k.key.length ∧ k.alg = nbits (o.arg 2) 0 2 then
      (true, { s with gate := { s.gate with keys := tput none0 s.gate.keys (o.arg 0) (some { k with sets := sets }) } })
    else
      match gateKeyAddBody o (revokeGateKey (o.arg 0) s) with
      | (.done 0 _, s') => (true, s')
      | _ => (false, s)
  | _, _ =>
    match gateKeyAddBody o s with
    | (.done 0 _, s') => (true, s')
    | _ => (false, s)

/-- A signer takes the larger SEQ. -/
def raiseSeq (id seq : Nat) (s : State) : State :=
  { s with attic := { s.attic with signers := s.attic.signers.map (fun x => if x.keyId = id then { x with lastSeq := max x.lastSeq seq } else x) } }

def applyBody (o : OrdReq) (s : State) : Bool × State :=
  match orderBody o.code o s with
  | (.done 0 _, s') => (true, if o.code = 0xA03 then raiseSeq (o.arg 0) (o.arg 2) s' else s')
  | _ => (false, s)

/-- The standby applies one item through its access table: done, or denied or not applicable. -/
def applyItem (i : ImageItem) (s : State) : Bool × State :=
  let o := itemOrder i
  if o.code = 0 then
    (true, { s with attic := { s.attic with nextSeq := max s.attic.nextSeq (o.arg 0) }, twin := { s.twin with gen := o.arg 1 } })
  else if !imageOrder o s then (false, s)
  else match accessDenies o s with
    | some (target, _) => (false, violation o.master target o.code s)
    | none =>
      if o.code = 0x401 then copyImage o s
      else if o.code = 0x701 then copyGateKey o s
      else applyBody o s

/-! What a copy replaces -/

def wasCopied (s : State) (code key : Nat) : Bool := s.twin.copied.contains (code, key)

/-- Registers of the image that the active holds at reset return to it; a gate flow that is gone takes its frames. -/
def clearRegs (s : State) : State :=
  let stale := (s.regs.map (·.1)).filter (fun off => imageReg off && !wasCopied s 0xA01 off && !(decide (0xE00100 ≤ off) && decide (off < 0xE00200)))
  stale.foldl (fun s off =>
    let m := owBits off
    regApply off (s.reg off) ((s.reg off &&& ~~~ m) ||| (regReset off &&& m)) s) s

def meterKey (args : Nat) : Nat := args % 2 ^ 16

def clearMeters (s : State) : State :=
  let kept := s.twin.copied.filterMap (fun c => if c.1 = 0x602 then some (meterKey c.2) else none)
  { s with wnd := { s.wnd with
      meters := tdrop (fun k _ => !kept.contains k) s.wnd.meters
      shapers := tdrop (fun k _ => !wasCopied s 0x603 k) s.wnd.shapers } }

def clearLists (s : State) : State :=
  { s with wnd := { s.wnd with egress := tmap egress0 (fun e x => if wasCopied s 0x604 e then x else { x with list := none, next := none }) s.wnd.egress } }

def clearKeys (s : State) : State :=
  let stale := (s.gate.keys.map (·.1)).filter (fun k => !wasCopied s 0x701 k)
  stale.foldl (fun s k => revokeGateKey k s) s

def clearSigners (s : State) : State :=
  { s with attic := { s.attic with signers := s.attic.signers.filter (fun x => wasCopied s 0xA03 x.keyId) } }

def clearHewers (s : State) : State :=
  let stale := (s.twin.hewers.map (·.1)).filter (fun h => !wasCopied s 0x903 h)
  stale.foldl (fun s h =>
    let s := match hewerOf s h with | some x => freeKey x.link s | none => s
    setHewer h none (s.setReg (Reg.TWN_HEWER_STATUS h) 0)) s

def clearImages (s : State) : State :=
  let stale := (s.gal.images.map (·.1)).filter (fun e => !wasCopied s 0x401 e && e != dispatchEpoch s && epochCount s e == 0)
  stale.foldl (fun s e =>
    let s := s.setFld Reg.GAL_EPOCH Fd.GAL_EPOCH_LOADED (setNbit (loadedMap s) e false)
    { s with gal := { s.gal with images := tput none0 s.gal.images e none } }) s

def clearRecords (s : State) : State :=
  ((mirroredRecords s).filter (fun a => !wasCopied s 0x410 a)).foldl (fun s a => if mirrorFits s a (zeros 272) then assocMirror a (zeros 272) s else s) s

/-- What the active no longer has leaves the standby too. -/
def replaceRest (s : State) : State :=
  clearRecords (clearImages (clearHewers (clearSigners (clearKeys (clearLists (clearMeters (clearRegs s)))))))

end Sys2Proof.Machine
end

