-- ==== Sys2Proof/Machine/Twin.lean ====
section
/-! DEFINITION. The crosscut between twins (R363 to R376, R378, R379): sessions, heartbeats, role changes, DOUT, the copy of the control image, frames. -/
namespace Sys2Proof.Machine

/-! The session (R364) -/

/-- The crosscut protocol runs: TWIN_EN is set and the crosscut is up. -/
def xcOn (s : State) : Bool := s.live && twinOn s && portUp s 64
def setTwin (t : Twin) (s : State) : State := { s with twin := t }

/-- The attribute bits of a session key: 256 bits, class 6, AEAD, CASCADE. -/
def sessionAttr : Nat := 0x10E40

/-- A session key from a deep slot into a slot the part allocates; no slot where either is missing. -/
def sessionKey (d : Nat) (ctx : Bytes) (s : State) : Option Nat × State :=
  let (p, s) := deepParent s d
  if p.st ≠ 0 then (none, s)
  else match allocSlot s with
    | some n => (some n, writeKey n (kdf p.key (ascii "BD3208 DERIVE") ctx 256) sessionAttr 0 (some p.src) none true s)
    | none => (none, s)

/-- NONCE_A then NONCE_B, from one's own and the peer's. -/
def twinContext (pos own peer : Nat) : Bytes := if pos = 0 then natBe 16 own ++ natBe 16 peer else natBe 16 peer ++ natBe 16 own

/-- Both HELLOs are held: the key is derived, or PEER_SILENT says that there is none (cause NO_KEY). -/
def deriveTwinKey (s : State) : State :=
  let l := s.twin.link
  match l.nonce, l.peer with
  | some own, some peer =>
    if keyed s l then s
    else match sessionKey 5 (twinContext s.position own peer.nonce) s with
      | (some n, s) => setLink { l with slot := some n, tx := 0, rx := 0 } s
      | (none, s) => event Ev.PEER_SILENT [St.NO_KEY] s
  | _, _ => s

/-- A random number of 128 bits. -/
def nonce128 (s : State) : Nat := (s.draw.setWidth 128).toNat

/-- The payload of a HELLO. -/
def helloBytes (s : State) (nonce : Nat) : Bytes := natBe 16 s.serial ++ natBe 1 (twinF s Fd.TWN_STATUS_ROLE_SEL) ++ natBe 1 s.variant ++ natBe 16 nonce

def emitHello (nonce : Nat) (s : State) : State :=
  sendXc 0x10 (linkHeader (xcAddr (1 - s.position)) (xcAddr s.position) 0x58 0x10 (xcFlags s) (roleEpoch s) 0 34 ++ helloBytes s nonce) s

/-- The twin sends HELLO with the nonce of this attempt. -/
def sendHello (s : State) : State :=
  let (n, s) := match s.twin.link.nonce with | some n => (n, s) | none => (nonce128 s, s.drew)
  let s := emitHello n (setLink { s.twin.link with nonce := some n, lastAt := s.time.up } s)
  if keyed s s.twin.link ∨ s.twin.link.peer = none then s else deriveTwinKey s

def emitShaftHello (dst h dir nonce : Nat) (s : State) : State :=
  sendShaft 0x10 (linkHeader dst (shaftMac s) 0x53 0x10 (shaftFlags s dir) h 0 34 ++ helloBytes s nonce) s

/-- A hewer's shaft protocol runs. -/
def shaftOn (s : State) : Bool := s.live && portUp s 65 && s.flag Reg.TWN_SHAFT_CFG Fd.TWN_SHAFT_CFG_EN
def hewerId (s : State) : Nat := s.fld Reg.TWN_SHAFT_CFG Fd.TWN_SHAFT_CFG_HEWER_ID
def setOver (l : Link) (s : State) : State := { s with twin := { s.twin with overman := l } }

def sendHewerHello (s : State) : State :=
  let (n, s) := match s.twin.overman.nonce with | some n => (n, s) | none => (nonce128 s, s.drew)
  emitShaftHello (shaftPeer s) (hewerId s) 1 n (setOver { s.twin.overman with nonce := some n, lastAt := s.time.up } s)

def helloDue (s : State) (l : Link) : Bool := !l.up && decide (l.lastAt + 1000000 ≤ s.time.up)

/-- HELLO_TIMER (R364, R381): every 1 ms without a session; a hewer's HELLO on the shaft likewise. -/
def execHelloTimer (s : State) : Ans :=
  let s := onlyIf (xcOn s && helloDue s s.twin.link) sendHello s
  .next (onlyIf (isHewer s && shaftOn s && helloDue s s.twin.overman) sendHewerHello s)

/-- A HELLO of the partner: a session that is up ignores it, a new nonce starts the attempt anew. A silent partner is silent until the session is up (R366; log entry 88). -/
def takeHello (p : PeerHello) (s : State) : State :=
  let l := s.twin.link
  if l.up then s
  else
    let s := if l.peer = some p then s else setLink { l with peer := some p, slot := none } (freeKey l s)
    deriveTwinKey (setTwn Fd.TWN_STATUS_PEER (if twinF s Fd.TWN_STATUS_PEER = 3 then 3 else 1) { s with twin := { s.twin with ownPos := false } })

/-- HELLO (R364). -/
def execHello (pos : Bool) (serial : BitVec 128) (roleSel variant : Byte) (nonce : BitVec 128) (s : State) : Ans :=
  .next (arrived s 64 72 <| onlyIf (xcOn s) (fun s =>
    if b2n pos = s.position then event Ev.TWIN_STRAP_CONFLICT [b2n pos] { s with twin := { s.twin with ownPos := true } }
    else takeHello ⟨serial.toNat, roleSel.toNat, variant.toNat, nonce.toNat⟩ s) s)

/-! What every sealed message meets (R365) -/

/-- A sealed crosscut message with a payload of n bytes arrives: its MAC counts it, whatever becomes of it. -/
def xcArrive (n : Nat) (before : State) (s : State) : State := arrived before 64 (54 + n) s

/-- A discarded message, counted; a failed tag raises XC_AUTH_FAIL, a message that finds no key does not (log entry 97). -/
def xcDiscard (tag : Bool) (s : State) : State :=
  let s := bump Reg.TWN_CNT_XC_AUTH_FAIL 1 s
  if tag then event Ev.XC_AUTH_FAIL [roleEpoch s] s else s

/-- The header of an authentic message: SEQ, and what it says of the partner. -/
def xcNote (h : XcHdr) (s : State) : State :=
  let t := s.twin
  { s with twin := { t with link := { t.link with rx := h.seq }, peerClaim := h.claim, peerSynced := h.synced, peerEpoch := h.epoch % 2 ^ 32, ownPos := false } }

/-- Runs what a message says once its tag, its SEQ and its sender's position are good. -/
def xcTake (h : XcHdr) (f : State → State) (s : State) : State :=
  if !keyed s s.twin.link then xcDiscard false s
  else if !h.auth then xcDiscard true s
  else if h.seq ≤ s.twin.link.rx then xcDiscard false s
  else if b2n h.pos = s.position then xcDiscard false { s with twin := { s.twin with ownPos := true } }
  else f (xcNote h s)

/-- A message besides heartbeats, which a session that is not up does not take. -/
def xcMsg (h : XcHdr) (f : State → State) (s : State) : State :=
  if xcOn s then xcTake h (fun s => if s.twin.link.up then f s else s) s else s

/-! Orders that wait for the partner (R377, R384) -/

/-- A waiting ROLE_MOVE, or a MODE_SET to Banked that moves control first. -/
def movesRole (o : OrdReq) : Bool := o.code == 0x902 || (o.code == 0xA07 && o.arg 0 == 3)

def endMove (status : Nat) (s : State) : State :=
  match s.fore.waits.find? movesRole with
  | some o =>
    let s := dropClaims (fun c => (c.code == 0x902 || c.code == 0xA07) && (c.res == .role || c.res == .mode)) s
    let s := if status = St.OK ∧ o.code = 0xA07 then enterBanked s else s
    finishWait o status [] s
  | none => s

/-- The partner is seen to claim while this part does too, or no longer to claim (R373). -/
def watchOverlap (s : State) : State :=
  if isActive s && s.twin.peerClaim then
    (if s.twin.overlapAt.isNone then { s with twin := { s.twin with overlapAt := some s.time.up } } else s)
  else endOverlap s

/-! Heartbeats -/

/-- STATE of a heartbeat. -/
def beatState (s : State) : Nat :=
  (if isActive s then 1 else if ctrlOf s = 3 then 2 else 0) + 4 * b2n (!selfFault s) + 8 * b2n (inCaution s) + 16 * levelInForce s

/-- The 64 bytes of Table 14.6. -/
def beatBytes (s : State) : Bytes :=
  natBe 1 (beatState s) ++ natBe 1 (doutDriven s) ++ natBe 6 s.attic.nextSeq ++ natBe 8 s.twin.hbTx ++ natBe 8 s.twin.hbRxSeq ++
    natBe 8 s.twin.hbRx ++ natBe 8 s.twin.gen ++ zeros 24

/-- Part time in 250 ps units. -/
def quarterNs (s : State) : Nat := 4 * s.time.now

def sendBeat (s : State) : State :=
  let s := xcPost 0x01 (beatBytes s) s
  let t := s.twin
  setTwin { t with hbAt := s.time.up, hbSeqPrev := t.hbSeq, hbTxPrev := t.hbTx, hbSeq := t.link.tx, hbTx := quarterNs s } s

/-- HEARTBEAT_TIMER (R365): every 10 µs under a session key. -/
def execHeartbeatTimer (s : State) : Ans :=
  .next (onlyIf (xcOn s && keyed s s.twin.link && decide (s.twin.hbAt + 10000 ≤ s.time.up)) sendBeat s)

/-- Departure of this part's heartbeat that the partner names. -/
def departure (t : Twin) (seq : Nat) : Option Nat := if seq = 0 then none else if seq = t.hbSeq then some t.hbTx else if seq = t.hbSeqPrev then some t.hbTxPrev else none

/-- TIM_XC (R353): t1 the departure the partner answers, t2 its arrival there, t3 the partner's departure, t4 its arrival here (log entry 89). -/
def timeXc (p : Beat) (s : State) : State :=
  match departure s.twin p.rxSeq with
  | some t1 =>
    if s.twin.hbRxSeq = 0 then s
    else
      let up := (p.rxTime : Int) - t1
      let down := (s.twin.hbRx : Int) - p.prevTx
      let s := s.setFld Reg.TIM_XC Fd.TIM_XC_RTT (unsigned 32 (up + down))
      s.setFld Reg.TIM_XC Fd.TIM_XC_OFFSET (unsigned 32 ((up - down) / 2))
  | none => s

def beatByte (p : Beat) : Nat := p.state.val + 4 * b2n p.healthOk + 8 * b2n p.caution + 16 * p.level.val

/-- The first authentic heartbeat brings the session up (R364, R366); a standby that is not SYNCED asks for a copy (R375). -/
def sessionUp (s : State) : State :=
  if s.twin.link.up then s
  else
    let s := setLink { s.twin.link with up := true } { s with twin := { s.twin with releaseAt := none } }
    let s := event Ev.PEER_ALIVE [s.twin.peerEpoch] (setTwn Fd.TWN_STATUS_PEER 2 s)
    if isStandby s && !synced s && !resyncOn s then askResync s else s

/-- A SYNCED standby drives the values it is told. -/
def mirrorDout (v : Nat) (s : State) : State :=
  if isStandby s && synced s then { s with twin := { s.twin with dout := v, driving := true } } else s

/-- The start rule ends when a heartbeat with CLAIM arrives (Table 14.7). -/
def claimHeard (s : State) : State := if s.twin.peerClaim then { s with twin := { s.twin with startAt := none, startDue := false } } else s

def takeBeat (p : Beat) (arrive : Nat) (s : State) : State :=
  let s := timeXc p s
  let t := s.twin
  let s := setTwin { t with
    peerState := beatByte p, peerTally := p.tallyNext, peerGen := p.imageGen, hbRx := arrive, hbRxSeq := t.link.rx, link := { t.link with lastAt := s.time.up } } s
  tryClaim (claimHeard (watchOverlap (mirrorDout p.dout.toNat (sessionUp s))))

/-- A heartbeat that is discarded counts as missed. -/
def beatGood (h : XcHdr) (s : State) : Bool := keyed s s.twin.link && h.auth && decide (s.twin.link.rx < h.seq) && b2n h.pos != s.position

/-- HEARTBEAT (R365, R366, R353, R372). -/
def execHeartbeat (h : XcHdr) (p : Beat) (arrive : Nat) (s : State) : Ans :=
  .next (xcArrive 64 s <| onlyIf (xcOn s) (fun s => xcTake h (takeBeat p arrive) (if beatGood h s then s else bump Reg.TWN_CNT_HB_MISS 1 s)) s)

/-- The partner is silent (R366): the session goes; a standby claims or is to release its drive. Orders that wait for the partner end ABORTED (log entry 95). -/
def declareSilent (s : State) : State :=
  let s := event Ev.PEER_SILENT [roleEpoch s] (setTwn Fd.TWN_STATUS_PEER 3 (bump Reg.TWN_CNT_HB_MISS 3 s))
  let s := tryClaim (endMove St.ABORTED (endOverlap (dropSession s)))
  if isStandby s && s.twin.driving then { s with twin := { s.twin with releaseAt := some (s.time.up + 1000000) } } else s

/-- PEER_SILENT (R366): 30 µs since the last authentic heartbeat. -/
def execPeerSilent (s : State) : Ans :=
  .next (onlyIf (s.live && twinOn s && s.twin.link.up && decide (s.twin.link.lastAt + 30000 ≤ s.time.up)) declareSilent s)

/-! Yield, takeover, arbitration (R367 to R371) -/

/-- A trigger of Table 14.8 that the role controller acts on by itself. -/
def yieldTrigger (s : State) (cause : Nat) : Bool :=
  match cause with
  | 1 => s.fore.stopped
  | 2 => lastFired s 0x0D 3
  | 3 => memFault s
  | 4 => s.guard.cautionLong
  | 5 => decide (2 ≤ levelInForce s)
  | _ => false

/-- ROLE_YIELD (R370). -/
def execRoleYield (cause : Fin 8) (s : State) : Ans :=
  .next (onlyIf (s.live && twinOn s && isActive s && yieldTrigger s cause.val) (yieldRole cause.val) s)

/-- YIELD_COMPLETE (R370): no image order is in progress between commands, so the part enters STANDBY. -/
def execYieldComplete (s : State) : Ans := .next (onlyIf (s.live && ctrlOf s == 3) (setTwn Fd.TWN_STATUS_CTRL 1) s)

/-- YIELD (R368, R370). -/
def execYieldMsg (h : XcHdr) (cause : Byte) (s : State) : Ans :=
  .next (xcArrive 1 s <| xcMsg h (fun s =>
    let s := if cause.toNat = 6 ∨ cause.toNat = 7 then s else { s with twin := { s.twin with peerSynced := false } }
    tryClaim (endOverlap { s with twin := { s.twin with peerYield := true, peerClaim := false } })) s)

/-- A standby that is not SYNCED stops driving once the partner has taken over (R372). -/
def stopDriving (s : State) : State := if isStandby s && !synced s then { s with twin := { s.twin with driving := false, releaseAt := none } } else s

/-- TAKEOVER (R368, R377). -/
def execTakeover (h : XcHdr) (s : State) : Ans :=
  .next (xcArrive 0 s <| xcMsg h (fun s => endMove St.OK (stopDriving (watchOverlap { s with twin := { s.twin with peerClaim := true, peerYield := false } }))) s)

/-- The filtered level changes: an ACTIVE part at position B yields to an assertion (R369), a standby may claim at a release. -/
def roleLevel (asserted : Bool) (s : State) : State :=
  let s := setTwn Fd.TWN_STATUS_ROLE_IN (b2n asserted) s
  if !twinOn s then s
  else if asserted && s.position == 1 && isActive s then yieldRole 7 s
  else tryClaim s

/-- ROLE_IN_FILTERED (R367). -/
def execRoleInFiltered (asserted : Bool) (s : State) : Ans := .next (onlyIf (s.live && roleIn s != asserted) (roleLevel asserted) s)

/-- START_WAIT in ns, twice as long at position B. -/
def startWait (s : State) : Nat := 1000000 * s.fld Reg.TWN_CFG Fd.TWN_CFG_START_WAIT * (1 + s.position)

def startWaitOver (s : State) : Bool := match s.twin.startAt with | some t => decide (t + startWait s ≤ s.time.up) | none => false

/-- START_WAIT_EXPIRE (Table 14.7). -/
def execStartWaitExpire (s : State) : Ans :=
  .next (onlyIf (s.live && twinOn s && isStandby s && startWaitOver s)
    (fun s => tryClaim { s with twin := { s.twin with startAt := none, startDue := true } }) s)

/-! DOUT (R372) -/

/-- DOUT_UPDATE. -/
def execDoutUpdate (h : XcHdr) (dout : Byte) (s : State) : Ans := .next (xcArrive 1 s <| xcMsg h (mirrorDout dout.toNat) s)

def releaseDue (s : State) : Bool := match s.twin.releaseAt with | some t => decide (t ≤ s.time.up) | none => false

/-- DOUT_RELEASE. -/
def execDoutRelease (s : State) : Ans :=
  .next (onlyIf (s.live && twinOn s && isStandby s && releaseDue s) (fun s => { s with twin := { s.twin with driving := false, releaseAt := none } }) s)

/-- The active tells its partner new DOUT values (Table 14.5). -/
def doutChanged (s : State) : State :=
  if s.live && twinOn s && isActive s && doutNow s != s.twin.dout then
    xcSend 0x04 (natBe 1 (doutNow s)) { s with twin := { s.twin with dout := doutNow s } }
  else s

/-! The control image (R375, R376) -/

/-- The standby falls out of step. -/
def loseSync (s : State) : State :=
  event Ev.RESYNC_FAIL [roleEpoch s, s.twin.gen] (stopDriving (setTwn Fd.TWN_STATUS_SYNCED 0 s))

/-- A delta in generation order; one of an older epoch is discarded (R373). -/
def takeDelta (h : XcHdr) (gen : Nat) (item : ImageItem) (s : State) : State :=
  if h.epoch < roleEpoch s ∨ !isStandby s ∨ !synced s then s
  else if gen ≠ s.twin.gen + 1 then loseSync s
  else
    let (ok, s) := applyItem item s
    if ok then { s with twin := { s.twin with gen := gen } } else loseSync s

/-- The bytes of an item in a message. -/
def itemLen (i : ImageItem) : Nat := (itemBytes i.code.toNat (i.args.map (fun a => a.toNat)) (if i.code = 0x401 then i.att else i.cell)).length

/-- IMAGE_DELTA (R376). -/
def execImageDelta (h : XcHdr) (gen : Nat) (item : ImageItem) (s : State) : Ans := .next (xcArrive (8 + itemLen item) s <| xcMsg h (takeDelta h gen item) s)

/-- RESYNC_REQ (R375): the active starts a copy, afresh if one runs. -/
def execResyncReq (h : XcHdr) (s : State) : Ans := .next (xcArrive 0 s <| xcMsg h (fun s => if isActive s then startCopy s else s) s)

def takeItemData (item : ImageItem) (s : State) : State :=
  if isStandby s && resyncOn s then
    let (ok, s) := applyItem item s
    if ok then { s with twin := { s.twin with copied := s.twin.copied ++ [(item.code.toNat, (item.args.getD 0 0).toNat)] } } else stopDriving (endCopy false s)
  else s

/-- RESYNC_DATA (R375). -/
def execResyncData (h : XcHdr) (item : ImageItem) (s : State) : Ans := .next (xcArrive (itemLen item) s <| xcMsg h (takeItemData item) s)

/-- The copy ends on the standby. -/
def standbyDone (ok : Bool) (s : State) : State :=
  if !(isStandby s && resyncOn s) then s
  else if ok then
    let s := endCopy true (replaceRest s)
    event Ev.RESYNC_DONE [roleEpoch s, s.twin.gen] s
  else stopDriving (endCopy false s)

/-- RESYNC_DONE (R375): on the active the copy has been sent and ends; the standby takes the message. -/
def execResyncDone (h : XcHdr) (ok : Bool) (s : State) : Ans :=
  if isActive s then
    .next (onlyIf (xcOn s && resyncOn s) (fun s => endCopy ok (if ok then xcSend 0x08 [] s else s)) s)
  else .next (xcArrive 0 s <| xcMsg h (standbyDone ok) s)

/-! Frames (R378, R379) -/

/-- A client port that its group makes. -/
def clientEnabled (s : State) (p : Nat) : Bool := decide (0 < portWidth s p)

/-- The frame of a decrypt copy on its way to elimination. -/
def copyFrame (f : XcFrame) (ts : Nat) (s : State) : QFrame :=
  ⟨f.data, noPort, f.cls.val, f.yellow, isControlFlags (preFlags s f.data true), preFlags s f.data true, ts, none, false, 0, 0, s.time.now, none, false, [], 0, s.time.steps, none, false, []⟩

/-- One copy: an encrypt copy enters at a PROXY port that is no enabled client port, a decrypt copy goes to elimination for its client port; another is dropped with NO_SA. -/
def takeCopy (ts : Nat) (wrOk : Bool) (s : State) (f : XcFrame) : State :=
  let p := f.port.val
  if !f.decrypt && isProxy s p && !clientEnabled s p then clientIngress p (some ⟨f.cls.val, f.yellow⟩) f.data ts wrOk s
  else if f.decrypt && clientEnabled s p then
    let x := copyFrame f ts s
    eliminate ⟨x, queueAt p f.cls.val, b2n f.yellow, none, f.stream.map (·.val), x.resv⟩ wrOk s
  else dropped (earlyDrop noPort none ts f.data 0x09) s

/-- XC_DATA (R378, R379). -/
def execXcData (h : XcHdr) (frames : List XcFrame) (ts : Nat) (wrOk : Bool) (s : State) : Ans :=
  .next (xcArrive ((frames.map (fun f => 8 + f.data.length)).sum) s <| xcMsg h (fun s => if trafficOn s then frames.foldl (takeCopy ts wrOk) s else s) s)

/-- Frames from the front that fit into what is left of a message. -/
def fitting : Nat → List XcCopy → List XcCopy
  | _, [] => []
  | room, f :: t => if 8 + f.data.length ≤ room then f :: fitting (room - (8 + f.data.length)) t else []

def closeMessage (s : State) : State :=
  let l := fitting 16329 s.twin.xcBuf
  let s := xcSend 0x09 (l.flatMap (fun f => natBe 8 f.shim ++ f.data)) s
  { s with twin := { s.twin with xcBuf := s.twin.xcBuf.drop l.length, xcAt := s.time.up } }

/-- XC_DATA_CLOSE (R379): 200 ns after its first frame, or once it holds what a message can. -/
def execXcDataClose (s : State) : Ans :=
  .next (onlyIf (xcOn s && s.twin.link.up && !s.twin.xcBuf.isEmpty && (decide (s.twin.xcAt + 200 ≤ s.time.up) || decide (16329 ≤ xcBytes s))) closeMessage s)

end Sys2Proof.Machine
end

