-- ==== Sys2Proof/Machine/Shaft.lean ====
section
/-! DEFINITION. The shaft between an overman and its hewers (R381 to R383). -/
namespace Sys2Proof.Machine

/-- An overman runs the shaft: of a twin pair only the ACTIVE one. -/
def overmanOn (s : State) : Bool := s.live && portUp s 65 && isOverman s && holdsRole s

/-! Sessions (R382) -/

/-- The overman's answer to a HELLO: its own HELLO, then ACCEPT under the new key. -/
def acceptHewer (h : Nat) (x : Hewer) (nonce : Nat) (s : State) : State :=
  let own := nonce128 s
  let s := freeKey x.link s.drew
  match sessionKey 6 (natBe 16 own ++ natBe 16 nonce) s with
  | (none, s) => setHewerF h Fd.TWN_HEWER_STATUS_UP 0 (setHewer h (some { x with link := .reset }) s)
  | (some n, s) =>
    let s := emitShaftHello x.addr h 0 own s
    let l : Link := ⟨some own, some ⟨x.serial, 2, 0, nonce⟩, some n, true, 0, 0, s.time.up⟩
    let (l, s) := shaftPost x.addr 0x02 h 0 l (natBe 1 h ++ natBe 16 s.serial) s
    event Ev.HEWER_UP [h] (setHewerF h Fd.TWN_HEWER_STATUS_UP 1 (setHewer h (some { x with link := l }) s))

/-- The hewer hears its overman's HELLO: the key follows from both nonces. -/
def overmanHello (serial nonce : Nat) (s : State) : State :=
  match s.twin.overman.nonce with
  | none => s
  | some own =>
    if s.twin.overman.up then s
    else
      let s := freeKey s.twin.overman s
      match sessionKey 6 (natBe 16 nonce ++ natBe 16 own) s with
      | (some n, s) => setOver { s.twin.overman with peer := some ⟨serial, 1, 0, nonce⟩, slot := some n, tx := 0, rx := 0 } s
      | (none, s) => s

/-- SHAFT_HELLO (R382): on the overman an unknown id or a serial number that does not match is refused. -/
def execShaftHello (id : Fin 64) (serial : BitVec 128) (sa : BitVec 48) (nonce : BitVec 128) (s : State) : Ans :=
  .next <| arrived s 65 72 <| if overmanOn s then
    match hewerOf s id.val with
    | some x => if x.serial = serial.toNat then acceptHewer id.val x nonce.toNat s else event Ev.HEWER_REFUSED [id.val] s
    | none => event Ev.HEWER_REFUSED [id.val] s
  else onlyIf (isHewer s && shaftOn s && sa.toNat == shaftPeer s && id.val == hewerId s) (overmanHello serial.toNat nonce.toNat) s

/-- A sealed shaft message with a payload of n bytes arrives: its MAC counts it. -/
def shaftArrive (n : Nat) (before : State) (s : State) : State := arrived before 65 (54 + n) s

/-- An authentic message of a session, newer than the last. -/
def shaftGood (s : State) (l : Link) (seq : Nat) (auth : Bool) : Bool := keyed s l && auth && decide (l.rx < seq)

/-- ACCEPT (R382). -/
def execAcceptMsg (seq : Nat) (auth : Bool) (id : Fin 64) (serial : BitVec 128) (s : State) : Ans :=
  let l := s.twin.overman
  let known := match l.peer with | some p => p.serial == serial.toNat | none => false
  .next (shaftArrive 17 s <| onlyIf (isHewer s && shaftOn s && shaftGood s l seq auth && id.val == hewerId s && known)
    (fun s => setOver { l with up := true, rx := seq, lastAt := s.time.up } s) s)

/-! STATUS -/

/-- Mode, life-cycle state, level, TALLY_NEXT and part time (Table 14.12; log entry 99). -/
def statusBytes (s : State) : Bytes := natBe 1 s.mode ++ natBe 1 s.attic.lifecycle ++ natBe 1 (levelInForce s) ++ natBe 6 s.attic.nextSeq ++ natBe 8 s.time.now

def statusTo (s : State) (e : Nat × Option Hewer) : State :=
  match e.2 with
  | some x => if x.link.up then toHewer e.1 0x01 (statusBytes s) s else s
  | none => s

def sendStatus (s : State) : State :=
  let s := { s with twin := { s.twin with statusAt := s.time.up } }
  if overmanOn s then s.twin.hewers.foldl statusTo s
  else if s.twin.overman.up then
    let (l, s) := shaftPost (shaftPeer s) 0x01 (hewerId s) 1 s.twin.overman (statusBytes s) s
    setOver l s
  else s

/-- STATUS_TIMER (Table 14.12): every 10 ms. -/
def execStatusTimer (s : State) : Ans :=
  .next (onlyIf ((overmanOn s || isHewer s && shaftOn s) && decide (s.twin.statusAt + 10000000 ≤ s.time.up)) sendStatus s)

def hewerStatus (h seq level : Nat) (x : Hewer) (s : State) : State :=
  setHewerF h Fd.TWN_HEWER_STATUS_LEVEL level (setHewer h (some { x with link := { x.link with rx := seq, lastAt := s.time.up } }) s)

/-- STATUS (R382). -/
def execStatusMsg (id : Fin 64) (seq : Nat) (auth : Bool) (level : Fin 8) (s : State) : Ans :=
  .next <| shaftArrive (statusBytes s).length s <| if overmanOn s then
    match hewerOf s id.val with
    | some x => onlyIf (x.link.up && shaftGood s x.link seq auth) (hewerStatus id.val seq level.val x) s
    | none => s
  else
    let l := s.twin.overman
    onlyIf (isHewer s && shaftOn s && l.up && shaftGood s l seq auth && id.val == hewerId s)
      (fun s => setOver { l with rx := seq, lastAt := s.time.up } s) s

/-- Three STATUS messages are missing. -/
def shaftLost (s : State) (l : Link) : Bool := l.up && decide (l.lastAt + 30000000 ≤ s.time.up)

/-- HEWER_LOST (R382). -/
def execHewerLost (id : Fin 64) (s : State) : Ans :=
  match hewerOf s id.val with
  | some x => .next (onlyIf (overmanOn s && shaftLost s x.link) (fun s =>
      event Ev.HEWER_LOST [id.val] (setHewerF id.val Fd.TWN_HEWER_STATUS_UP 0 (setHewer id.val (some { x with link := .reset }) (freeKey x.link s)))) s)
  | none => .next s

/-- OVERMAN_LOST (R382). -/
def execOvermanLost (s : State) : Ans :=
  .next (onlyIf (isHewer s && s.live && shaftLost s s.twin.overman) (fun s => event Ev.OVERMAN_LOST [hewerId s] (setOver .reset (freeKey s.twin.overman s))) s)

/-! BLOB and BLOB_ACK (R383) -/

/-- A cellar blob of a key under deep slot 3 (R120, R126). -/
def cellarBlob (s : State) (e : BlobEntry) : Bytes :=
  let head := natBe 2 0x4256 ++ natBe 1 1 ++ natBe 1 0 ++ natBe 4 e.handle ++ natBe 2 0x8003 ++ natBe 2 ((deepOf s 3).g DS.GEN) ++ zeros 4
  head ++ keyWrapPad (deep256 s 3) (natBe 32 e.key.toNat ++ natBe 8 e.attr.toNat ++ natBe 4 e.expiry.toNat ++ head.drop 4)

/-- One entry: its status and the state after it. -/
def storeEntry (granted : Bool) (e : BlobEntry) (s : State) : Nat × State :=
  if !granted then (St.DENIED, violation mShaft 0x11 e.handle s)
  else if 2 ^ 20 ≤ e.handle then (St.UNSUPPORTED, s)
  else if cellarUsed s e.handle ∨ (claimOn s (.handle e.handle)).isSome then (St.BUSY, s)
  else if !deepParentOk s 3 DS.U_WRAP then (St.KEK_INVALID, s)
  else
    let (ok, s) := memWrite (blobAt e.handle) (cellarBlob s e ++ zeros 48) .good s
    (if ok then St.OK else St.ABORTED, s)

def storeEntries (granted : Bool) (acc : Bytes × State) (e : BlobEntry) : Bytes × State :=
  let (st, s) := storeEntry granted e acc.2
  (acc.1 ++ natBe 4 e.handle ++ natBe 1 st ++ zeros 3, s)

/-- A BLOB message: each entry is stored or refused, and every one is answered. -/
def takeBlob (seq : Nat) (entries : List BlobEntry) (s : State) : State :=
  let s := setOver { s.twin.overman with rx := seq } s
  let (answer, s) := entries.foldl (storeEntries (permits s 0x11 mShaft 1)) ([], fetchDeep 3 s)
  let (l, s) := shaftPost (shaftPeer s) 0x04 (hewerId s) 1 s.twin.overman answer s
  setOver l s

/-- BLOB (R383). -/
def execBlob (seq : Nat) (auth : Bool) (entries : List BlobEntry) (s : State) : Ans :=
  .next (shaftArrive (8 + 48 * entries.length) s <| onlyIf (isHewer s && shaftOn s && s.twin.overman.up && shaftGood s s.twin.overman seq auth && decide (entries.length ≤ 64)) (takeBlob seq entries) s)

/-- The first message of a hewer that still waits for its answer leaves the list. -/
def answered (h : Nat) : List (Nat × Nat) → List (Nat × Nat)
  | [] => []
  | w :: t => if w.1 = h then t else w :: answered h t

def noteAcks (h : Nat) (acks : List (Nat × Nat)) (r : BlobRun) : BlobRun :=
  let ok := (acks.filter (fun a => a.2 == 0)).length
  { r with waiting := answered h r.waiting, accepted := r.accepted + ok, refused := r.refused + (acks.length - ok) }

def takeAck (h seq : Nat) (acks : List (Nat × Nat)) (x : Hewer) (s : State) : State :=
  let s := setHewer h (some { x with link := { x.link with rx := seq } }) s
  match s.twin.blobRun with
  | some r => if r.waiting.any (fun w => w.1 == h && w.2 != 0) then { s with twin := { s.twin with blobRun := some (noteAcks h acks r) } } else s
  | none => s

/-- BLOB_ACK (R383). -/
def execBlobAck (id : Fin 64) (seq : Nat) (auth : Bool) (acks : List (Nat × Nat)) (s : State) : Ans :=
  .next <| shaftArrive (8 * acks.length) s <| match hewerOf s id.val with
  | some x => onlyIf (overmanOn s && x.link.up && shaftGood s x.link seq auth) (takeAck id.val seq acks x) s
  | none => s

end Sys2Proof.Machine
end

