-- ==== Sys2Proof/Machine/Spdm.lean ====
section
/-! DEFINITION. SPDM attestation and the IDE streams (R405 to R407). The DMTF codes of requests, responses and errors are PRESUMED (log entry 104); so are the IDE_KM object ids (log entry 103). -/
namespace Sys2Proof.Machine

/-! Selective IDE streams (R405) -/

/-- Some SPDM session is established; IDE_KM messages come in one. -/
def secured (s : State) : Bool := s.host.sessions.any (fun x => x.established)

def ideOf (s : State) (n : Nat) : IdeStream := tget ide0 s.host.ide n
def setIde (n : Nat) (x : IdeStream) (s : State) : State := { s with host := { s.host with ide := tput ide0 s.host.ide n x } }

/-- An IDE_KM answer: object id, stream, key set and direction, status 0. -/
def ideAck (obj stream sub : Nat) (s : State) : State := s.emit (.doe (natBe 1 obj ++ natBe 1 stream ++ natBe 1 sub ++ zeros 1))

/-- Both directions of one key set are in use. -/
def ideWhole (go : List Nat) : Bool := (go.contains 0 && go.contains 1) || (go.contains 2 && go.contains 3)

/-- QUERY (R405): the stream's state: Secure, and the key sets and directions in use. -/
def execQuery (stream : Fin 4) (s : State) : Ans :=
  .next (onlyIf (s.live && secured s) (fun s =>
    let x := ideOf s stream.val
    s.emit (.doe (natBe 1 1 ++ natBe 1 stream.val ++ natBe 1 (b2n x.secure) ++ natBe 1 (x.go.map (fun k => 2 ^ k)).sum))) s)

/-- KEY_PROG (R405): a key for a set and direction of a stream. -/
def execKeyProg (stream : Fin 4) (set : Fin 2) (rx : Bool) (key : BitVec 256) (s : State) : Ans :=
  let k := 2 * set.val + b2n rx
  .next (onlyIf (s.live && secured s) (fun s =>
    ideAck 3 stream.val k (setIde stream.val { ideOf s stream.val with keys := tset (tdel (ideOf s stream.val).keys k) k key } s)) s)

/-- K_SET_GO (R405): a programmed key set goes into use in one direction; with both directions the stream is Secure. -/
def execKSetGo (stream : Fin 4) (set : Fin 2) (rx : Bool) (s : State) : Ans :=
  let k := 2 * set.val + b2n rx
  .next (onlyIf (s.live && secured s && (tfind (ideOf s stream.val).keys k).isSome) (fun s =>
    let x := ideOf s stream.val
    let go := if x.go.contains k then x.go else x.go ++ [k]
    ideAck 6 stream.val k (setIde stream.val { x with go := go, secure := x.secure || ideWhole go } s)) s)

/-- K_SET_STOP (R405): a key set leaves use in one direction and its key goes; a stream with no whole set is Insecure. -/
def execKSetStop (stream : Fin 4) (set : Fin 2) (rx : Bool) (s : State) : Ans :=
  let k := 2 * set.val + b2n rx
  .next (onlyIf (s.live && secured s) (fun s =>
    let x := ideOf s stream.val
    let go := x.go.erase k
    ideAck 6 stream.val k (setIde stream.val { keys := tdel x.keys k, go := go, secure := x.secure && ideWhole go } s)) s)

/-- IDE_FAIL (R405): an integrity failure on a received TLP: the stream is Insecure and its keys are gone. -/
def execIdeFail (stream : Fin 4) (s : State) : Ans :=
  .next (onlyIf (s.live && (ideOf s stream.val).secure) (fun s =>
    event Ev.IDE_FAIL [0, 0, 0, stream.val] (bump Reg.HST_CNT_IDE_FAIL 1 (setIde stream.val (ide0 0) s))) s)

/-! What is measured (Table 15.11; the bytes each digest covers: log entry 105) -/

def mWords (t : Table W64) : Bytes := t.flatMap (fun e => natBe 4 e.1 ++ natBe 8 e.2.toNat)
def mImage (i : Image) : Bytes := i.entries.flatMap (natBe 2) ++ i.code.flatMap (fun w => natBe 8 w.1 ++ natBe 8 w.2)
def mImages (t : Table (Option Image)) : Bytes :=
  (List.range 4).flatMap (fun e => match tget none0 t e with | some i => natBe 1 1 ++ mImage i | none => natBe 1 0)
def mSigner (x : Signer) : Bytes :=
  natBe 4 x.keyId ++ natBe 1 (b2n x.admin + 2 * b2n x.test + 4 * b2n x.firmware) ++ natBe 2 x.orderMask ++ natBe 2 x.fnMask ++ x.ec ++ x.ml
def mAccess (t : Table Byte) : Bytes := t.flatMap (fun e => natBe 2 e.1 ++ [e.2])
def mArec (r : ARec) : Bytes :=
  natBe 8 r.sci ++ natBe 8 r.limit ++ natBe 4 r.ctrl.toNat ++ natBe 4 r.window ++ natBe 8 r.warn ++ natBe 8 r.maxLag ++ r.ans.flatMap (fun e => natBe 4 e.map.toNat)
def mTables (p : Profile) : Bytes :=
  p.rules.flatMap (fun e => natBe 2 e.1 ++ natBe 96 e.2.value ++ natBe 96 e.2.mask ++ natBe 8 e.2.res.toNat) ++
  p.scis.flatMap (fun e => natBe 4 e.1 ++ natBe 1 e.2.port ++ natBe 8 e.2.sci ++ natBe 8 e.2.res.toNat) ++
  p.peers.flatMap (fun e => natBe 4 e.1 ++ natBe 12 e.2.key ++ natBe 8 e.2.res.toNat)
def mWinder (p : Profile) : Bytes :=
  p.meters.flatMap (fun e => natBe 4 e.1 ++ natBe 1 (b2n e.2.enable + 2 * b2n e.2.aware) ++ natBe 8 e.2.cir ++ natBe 8 e.2.cbs ++ natBe 8 e.2.eir ++ natBe 8 e.2.ebs) ++
  p.shapers.flatMap (fun e => natBe 4 e.1 ++ natBe 8 e.2.rate ++ natBe 8 e.2.burst) ++
  p.lists.flatMap (fun e => natBe 1 e.1 ++ natBe 8 e.2.cycle ++ natBe 8 e.2.base ++ e.2.entries.flatMap (fun x => natBe 1 x.1 ++ natBe 1 x.2.1 ++ natBe 4 x.2.2))
def mGateKeys (t : Table (Option GKey)) : Bytes :=
  t.flatMap (fun e => match e.2 with | some k => natBe 2 e.1 ++ natBe 1 k.alg ++ natBe 1 k.sets ++ k.key | none => [])
def mProfile (p : Profile) : Bytes :=
  natBe 8 p.gen ++ mWords p.regs ++ mAccess p.access ++ mTables p ++ mImages p.images ++ mGateKeys p.gateKeys ++
    p.assoc.flatMap (fun e => natBe 4 e.1 ++ mArec e.2) ++ mWinder p

/-- The running image is A or B (R451). -/
def fwRunning (s : State) : FwImg := if s.fld Reg.PWR_STATUS Fd.PWR_STATUS_FW_IMAGE = 0 then s.attic.fwA else s.attic.fwB
def fwOther (s : State) : FwImg := if s.fld Reg.PWR_STATUS Fd.PWR_STATUS_FW_IMAGE = 0 then s.attic.fwB else s.attic.fwA

/-- What measurement i covers. -/
def measured (s : State) (i : Nat) : Bytes :=
  if i = 1 then Config.bootRom
  else if i = 2 then natBe 4 (fwRunning s).version ++ (fwRunning s).body
  else if i = 3 then natBe 4 (fwOther s).version ++ (fwOther s).body
  else if i = 4 then mImages s.gal.images ++ natBe 8 (s.reg Reg.GAL_EPOCH).toNat
  else if i = 5 then s.attic.signers.flatMap mSigner
  else if i = 6 then natBe 1 s.attic.lifecycle ++ natBe 1 s.variant ++ natBe 1 (b2n s.lamp.root.isSome) ++ natBe 1 s.mode
  else if i = 7 then mAccess s.host.access ++ (List.range 16).flatMap (fun f => natBe 4 (cellBase s f) ++ natBe 4 (cellCount s f))
  else match (if newestCopy s = 0 then s.attic.prof0 else s.attic.prof1) with | some p => mProfile p | none => []

/-- A measurement block: index, DMTF format, size, digest type, size, digest. -/
def measBlock (s : State) (i : Nat) : Bytes := natBe 1 i ++ natBe 1 1 ++ natLe 2 51 ++ natBe 1 i ++ natLe 2 48 ++ sha384 (measured s i)

/-! Messages (R407) -/

/-- Sends a message and keeps the request and it in the transcript. -/
def spdmSay (req rsp : Bytes) (s : State) : State :=
  { s.emit (.doe rsp) with host := { s.host with transcript := s.host.transcript ++ req ++ rsp } }

/-- The four bytes every message begins with, in the version agreed. -/
def spdmHead (s : State) (code p1 p2 : Nat) : Bytes := natBe 1 s.host.spdmVersion ++ natBe 1 code ++ natBe 1 p1 ++ natBe 1 p2

/-- An SPDM ERROR. -/
def spdmError (err : Nat) (s : State) : State := s.emit (.doe (spdmHead s 0x7F err 0))
def eInvalid : Nat := 0x01
def eUnexpected : Nat := 0x04
def eDecrypt : Nat := 0x06
def eUnsupported : Nat := 0x07
def eVersion : Nat := 0x41

/-- A request the connection has come far enough for. -/
def spdmAfter (k : Nat) (f : State → State) (s : State) : State := if s.host.spdmState < k then spdmError eUnexpected s else f s

/-- A request that needs the identity key: UnsupportedRequest on a Retired part. -/
def needsIdentity (f : State → State) (s : State) : State := if s.vault.identity then f s else spdmError eUnsupported s

/-- Signatures need ECDSA P-384 and SHA-384 agreed. -/
def agreed (s : State) (mask : Nat) : Bool := s.host.spdmAlg &&& mask == mask

/-- A response that ends with a signature over the transcript and itself. -/
def spdmSigned (req body : Bytes) (s : State) : State := spdmSay req (body ++ Config.identitySign (s.host.transcript ++ req ++ body)) s

/-- The responder's nonce: 32 bytes of the random source. -/
def nonce32 (s : State) : Bytes := natBe 32 (s.draw.setWidth 256).toNat

/-- GET_VERSION (R407): versions 1.2 and 1.3; what was agreed before is gone. -/
def execGetVersion (s : State) : Ans :=
  .next (onlyIf s.live (fun s =>
    let s := { s with host := { s.host with spdmVersion := 0x10, spdmState := 1, spdmAlg := 0, transcript := [] } }
    spdmSay (spdmHead s 0x84 0 0) (spdmHead s 0x04 0 0 ++ natBe 1 0 ++ natBe 1 2 ++ natLe 2 0x1200 ++ natLe 2 0x1300) s) s)

/-- The capabilities that R407's requests stand for: certificates, challenge, signed measurements, encryption, MAC, key exchange, heartbeat, key update. -/
def spdmCaps : Nat := 0x2 + 0x4 + 0x10 + 0x40 + 0x80 + 0x200 + 0x2000 + 0x4000

/-- GET_CAPABILITIES (R407), in the version the requester chose. -/
def execGetCapabilities (version : Byte) (s : State) : Ans :=
  .next (onlyIf s.live (spdmAfter 1 (fun s =>
    if version ≠ 0x12 ∧ version ≠ 0x13 then spdmError eVersion s
    else
      let s := { s with host := { s.host with spdmVersion := version.toNat, spdmState := 2 } }
      spdmSay (spdmHead s 0xE1 0 0) (spdmHead s 0x61 0 0 ++ zeros 4 ++ natLe 4 spdmCaps) s)) s)

/-- NEGOTIATE_ALGORITHMS (R407): of what the requester offers, the part takes the ones of R407. -/
def execNegotiateAlgorithms (ecdsaP384 sha384 secp384r1 aesGcm : Bool) (s : State) : Ans :=
  .next (onlyIf s.live (spdmAfter 2 (fun s =>
    let alg := b2n ecdsaP384 + 2 * b2n sha384 + 4 * b2n secp384r1 + 8 * b2n aesGcm
    let s := { s with host := { s.host with spdmState := 3, spdmAlg := alg } }
    spdmSay (spdmHead s 0xE3 0 0 ++ natBe 1 alg) (spdmHead s 0x63 0 0 ++ natBe 1 alg) s)) s)

/-- GET_DIGESTS (R407): the digest of the chain of slot 0. -/
def execGetDigests (s : State) : Ans :=
  .next (onlyIf s.live (spdmAfter 3 (fun s =>
    spdmSay (spdmHead s 0x81 0 0) (spdmHead s 0x01 0 1 ++ sha384 Config.certChain) s)) s)

/-- GET_CERTIFICATE (R407): a part of the chain of slot 0, and how much is left. -/
def execGetCertificate (slot : Byte) (off len : Nat) (s : State) : Ans :=
  .next (onlyIf s.live (spdmAfter 3 (fun s =>
    if slot ≠ 0 ∨ Config.certChain.length ≤ off then spdmError eInvalid s
    else
      let part := (Config.certChain.drop off).take len
      spdmSay (spdmHead s 0x82 0 0 ++ natLe 2 off ++ natLe 2 len)
        (spdmHead s 0x02 0 0 ++ natLe 2 part.length ++ natLe 2 (Config.certChain.length - off - part.length) ++ part) s)) s)

/-- CHALLENGE (R407): the chain's digest, a nonce, and a signature of the identity key. -/
def execChallenge (slot : Byte) (nonce : BitVec 256) (s : State) : Ans :=
  .next (onlyIf s.live (needsIdentity (spdmAfter 3 (fun s =>
    if slot ≠ 0 ∨ !agreed s 3 then spdmError eInvalid s
    else
      let n := nonce32 s
      spdmSigned (spdmHead s 0x83 0 0 ++ natBe 32 nonce.toNat) (spdmHead s 0x03 0 1 ++ sha384 Config.certChain ++ n ++ natLe 2 0) s.drew))) s)

/-- The measurements an index asks for: none for 0, which counts them; all for 0xFF. -/
def measBlocks (s : State) (i : Nat) : List Bytes :=
  if i = 0 then [] else if i = 0xFF then (List.range 8).map (fun k => measBlock s (k + 1)) else [measBlock s i]

/-- GET_MEASUREMENTS (R407, Table 15.11). -/
def execGetMeasurements (index : Byte) (signed : Bool) (nonce : BitVec 256) (s : State) : Ans :=
  let i := index.toNat
  let run := spdmAfter 3 (fun s =>
    if (8 < i ∧ i ≠ 0xFF) ∨ (signed && !agreed s 3) then spdmError eInvalid s
    else
      let bs := measBlocks s i
      let req := spdmHead s 0xE0 (b2n signed) i ++ (if signed then natBe 32 nonce.toNat else [])
      let body := spdmHead s 0x60 (if i = 0 then 8 else 0) 0 ++ natBe 1 bs.length ++ natLe 3 (bs.map (·.length)).sum ++ bs.flatten ++ nonce32 s ++ natLe 2 0
      if signed then spdmSigned req body s.drew else spdmSay req body s.drew)
  .next (onlyIf s.live (if signed then needsIdentity run else run) s)

/-! Sessions (R407) -/

def sessionOf (s : State) (id : Nat) : Option Session := s.host.sessions.find? (fun x => x.id == id)
def closeSession (id : Nat) (s : State) : State := { s with host := { s.host with sessions := s.host.sessions.filter (fun x => x.id != id) } }

/-- KEY_EXCHANGE (R407): a secp384r1 share of the part, a signature, and the start of a session; no pre-shared keys, no mutual authentication. -/
def execKeyExchange (reqSession : BitVec 16) (exch : Bytes) (psk mutAuth : Bool) (s : State) : Ans :=
  .next (onlyIf s.live (needsIdentity (fun s =>
    if psk ∨ mutAuth then spdmError eUnsupported s
    else spdmAfter 3 (fun s =>
      if exch.length ≠ 96 ∨ !agreed s 15 then spdmError eInvalid s
      else
        let d := s.draw
        let s := s.drew
        let rsp := (s.draw.setWidth 16).toNat
        let id := reqSession.toNat + rsp * 2 ^ 16
        let s := s.drew
        let n := nonce32 s
        let s := s.drew
        let req := spdmHead s 0xE4 0 0 ++ natLe 2 reqSession.toNat ++ exch
        let body := spdmHead s 0x64 Config.heartbeatPeriod.toNat 0 ++ natLe 2 rsp ++ zeros 2 ++ n ++ Config.ecdhPublic d ++ natLe 2 0
        let sealed_ := body ++ Config.identitySign (s.host.transcript ++ req ++ body)
        let secret := Config.ecdhShared d exch
        let hash := s.host.transcript ++ req ++ sealed_
        let s := spdmSay req (sealed_ ++ Config.spdmMac false secret hash) s
        { s with host := { s.host with sessions := (closeSession id s).host.sessions ++ [⟨id, false, secret, s.host.transcript, 0⟩] } }) s)) s)

/-- FINISH (R407): the requester's verify data; the session is established, or gone. -/
def execFinish (session : W32) (mac : Bytes) (s : State) : Ans :=
  .next (onlyIf s.live (needsIdentity (fun s =>
    match sessionOf s session.toNat with
    | some x =>
      if x.established then spdmError eUnexpected s
      else if mac = Config.spdmMac true x.secret x.hash then
        let s := { s with host := { s.host with sessions := (closeSession x.id s).host.sessions ++ [{ x with established := true }] } }
        event Ev.SPDM_SESSION [x.id, 1] (spdmSay (spdmHead s 0xE5 0 0 ++ mac) (spdmHead s 0x65 0 0) s)
      else spdmError eDecrypt (closeSession x.id s)
    | none => spdmError eUnexpected s)) s)

/-- A request inside an established session. -/
def inSession (id : Nat) (f : Session → State → State) (s : State) : State :=
  match sessionOf s id with
  | some x => if x.established then f x s else spdmError eUnexpected s
  | none => spdmError eUnexpected s

/-- SPDM_HEARTBEAT (R407). -/
def execSpdmHeartbeat (session : W32) (s : State) : Ans :=
  .next (onlyIf s.live (needsIdentity (inSession session.toNat (fun _ s => s.emit (.doe (spdmHead s 0x68 0 0))))) s)

/-- KEY_UPDATE (R407): 1 the requester's key, 2 both keys, 3 the check that ends an update. -/
def execKeyUpdate (session : W32) (op : Byte) (s : State) : Ans :=
  .next (onlyIf s.live (needsIdentity (inSession session.toNat (fun x s =>
    if op = 0 ∨ 3 < op.toNat then spdmError eInvalid s
    else
      let y := if op = 3 then x else { x with gen := x.gen + 1 }
      let s := { s with host := { s.host with sessions := s.host.sessions.map (fun (z : Session) => if z.id = x.id then y else z) } }
      s.emit (.doe (spdmHead s 0x69 op.toNat 0))))) s)

/-- END_SESSION (R407). -/
def execEndSession (session : W32) (s : State) : Ans :=
  .next (onlyIf s.live (needsIdentity (inSession session.toNat (fun x s =>
    event Ev.SPDM_SESSION [x.id, 0] (closeSession x.id (s.emit (.doe (spdmHead s 0x6C 0 0))))))) s)

end Sys2Proof.Machine
end

