-- ==== Sys2Proof/Machine/Dispatch.lean ====
section
/-! DEFINITION. One arm per command: the call of its meaning, or its rejection by name. -/
namespace Sys2Proof.Machine

/-- What a command does to everything but the queue. -/
def exec (i : Instr) (s : State) : Host.Outcome State Fault Refusal :=
  match i with
  | .clientFrameRx port data chk ts ecc wrOk => Sys2Proof.Machine.execClientFrameRx port data chk ts ecc wrOk s
  | .lineFrameRx port data chk ts ecc => Sys2Proof.Machine.execLineFrameRx port data chk ts ecc s
  | .acacheFetchDone assoc ecc => Sys2Proof.Machine.execAcacheFetchDone assoc ecc s
  | .dispatch dom tag keyOk ecc => Sys2Proof.Machine.execDispatch dom tag keyOk ecc s
  | .tagStall => Sys2Proof.Machine.execTagStall s
  | .threadTakeItem g t => Sys2Proof.Machine.execThreadTakeItem g t s
  | .keyFillDone handle ecc => Sys2Proof.Machine.execKeyFillDone handle ecc s
  | .sealHandover tag => Sys2Proof.Machine.execSealHandover tag s
  | .openVerified tag flipA flipB => Sys2Proof.Machine.execOpenVerified tag flipA flipB s
  | .galleryFault g cause => Sys2Proof.Machine.execGalleryFault g cause s
  | .screenRelease dom wrOk ecc => Sys2Proof.Machine.execScreenRelease dom wrOk ecc s
  | .gateVerifyDone entry => Sys2Proof.Machine.execGateVerifyDone entry s
  | .gateRelease entry ecc wrOk => Sys2Proof.Machine.execGateRelease entry ecc wrOk s
  | .gateMaxWait entry => Sys2Proof.Machine.execGateMaxWait entry s
  | .egressSelect e => Sys2Proof.Machine.execEgressSelect e s
  | .tgStaleDrop q => Sys2Proof.Machine.execTgStaleDrop q s
  | .shaperTick => Sys2Proof.Machine.execShaperTick s
  | .hbmStreamStart e ecc => Sys2Proof.Machine.execHbmStreamStart e ecc s
  | .txUnderrun e sent => Sys2Proof.Machine.execTxUnderrun e sent s
  | .pfcRx port pause en quanta => Sys2Proof.Machine.execPfcRx port pause en quanta s
  | .pauseExpire port cls => Sys2Proof.Machine.execPauseExpire port cls s
  | .pfcRefresh port cls => Sys2Proof.Machine.execPfcRefresh port cls s
  | .pauseLong port cls => Sys2Proof.Machine.execPauseLong port cls s
  | .gateListEntry e => Sys2Proof.Machine.execGateListEntry e s
  | .tgListActive e => Sys2Proof.Machine.execTgListActive e s
  | .tgStaleState => Sys2Proof.Machine.execTgStaleState s
  | .tubAssemblerDraw trib ecc => Sys2Proof.Machine.execTubAssemblerDraw trib ecc s
  | .tubFlush trib => Sys2Proof.Machine.execTubFlush trib s
  | .tubMaxAge trib => Sys2Proof.Machine.execTubMaxAge trib s
  | .lineFrameTx lane => Sys2Proof.Machine.execLineFrameTx lane s
  | .alignCandidate lane pos hdr => Sys2Proof.Machine.execAlignCandidate lane pos hdr s
  | .trackerConfirm lane k hdr => Sys2Proof.Machine.execTrackerConfirm lane k hdr s
  | .laneFrameCheck lane frame skewNs => Sys2Proof.Machine.execLaneFrameCheck lane frame skewNs s
  | .tubKeyDerived rx trib epoch => Sys2Proof.Machine.execTubKeyDerived rx trib epoch s
  | .trunkUp n => Sys2Proof.Machine.execTrunkUp n s
  | .tubBlockRx trib trunk ts => Sys2Proof.Machine.execTubBlockRx trib trunk ts s
  | .oldPointerEnd n => Sys2Proof.Machine.execOldPointerEnd n s
  | .oldKeyZeroize n => Sys2Proof.Machine.execOldKeyZeroize n s
  | .epochSwitch n => Sys2Proof.Machine.execEpochSwitch n s
  | .tribRemapApply rx trib => Sys2Proof.Machine.execTribRemapApply rx trib s
  | .mergeWaitExpire trib ecc => Sys2Proof.Machine.execMergeWaitExpire trib ecc s
  | .keyExpired slot => Sys2Proof.Machine.execKeyExpired slot s
  | .slotSweep bad badDeep => Sys2Proof.Machine.execSlotSweep bad badDeep s
  | .slotZeroize slot => Sys2Proof.Machine.execSlotZeroize slot s
  | .cascadeSweep deep slot => Sys2Proof.Machine.execCascadeSweep deep slot s
  | .deepRemask d ok => Sys2Proof.Machine.execDeepRemask d ok s
  | .galleryOnline g kat => Sys2Proof.Machine.execGalleryOnline g kat s
  | .stepLimit g t => Sys2Proof.Machine.execStepLimit g t s
  | .nop t gd b => Sys2Proof.Machine.execNop t gd b s
  | .alu t gd fn rd ra rb b => Sys2Proof.Machine.execAlu t gd fn rd ra rb b s
  | .hash t gd rd ra rb b => Sys2Proof.Machine.execHash t gd rd ra rb b s
  | .addi t gd rd ra imm b => Sys2Proof.Machine.execAddi t gd rd ra imm b s
  | .andi t gd rd ra imm b => Sys2Proof.Machine.execAndi t gd rd ra imm b s
  | .ori t gd rd ra imm b => Sys2Proof.Machine.execOri t gd rd ra imm b s
  | .xori t gd rd ra imm b => Sys2Proof.Machine.execXori t gd rd ra imm b s
  | .shli t gd rd ra sh b => Sys2Proof.Machine.execShli t gd rd ra sh b s
  | .shri t gd rd ra sh b => Sys2Proof.Machine.execShri t gd rd ra sh b s
  | .sari t gd rd ra sh b => Sys2Proof.Machine.execSari t gd rd ra sh b s
  | .ext t gd rd ra pos wid1 b => Sys2Proof.Machine.execExt t gd rd ra pos wid1 b s
  | .ins t gd rd ra pos wid1 b => Sys2Proof.Machine.execIns t gd rd ra pos wid1 b s
  | .movi t gd rd sx imm b => Sys2Proof.Machine.execMovi t gd rd sx imm b s
  | .movu t gd rd imm b => Sys2Proof.Machine.execMovu t gd rd imm b s
  | .cmp t gd c ra rb pt pf b => Sys2Proof.Machine.execCmp t gd c ra rb pt pf b s
  | .cmpi t gd c ra imm pt pf b => Sys2Proof.Machine.execCmpi t gd c ra imm pt pf b s
  | .plog t gd fn pa pb pt pf b => Sys2Proof.Machine.execPlog t gd fn pa pb pt pf b s
  | .br t gd rl target b => Sys2Proof.Machine.execBr t gd rl target b s
  | .jr t gd rd ra b => Sys2Proof.Machine.execJr t gd rd ra b s
  | .wld t gd rd ra off size sx ecc b => Sys2Proof.Machine.execWld t gd rd ra off size sx ecc b s
  | .wst t gd rs ra off size b => Sys2Proof.Machine.execWst t gd rs ra off size b s
  | .wins t gd n1 ra off b => Sys2Proof.Machine.execWins t gd n1 ra off b s
  | .wdel t gd n1 ra off b => Sys2Proof.Machine.execWdel t gd n1 ra off b s
  | .mfs t gd rd sr b => Sys2Proof.Machine.execMfs t gd rd sr b s
  | .mts t gd rs sr b => Sys2Proof.Machine.execMts t gd rs sr b s
  | .lkp t gd rd ra tbl pt pf ecc b => Sys2Proof.Machine.execLkp t gd rd ra tbl pt pf ecc b s
  | .mtr t gd rd ra rb b => Sys2Proof.Machine.execMtr t gd rd ra rb b s
  | .cnt t gd ra rb b => Sys2Proof.Machine.execCnt t gd ra rb b s
  | .put t gd ra b => Sys2Proof.Machine.execPut t gd ra b s
  | .sealEnd t gd b => Sys2Proof.Machine.execSealEnd t gd b s
  | .openEnd t gd b => Sys2Proof.Machine.execOpenEnd t gd b s
  | .passEnd t gd b => Sys2Proof.Machine.execPassEnd t gd b s
  | .dropEnd t gd reason sub b => Sys2Proof.Machine.execDropEnd t gd reason sub b s
  | .puntEnd t gd fn b => Sys2Proof.Machine.execPuntEnd t gd fn b s
  | .ald t gd rd ra ecc b => Sys2Proof.Machine.execAld t gd rd ra ecc b s
  | .ast t gd rd ra rb ecc b => Sys2Proof.Machine.execAst t gd rd ra rb ecc b s
  | .aadd t gd rd ra rb ecc b => Sys2Proof.Machine.execAadd t gd rd ra rb ecc b s
  | .aand t gd rd ra rb ecc b => Sys2Proof.Machine.execAand t gd rd ra rb ecc b s
  | .aor t gd rd ra rb ecc b => Sys2Proof.Machine.execAor t gd rd ra rb ecc b s
  | .axor t gd rd ra rb ecc b => Sys2Proof.Machine.execAxor t gd rd ra rb ecc b s
  | .aswp t gd rd ra rb ecc b => Sys2Proof.Machine.execAswp t gd rd ra rb ecc b s
  | .acas t gd rd ra rb ecc b => Sys2Proof.Machine.execAcas t gd rd ra rb ecc b s
  | .fence t gd b => Sys2Proof.Machine.execFence t gd b s
  | .syncYield t gd b => Sys2Proof.Machine.execSyncYield t gd b s
  | .waitev t gd rd rb b => Sys2Proof.Machine.execWaitev t gd rd rb b s
  | .ord t gd code rd ecc b => Sys2Proof.Machine.execOrd t gd code rd ecc b s
  | .jobGo fn j => Sys2Proof.Machine.execJobGo fn j s
  | .jobStart fn j keyOk => Sys2Proof.Machine.execJobStart fn j keyOk s
  | .jobDone fn j ecc => Sys2Proof.Machine.execJobDone fn j ecc s
  | .orderRingDoorbell fn tail => Sys2Proof.Machine.execOrderRingDoorbell fn tail s
  | .bundleVerifyDone fn ticket => Sys2Proof.Machine.execBundleVerifyDone fn ticket s
  | .programStart t => Sys2Proof.Machine.execProgramStart t s
  | .programEnd t => Sys2Proof.Machine.execProgramEnd t s
  | .programTimeout t => Sys2Proof.Machine.execProgramTimeout t s
  | .deferredOrderRun ticket => Sys2Proof.Machine.execDeferredOrderRun ticket s
  | .laneRetrain o lane => Sys2Proof.Machine.execLaneRetrain o lane s
  | .laneEyeScan o lane cell => Sys2Proof.Machine.execLaneEyeScan o lane cell s
  | .eyeScanDone lane points counts => Sys2Proof.Machine.execEyeScanDone lane points counts s
  | .lanePrbs o lane pattern ms => Sys2Proof.Machine.execLanePrbs o lane pattern ms s
  | .prbsDone lane bits errs => Sys2Proof.Machine.execPrbsDone lane bits errs s
  | .portGroup o group grouping => Sys2Proof.Machine.execPortGroup o group grouping s
  | .macCounters o port cell => Sys2Proof.Machine.execMacCounters o port cell s
  | .tribRemap o trib maskLo maskHi => Sys2Proof.Machine.execTribRemap o trib maskLo maskHi s
  | .epochChange o trunk => Sys2Proof.Machine.execEpochChange o trunk s
  | .epochRxSet o trunk epoch => Sys2Proof.Machine.execEpochRxSet o trunk epoch s
  | .tblAdd o table key result => Sys2Proof.Machine.execTblAdd o table key result s
  | .tblDelIf o table key stamp => Sys2Proof.Machine.execTblDelIf o table key stamp s
  | .tblDmaWrite o table cell entries => Sys2Proof.Machine.execTblDmaWrite o table cell entries s
  | .tblCompare o table cell entries repair => Sys2Proof.Machine.execTblCompare o table cell entries repair s
  | .tblRead o table index count cell => Sys2Proof.Machine.execTblRead o table index count cell s
  | .progLoad o epoch att => Sys2Proof.Machine.execProgLoad o epoch att s
  | .epochSet o epoch => Sys2Proof.Machine.execEpochSet o epoch s
  | .galleryReset o g => Sys2Proof.Machine.execGalleryReset o g s
  | .stateAccessRead o index words cell => Sys2Proof.Machine.execStateAccessRead o index words cell s
  | .stateAccessWrite o index words cell => Sys2Proof.Machine.execStateAccessWrite o index words cell s
  | .pcntRead o first pairs cell => Sys2Proof.Machine.execPcntRead o first pairs cell s
  | .assocWrite o assoc cell => Sys2Proof.Machine.execAssocWrite o assoc cell s
  | .anInstall o assoc an slot pn lowest ssci saltCell => Sys2Proof.Machine.execAnInstall o assoc an slot pn lowest ssci saltCell s
  | .anSelect o assoc sel => Sys2Proof.Machine.execAnSelect o assoc sel s
  | .anRetire o assoc an => Sys2Proof.Machine.execAnRetire o assoc an s
  | .assocRead o assoc cell => Sys2Proof.Machine.execAssocRead o assoc cell s
  | .assocCounters o assoc cell => Sys2Proof.Machine.execAssocCounters o assoc cell s
  | .keyInstall o slot cell => Sys2Proof.Machine.execKeyInstall o slot cell s
  | .keyGenerate o slot attr => Sys2Proof.Machine.execKeyGenerate o slot attr s
  | .keyDerive o parent target ctxCell ctxLen attr => Sys2Proof.Machine.execKeyDerive o parent target ctxCell ctxLen attr s
  | .keyInvalidate o slot => Sys2Proof.Machine.execKeyInvalidate o slot s
  | .keyAttr o slot expiry flags => Sys2Proof.Machine.execKeyAttr o slot expiry flags s
  | .kemPublic o cell => Sys2Proof.Machine.execKemPublic o cell s
  | .deepImport o d cell attr => Sys2Proof.Machine.execDeepImport o d cell attr s
  | .cellarPut o cell blobs => Sys2Proof.Machine.execCellarPut o cell blobs s
  | .cellarDelete o handle => Sys2Proof.Machine.execCellarDelete o handle s
  | .standingSave o slot index => Sys2Proof.Machine.execStandingSave o slot index s
  | .standingDelete o index => Sys2Proof.Machine.execStandingDelete o index s
  | .mkaDerive o cak cknCell ick kek => Sys2Proof.Machine.execMkaDerive o cak cknCell ick kek s
  | .mkaSakGen o kek target cell => Sys2Proof.Machine.execMkaSakGen o kek target cell s
  | .mkaSakUnwrap o kek target cell => Sys2Proof.Machine.execMkaSakUnwrap o kek target cell s
  | .queueCfg o q limits flow sched => Sys2Proof.Machine.execQueueCfg o q limits flow sched s
  | .meterCfg o meter cir cbs eir ebs => Sys2Proof.Machine.execMeterCfg o meter cir cbs eir ebs s
  | .shaperCfg o shaper rate burst => Sys2Proof.Machine.execShaperCfg o shaper rate burst s
  | .gateList o port cell base => Sys2Proof.Machine.execGateList o port cell base s
  | .memKeyChange o index => Sys2Proof.Machine.execMemKeyChange o index s
  | .memKeyChanged index => Sys2Proof.Machine.execMemKeyChanged index s
  | .memScrub o region first count => Sys2Proof.Machine.execMemScrub o region first count s
  | .scrubDone region bad => Sys2Proof.Machine.execScrubDone region bad s
  | .dropNotify o fn rate => Sys2Proof.Machine.execDropNotify o fn rate s
  | .gateKeyAdd o keyId cell alg => Sys2Proof.Machine.execGateKeyAdd o keyId cell alg s
  | .gateKeyRevoke o keyId => Sys2Proof.Machine.execGateKeyRevoke o keyId s
  | .gateFlow o rule sets rate => Sys2Proof.Machine.execGateFlow o rule sets rate s
  | .timeSetStep o time => Sys2Proof.Machine.execTimeSetStep o time s
  | .timeSetOffset o offset => Sys2Proof.Machine.execTimeSetOffset o offset s
  | .timeSetFrequency o freq => Sys2Proof.Machine.execTimeSetFrequency o freq s
  | .timeSetHoldover o zero => Sys2Proof.Machine.execTimeSetHoldover o zero s
  | .sampleCfg o cell period => Sys2Proof.Machine.execSampleCfg o cell period s
  | .twinResync o => Sys2Proof.Machine.execTwinResync o s
  | .roleMove o target => Sys2Proof.Machine.execRoleMove o target s
  | .hewerEnrol o id cell => Sys2Proof.Machine.execHewerEnrol o id cell s
  | .blobSend o hewers first count => Sys2Proof.Machine.execBlobSend o hewers first count s
  | .blobSendDone => Sys2Proof.Machine.execBlobSendDone s
  | .regWrite o off value mask => Sys2Proof.Machine.execRegWrite o off value mask s
  | .regRead o off => Sys2Proof.Machine.execRegRead o off s
  | .signerAdd o keyId cell => Sys2Proof.Machine.execSignerAdd o keyId cell s
  | .signerRevoke o keyId => Sys2Proof.Machine.execSignerRevoke o keyId s
  | .firmwareStage o cell cells => Sys2Proof.Machine.execFirmwareStage o cell cells s
  | .lifecycleEnrolled o cell => Sys2Proof.Machine.execLifecycleEnrolled o cell s
  | .lifecycleDeployed o => Sys2Proof.Machine.execLifecycleDeployed o s
  | .lifecycleRetired o => Sys2Proof.Machine.execLifecycleRetired o s
  | .modeSetTest o => Sys2Proof.Machine.execModeSetTest o s
  | .modeSetService o => Sys2Proof.Machine.execModeSetService o s
  | .modeSetBanked o => Sys2Proof.Machine.execModeSetBanked o s
  | .bankedExitDone => Sys2Proof.Machine.execBankedExitDone s
  | .profileSave o => Sys2Proof.Machine.execProfileSave o s
  | .counterInc o n => Sys2Proof.Machine.execCounterInc o n s
  | .accessSet o target master perms => Sys2Proof.Machine.execAccessSet o target master perms s
  | .tallyRead o area first records cell => Sys2Proof.Machine.execTallyRead o area first records cell s
  | .levelSet o monitor level => Sys2Proof.Machine.execLevelSet o monitor level s
  | .learnCommit table => Sys2Proof.Machine.execLearnCommit table s
  | .patrolScrub cell ecc => Sys2Proof.Machine.execPatrolScrub cell ecc s
  | .coalesceWriteback cell ecc => Sys2Proof.Machine.execCoalesceWriteback cell ecc s
  | .hbmFault stack cell => Sys2Proof.Machine.execHbmFault stack cell s
  | .hbmHotRefresh stack hot => Sys2Proof.Machine.execHbmHotRefresh stack hot s
  | .laneLos lane => Sys2Proof.Machine.execLaneLos lane s
  | .losClear lane => Sys2Proof.Machine.execLosClear lane s
  | .cdrLock lane => Sys2Proof.Machine.execCdrLock lane s
  | .laneLol lane => Sys2Proof.Machine.execLaneLol lane s
  | .linkTrainingDone lane txPre rxPre inverted => Sys2Proof.Machine.execLinkTrainingDone lane txPre rxPre inverted s
  | .adaptDone lane inverted => Sys2Proof.Machine.execAdaptDone lane inverted s
  | .fecLock lane inverted => Sys2Proof.Machine.execFecLock lane inverted s
  | .fecAlignLoss lane => Sys2Proof.Machine.execFecAlignLoss lane s
  | .laneTrainFail lane => Sys2Proof.Machine.execLaneTrainFail lane s
  | .trainRetry lane => Sys2Proof.Machine.execTrainRetry lane s
  | .lineQualityWindow lane cw corr uncorr sym hist => Sys2Proof.Machine.execLineQualityWindow lane cw corr uncorr sym hist s
  | .rtcWriteback => Sys2Proof.Machine.execRtcWriteback s
  | .timeHoldover => Sys2Proof.Machine.execTimeHoldover s
  | .queueSample => Sys2Proof.Machine.execQueueSample s
  | .hello pos serial roleSel variant nonce => Sys2Proof.Machine.execHello pos serial roleSel variant nonce s
  | .helloTimer => Sys2Proof.Machine.execHelloTimer s
  | .heartbeat h p arrive => Sys2Proof.Machine.execHeartbeat h p arrive s
  | .heartbeatTimer => Sys2Proof.Machine.execHeartbeatTimer s
  | .peerSilent => Sys2Proof.Machine.execPeerSilent s
  | .roleYield cause => Sys2Proof.Machine.execRoleYield cause s
  | .yieldComplete => Sys2Proof.Machine.execYieldComplete s
  | .yieldMsg h cause => Sys2Proof.Machine.execYieldMsg h cause s
  | .takeover h => Sys2Proof.Machine.execTakeover h s
  | .roleInFiltered asserted => Sys2Proof.Machine.execRoleInFiltered asserted s
  | .startWaitExpire => Sys2Proof.Machine.execStartWaitExpire s
  | .doutUpdate h dout => Sys2Proof.Machine.execDoutUpdate h dout s
  | .doutRelease => Sys2Proof.Machine.execDoutRelease s
  | .imageDelta h gen item => Sys2Proof.Machine.execImageDelta h gen item s
  | .resyncReq h => Sys2Proof.Machine.execResyncReq h s
  | .resyncData h item => Sys2Proof.Machine.execResyncData h item s
  | .resyncDone h ok => Sys2Proof.Machine.execResyncDone h ok s
  | .xcData h frames ts wrOk => Sys2Proof.Machine.execXcData h frames ts wrOk s
  | .xcDataClose => Sys2Proof.Machine.execXcDataClose s
  | .elimReset stream => Sys2Proof.Machine.execElimReset stream s
  | .dinChange pin high => Sys2Proof.Machine.execDinChange pin high s
  | .shaftHello id serial sa nonce => Sys2Proof.Machine.execShaftHello id serial sa nonce s
  | .acceptMsg seq auth id serial => Sys2Proof.Machine.execAcceptMsg seq auth id serial s
  | .statusMsg id seq auth level => Sys2Proof.Machine.execStatusMsg id seq auth level s
  | .statusTimer => Sys2Proof.Machine.execStatusTimer s
  | .hewerLost id => Sys2Proof.Machine.execHewerLost id s
  | .overmanLost => Sys2Proof.Machine.execOvermanLost s
  | .blob seq auth entries => Sys2Proof.Machine.execBlob seq auth entries s
  | .blobAck id seq auth acks => Sys2Proof.Machine.execBlobAck id seq auth acks s
  | .supplyGlitch rail durNs => Sys2Proof.Machine.execSupplyGlitch rail durNs s
  | .islandPowerOff dom => Sys2Proof.Machine.execIslandPowerOff dom s
  | .supplyReset rail => Sys2Proof.Machine.execSupplyReset rail s
  | .supplyWarning rail => Sys2Proof.Machine.execSupplyWarning rail s
  | .cautionExit minMv => Sys2Proof.Machine.execCautionExit minMv s
  | .cautionLong => Sys2Proof.Machine.execCautionLong s
  | .clockFault clk => Sys2Proof.Machine.execClockFault clk s
  | .clockGlitch => Sys2Proof.Machine.execClockGlitch s
  | .tempWarn sensor => Sys2Proof.Machine.execTempWarn sensor s
  | .tempHigh sensor => Sys2Proof.Machine.execTempHigh sensor s
  | .tempLow sensor => Sys2Proof.Machine.execTempLow sensor s
  | .shieldBreak => Sys2Proof.Machine.execShieldBreak s
  | .tamperLoop loop => Sys2Proof.Machine.execTamperLoop loop s
  | .shadowSweep bad => Sys2Proof.Machine.execShadowSweep bad s
  | .foremanLockstep => Sys2Proof.Machine.execForemanLockstep s
  | .vbatLow => Sys2Proof.Machine.execVbatLow s
  | .rtcStop => Sys2Proof.Machine.execRtcStop s
  | .pkeKat ok => Sys2Proof.Machine.execPkeKat ok s
  | .alarmWindowEnd => Sys2Proof.Machine.execAlarmWindowEnd s
  | .squelchEnd => Sys2Proof.Machine.execSquelchEnd s
  | .tmpAlarmClear persist => Sys2Proof.Machine.execTmpAlarmClear persist s
  | .tallyRefill code => Sys2Proof.Machine.execTallyRefill code s
  | .lampSupplySwitch toVbat => Sys2Proof.Machine.execLampSupplySwitch toVbat s
  | .lampMonitorTrigger m => Sys2Proof.Machine.execLampMonitorTrigger m s
  | .lampLoopPoll broken => Sys2Proof.Machine.execLampLoopPoll broken s
  | .vbatRootErase => Sys2Proof.Machine.execVbatRootErase s
  | .powerOnReset st => Sys2Proof.Machine.execPowerOnReset st s
  | .sequencingFault => Sys2Proof.Machine.execSequencingFault s
  | .resetNAssert lowNs st => Sys2Proof.Machine.execResetNAssert lowNs st s
  | .watchdog => Sys2Proof.Machine.execWatchdog s
  | .startup inp => Sys2Proof.Machine.execStartup inp s
  | .perstN k => Sys2Proof.Machine.execPerstN k s
  | .flr fn => Sys2Proof.Machine.execFlr fn s
  | .flrComplete fn => Sys2Proof.Machine.execFlrComplete fn s
  | .tokenWrite fn k value ide => Sys2Proof.Machine.execTokenWrite fn k value ide s
  | .landingWrite fn off data ide ecc => Sys2Proof.Machine.execLandingWrite fn off data ide ecc s
  | .landingRead fn off len ide ecc => Sys2Proof.Machine.execLandingRead fn off len ide ecc s
  | .transmitRingDoorbell fn tail => Sys2Proof.Machine.execTransmitRingDoorbell fn tail s
  | .transmitEntryRead fn ecc => Sys2Proof.Machine.execTransmitEntryRead fn ecc s
  | .freeRingDoorbell fn tail => Sys2Proof.Machine.execFreeRingDoorbell fn tail s
  | .irqModerationExpire fn tx => Sys2Proof.Machine.execIrqModerationExpire fn tx s
  | .msixUnmask fn v => Sys2Proof.Machine.execMsixUnmask fn v s
  | .ideFail stream => Sys2Proof.Machine.execIdeFail stream s
  | .query stream => Sys2Proof.Machine.execQuery stream s
  | .keyProg stream set rx key => Sys2Proof.Machine.execKeyProg stream set rx key s
  | .kSetGo stream set rx => Sys2Proof.Machine.execKSetGo stream set rx s
  | .kSetStop stream set rx => Sys2Proof.Machine.execKSetStop stream set rx s
  | .getVersion => Sys2Proof.Machine.execGetVersion s
  | .getCapabilities version => Sys2Proof.Machine.execGetCapabilities version s
  | .negotiateAlgorithms ecdsaP384 sha384 secp384r1 aesGcm => Sys2Proof.Machine.execNegotiateAlgorithms ecdsaP384 sha384 secp384r1 aesGcm s
  | .getDigests => Sys2Proof.Machine.execGetDigests s
  | .getCertificate slot off len => Sys2Proof.Machine.execGetCertificate slot off len s
  | .challenge slot nonce => Sys2Proof.Machine.execChallenge slot nonce s
  | .getMeasurements index signed nonce => Sys2Proof.Machine.execGetMeasurements index signed nonce s
  | .keyExchange reqSession exch psk mutAuth => Sys2Proof.Machine.execKeyExchange reqSession exch psk mutAuth s
  | .finish session mac => Sys2Proof.Machine.execFinish session mac s
  | .spdmHeartbeat session => Sys2Proof.Machine.execSpdmHeartbeat session s
  | .keyUpdate session op => Sys2Proof.Machine.execKeyUpdate session op s
  | .endSession session => Sys2Proof.Machine.execEndSession session s
  | .setdasa static dyn => Sys2Proof.Machine.execSetdasa static dyn s
  | .entdaa dyn => Sys2Proof.Machine.execEntdaa dyn s
  | .setnewda dyn => Sys2Proof.Machine.execSetnewda dyn s
  | .rstdaa => Sys2Proof.Machine.execRstdaa s
  | .getpid => Sys2Proof.Machine.execGetpid s
  | .getbcr => Sys2Proof.Machine.execGetbcr s
  | .getdcr => Sys2Proof.Machine.execGetdcr s
  | .getstatus => Sys2Proof.Machine.execGetstatus s
  | .getmrl => Sys2Proof.Machine.execGetmrl s
  | .i3cPrivateWrite data => Sys2Proof.Machine.execI3cPrivateWrite data s
  | .i3cPrivateRead len => Sys2Proof.Machine.execI3cPrivateRead len s
  | .idcode => Sys2Proof.Machine.execIdcode s
  | .bypass => Sys2Proof.Machine.execBypass s
  | .tapInstruction ir => Sys2Proof.Machine.execTapInstruction ir s
  | .lowWaterRead => Sys2Proof.Machine.execLowWaterRead s
  | .qsampleMaxRead q => Sys2Proof.Machine.execQsampleMaxRead q s
  | .mergeDiffMaxRead trib => Sys2Proof.Machine.execMergeDiffMaxRead trib s
  | .railTempMaxRead temp k => Sys2Proof.Machine.execRailTempMaxRead temp k s
  | .hostRegisterWrite fn bar0 off value ide => Sys2Proof.Machine.execHostRegisterWrite fn bar0 off value ide s
  | .screenTimeout dom => Sys2Proof.Machine.execScreenTimeout dom s
  | .ptpDepartureInstant e ecc => Sys2Proof.Machine.execPtpDepartureInstant e ecc s
  | .telemetryUpdate m => Sys2Proof.Machine.execTelemetryUpdate m s
  | .poisonCleared cell => Sys2Proof.Machine.execPoisonCleared cell s
  | .pcieLinkUp rate width => Sys2Proof.Machine.execPcieLinkUp rate width s

end Sys2Proof.Machine
end

