-- ==== Sys2Proof/Machine/Idle.lean ====
section
/-! DEFINITION. What the part does while no command waits (log entry 2): 8 ns pass, cipher units end what they have written (R150), re-key walks end (R283), and a twin that holds the control role reports DOUT values that changed (R372). -/
namespace Sys2Proof.Machine

/-- One step of an empty queue. -/
def idle (s : State) : State := onlyIf (tick s).live (fun s => doutChanged (endWalks (endRests s))) (tick s)

end Sys2Proof.Machine
end

