-- ==== Sys2Proof/WellFormed.lean ====
section
/-! DEFINITION. Which commands can occur: operands that the spec's own sizes rule out. Most operands are bounded by their types; a command outside these bounds has no sender. -/
namespace Sys2Proof

/-- A frame as a MAC hands it on: some bytes, no more than a jabbering far end can send before it is cut. -/
def frameFits (data : Bytes) : Bool := decide (1 ≤ data.length) && decide (data.length ≤ 65535)

/-- Table words named by table and index: seven tables (R244). -/
def eccFits (ecc : List (Nat × Nat)) : Bool := ecc.all (fun e => decide (e.1 < 7))

/-- The header fields of a crosscut message (Table 14.4). -/
def hdrFits (h : XcHdr) : Bool := decide (h.epoch < 2 ^ 32) && decide (h.seq < 2 ^ 64)

/-- An image item carries at most the eight arguments g16 to g23. -/
def itemFits (x : ImageItem) : Bool := decide (x.args.length ≤ 8)

/-- A shadowed access-table entry names a target and a master that exist (Table 15.12). -/
def shadowFits : Shadow → Bool
  | .access t m => decide (t < 0x80) && decide (m < 24)
  | _ => true

/-- A BAR2 request: inside the BAR of its function, within one cell (Table 15.2). -/
def landingFits (fn off len : Nat) : Bool :=
  decide (1 ≤ len) && decide (off % 4096 + len ≤ 4096) && decide (off < (if fn = 0 then 2 ^ 28 else 2 ^ 26))

/-- A command is well formed. -/
def Instr.wf : Instr → Bool
  | .clientFrameRx _ data _ ts ecc _ => frameFits data && decide (ts < 2 ^ 64) && eccFits ecc
  | .lineFrameRx _ data _ ts ecc => frameFits data && decide (ts < 2 ^ 64) && eccFits ecc
  | .acacheFetchDone assoc _ => decide (assoc < 2 ^ 20)
  | .dispatch _ _ _ _ => true
  | .tagStall => true
  | .threadTakeItem _ _ => true
  | .keyFillDone _ _ => true
  | .sealHandover _ => true
  | .openVerified _ _ _ => true
  | .galleryFault _ _ => true
  | .screenRelease _ _ _ => true
  | .gateVerifyDone _ => true
  | .gateRelease _ _ _ => true
  | .gateMaxWait _ => true
  | .egressSelect _ => true
  | .tgStaleDrop _ => true
  | .shaperTick => true
  | .hbmStreamStart _ _ => true
  | .txUnderrun _ sent => decide (sent ≤ 16387)
  | .pfcRx _ pause _ quanta => pause.isSome || quanta.length == 8
  | .pauseExpire _ _ => true
  | .pfcRefresh _ _ => true
  | .pauseLong _ _ => true
  | .gateListEntry _ => true
  | .tgListActive _ => true
  | .tgStaleState => true
  | .tubAssemblerDraw _ _ => true
  | .tubFlush _ => true
  | .tubMaxAge _ => true
  | .lineFrameTx _ => true
  | .alignCandidate _ _ hdr => hdr.length == 16
  | .trackerConfirm _ _ hdr => hdr.length == 16
  | .laneFrameCheck _ frame _ => frame.length == 8192
  | .tubKeyDerived _ _ _ => true
  | .trunkUp _ => true
  | .tubBlockRx _ _ ts => decide (ts < 2 ^ 64)
  | .oldPointerEnd _ => true
  | .oldKeyZeroize _ => true
  | .epochSwitch _ => true
  | .tribRemapApply _ _ => true
  | .mergeWaitExpire _ _ => true
  | .keyExpired _ => true
  | .slotSweep _ _ => true
  | .slotZeroize _ => true
  | .cascadeSweep _ _ => true
  | .deepRemask _ _ => true
  | .galleryOnline _ _ => true
  | .stepLimit _ _ => true
  | .nop _ _ _ => true
  | .alu _ _ _ _ _ _ _ => true
  | .hash _ _ _ _ _ _ => true
  | .addi _ _ _ _ _ _ => true
  | .andi _ _ _ _ _ _ => true
  | .ori _ _ _ _ _ _ => true
  | .xori _ _ _ _ _ _ => true
  | .shli _ _ _ _ _ _ => true
  | .shri _ _ _ _ _ _ => true
  | .sari _ _ _ _ _ _ => true
  | .ext _ _ _ _ _ _ _ => true
  | .ins _ _ _ _ _ _ _ => true
  | .movi _ _ _ _ _ _ => true
  | .movu _ _ _ _ _ => true
  | .cmp _ _ _ _ _ _ _ _ => true
  | .cmpi _ _ _ _ _ _ _ _ => true
  | .plog _ _ _ _ _ _ _ _ => true
  | .br _ _ _ _ _ => true
  | .jr _ _ _ _ _ => true
  | .wld _ _ _ _ _ _ _ _ _ => true
  | .wst _ _ _ _ _ _ _ => true
  | .wins _ _ _ _ _ _ => true
  | .wdel _ _ _ _ _ _ => true
  | .mfs _ _ _ _ _ => true
  | .mts _ _ _ _ _ => true
  | .lkp _ _ _ _ _ _ _ ecc _ => eccFits ecc
  | .mtr _ _ _ _ _ _ => true
  | .cnt _ _ _ _ _ => true
  | .put _ _ _ _ => true
  | .sealEnd _ _ _ => true
  | .openEnd _ _ _ => true
  | .passEnd _ _ _ => true
  | .dropEnd _ _ _ _ _ => true
  | .puntEnd _ _ _ _ => true
  | .ald _ _ _ _ _ _ => true
  | .ast _ _ _ _ _ _ _ => true
  | .aadd _ _ _ _ _ _ _ => true
  | .aand _ _ _ _ _ _ _ => true
  | .aor _ _ _ _ _ _ _ => true
  | .axor _ _ _ _ _ _ _ => true
  | .aswp _ _ _ _ _ _ _ => true
  | .acas _ _ _ _ _ _ _ => true
  | .fence _ _ _ => true
  | .syncYield _ _ _ => true
  | .waitev _ _ _ _ _ => true
  | .ord _ _ _ _ _ _ => true
  | .jobGo _ _ => true
  | .jobStart _ _ _ => true
  | .jobDone _ _ _ => true
  | .orderRingDoorbell _ _ => true
  | .bundleVerifyDone _ ticket => decide (ticket < 2 ^ 24)
  | .programStart _ => true
  | .programEnd _ => true
  | .programTimeout _ => true
  | .deferredOrderRun ticket => decide (ticket < 2 ^ 24)
  | .laneRetrain _ _ => true
  | .laneEyeScan _ _ _ => true
  | .eyeScanDone _ points counts => counts.length == points
  | .lanePrbs _ _ _ _ => true
  | .prbsDone _ _ _ => true
  | .portGroup _ _ _ => true
  | .macCounters _ _ _ => true
  | .tribRemap _ _ _ _ => true
  | .epochChange _ _ => true
  | .epochRxSet _ _ _ => true
  | .tblAdd _ _ _ _ => true
  | .tblDelIf _ _ _ _ => true
  | .tblDmaWrite _ _ _ _ => true
  | .tblCompare _ _ _ _ _ => true
  | .tblRead _ _ _ _ _ => true
  | .progLoad _ _ _ => true
  | .epochSet _ _ => true
  | .galleryReset _ _ => true
  | .stateAccessRead _ _ _ _ => true
  | .stateAccessWrite _ _ _ _ => true
  | .pcntRead _ _ _ _ => true
  | .assocWrite _ _ _ => true
  | .anInstall _ _ _ _ _ _ _ _ => true
  | .anSelect _ _ _ => true
  | .anRetire _ _ _ => true
  | .assocRead _ _ _ => true
  | .assocCounters _ _ _ => true
  | .keyInstall _ _ _ => true
  | .keyGenerate _ _ _ => true
  | .keyDerive _ _ _ _ _ _ => true
  | .keyInvalidate _ _ => true
  | .keyAttr _ _ _ _ => true
  | .kemPublic _ _ => true
  | .deepImport _ _ _ _ => true
  | .cellarPut _ _ _ => true
  | .cellarDelete _ _ => true
  | .standingSave _ _ _ => true
  | .standingDelete _ _ => true
  | .mkaDerive _ _ _ _ _ => true
  | .mkaSakGen _ _ _ _ => true
  | .mkaSakUnwrap _ _ _ _ => true
  | .queueCfg _ _ _ _ _ => true
  | .meterCfg _ _ _ _ _ _ => true
  | .shaperCfg _ _ _ _ => true
  | .gateList _ _ _ _ => true
  | .memKeyChange _ _ => true
  | .memKeyChanged _ => true
  | .memScrub _ _ _ _ => true
  | .scrubDone _ bad => bad.all (fun n => decide (n < 2 ^ 27))
  | .dropNotify _ _ _ => true
  | .gateKeyAdd _ _ _ _ => true
  | .gateKeyRevoke _ _ => true
  | .gateFlow _ _ _ _ => true
  | .timeSetStep _ _ => true
  | .timeSetOffset _ _ => true
  | .timeSetFrequency _ _ => true
  | .timeSetHoldover _ _ => true
  | .sampleCfg _ _ _ => true
  | .twinResync _ => true
  | .roleMove _ _ => true
  | .hewerEnrol _ _ _ => true
  | .blobSend _ _ _ _ => true
  | .blobSendDone => true
  | .regWrite _ _ _ _ => true
  | .regRead _ _ => true
  | .signerAdd _ _ _ => true
  | .signerRevoke _ _ => true
  | .firmwareStage _ _ _ => true
  | .lifecycleEnrolled _ _ => true
  | .lifecycleDeployed _ => true
  | .lifecycleRetired _ => true
  | .modeSetTest _ => true
  | .modeSetService _ => true
  | .modeSetBanked _ => true
  | .bankedExitDone => true
  | .profileSave _ => true
  | .counterInc _ _ => true
  | .accessSet _ _ _ _ => true
  | .tallyRead _ _ _ _ _ => true
  | .levelSet _ _ _ => true
  | .learnCommit _ => true
  | .patrolScrub cell _ => decide (cell < 2 ^ 27)
  | .coalesceWriteback cell _ => decide (cell < 2 ^ 27)
  | .hbmFault stack cell => cell.val % 32 / 16 == stack.val
  | .hbmHotRefresh _ _ => true
  | .laneLos _ => true
  | .losClear _ => true
  | .cdrLock _ => true
  | .laneLol _ => true
  | .linkTrainingDone _ _ _ _ => true
  | .adaptDone _ _ => true
  | .fecLock _ _ => true
  | .fecAlignLoss _ => true
  | .laneTrainFail _ => true
  | .trainRetry _ => true
  | .lineQualityWindow _ _ _ _ _ hist => decide (hist.length ≤ 15)
  | .rtcWriteback => true
  | .timeHoldover => true
  | .queueSample => true
  | .hello _ _ _ _ _ => true
  | .helloTimer => true
  | .heartbeat h _ _ => hdrFits h
  | .heartbeatTimer => true
  | .peerSilent => true
  | .roleYield _ => true
  | .yieldComplete => true
  | .yieldMsg h _ => hdrFits h
  | .takeover h => hdrFits h
  | .roleInFiltered _ => true
  | .startWaitExpire => true
  | .doutUpdate h _ => hdrFits h
  | .doutRelease => true
  | .imageDelta h _ item => hdrFits h && itemFits item
  | .resyncReq h => hdrFits h
  | .resyncData h item => hdrFits h && itemFits item
  | .resyncDone h _ => hdrFits h
  | .xcData h frames _ _ => hdrFits h && frames.all (fun f => frameFits f.data)
  | .xcDataClose => true
  | .elimReset _ => true
  | .dinChange _ _ => true
  | .shaftHello _ _ _ _ => true
  | .acceptMsg seq _ _ _ => decide (seq < 2 ^ 64)
  | .statusMsg _ seq _ _ => decide (seq < 2 ^ 64)
  | .statusTimer => true
  | .hewerLost _ => true
  | .overmanLost => true
  | .blob seq _ entries => decide (seq < 2 ^ 64) && decide (1 ≤ entries.length) && decide (entries.length ≤ 64) && entries.all (fun e => decide (e.handle < 2 ^ 20))
  | .blobAck _ seq _ _ => decide (seq < 2 ^ 64)
  | .supplyGlitch _ _ => true
  | .islandPowerOff _ => true
  | .supplyReset _ => true
  | .supplyWarning _ => true
  | .cautionExit minMv => decide (minMv < 2 ^ 16)
  | .cautionLong => true
  | .clockFault _ => true
  | .clockGlitch => true
  | .tempWarn _ => true
  | .tempHigh _ => true
  | .tempLow _ => true
  | .shieldBreak => true
  | .tamperLoop _ => true
  | .shadowSweep bad => bad.all shadowFits
  | .foremanLockstep => true
  | .vbatLow => true
  | .rtcStop => true
  | .pkeKat _ => true
  | .alarmWindowEnd => true
  | .squelchEnd => true
  | .tmpAlarmClear _ => true
  | .tallyRefill _ => true
  | .lampSupplySwitch _ => true
  | .lampMonitorTrigger _ => true
  | .lampLoopPoll _ => true
  | .vbatRootErase => true
  | .powerOnReset _ => true
  | .sequencingFault => true
  | .resetNAssert _ _ => true
  | .watchdog => true
  | .startup _ => true
  | .perstN _ => true
  | .flr _ => true
  | .flrComplete _ => true
  | .tokenWrite _ k _ _ => decide (k < 0x4000)
  | .landingWrite fn off data _ _ => landingFits fn.val off data.length
  | .landingRead fn off len _ _ => landingFits fn.val off len
  | .transmitRingDoorbell _ _ => true
  | .transmitEntryRead _ _ => true
  | .freeRingDoorbell _ _ => true
  | .irqModerationExpire _ _ => true
  | .msixUnmask _ _ => true
  | .ideFail _ => true
  | .query _ => true
  | .keyProg _ _ _ _ => true
  | .kSetGo _ _ _ => true
  | .kSetStop _ _ _ => true
  | .getVersion => true
  | .getCapabilities _ => true
  | .negotiateAlgorithms _ _ _ _ => true
  | .getDigests => true
  | .getCertificate _ _ _ => true
  | .challenge _ _ => true
  | .getMeasurements _ _ _ => true
  | .keyExchange _ exch _ _ => exch.length == 96
  | .finish _ mac => mac.length == 48
  | .spdmHeartbeat _ => true
  | .keyUpdate _ _ => true
  | .endSession _ => true
  | .setdasa _ _ => true
  | .entdaa _ => true
  | .setnewda _ => true
  | .rstdaa => true
  | .getpid => true
  | .getbcr => true
  | .getdcr => true
  | .getstatus => true
  | .getmrl => true
  | .i3cPrivateWrite _ => true
  | .i3cPrivateRead len => decide (1 ≤ len) && decide (len ≤ 64)
  | .idcode => true
  | .bypass => true
  | .tapInstruction _ => true
  | .lowWaterRead => true
  | .qsampleMaxRead _ => true
  | .mergeDiffMaxRead _ => true
  | .railTempMaxRead _ _ => true
  | .hostRegisterWrite fn bar0 off _ _ => off % 8 == 0 && decide (off < (if bar0 then 0x1000000 else 0x10000)) && (!bar0 || fn.val == 0)
  | .screenTimeout _ => true
  | .ptpDepartureInstant _ _ => true
  | .telemetryUpdate m => decide (m.mv.length ≤ 9) && decide (m.temp.length ≤ 17) && decide (m.mw.length ≤ 80)
  | .poisonCleared _ => true
  | .pcieLinkUp rate width => decide (1 ≤ rate.val) && decide (rate.val ≤ 6) && [1, 2, 4, 8].contains width.val

end Sys2Proof
end

