-- ==== Sys2Proof/Safety.lean ====
section
/-! DEFINITION. The terms the statements about the block are made in: when a command completes, what a frame is, what recording an event leaves, when an order is done, and which states the invariants allow. -/
namespace Sys2Proof.Machine

/-! Completion -/

/-- The command answers a next state that has a property. -/
def Completes (c : Instr) (s : State) (P : State → Prop) : Prop := ∃ t, exec c s = .next t ∧ P t

/-- The command answers the state it was given: nothing changes. -/
def Idles (c : Instr) (s : State) : Prop := exec c s = .next s

/-! Invariants -/

/-- What every step keeps: the stored bytes in canonical form, and only well-formed commands in the queue. -/
def Inv (s : State) : Prop := Memory.wf s.mem.bytes = true ∧ ∀ c ∈ s.pending, c.wf = true

/-! Frames -/

/-- Every register but those listed reads as before. -/
def RegsBut (l : List Nat) (s t : State) : Prop := ∀ off, off ∉ l → t.reg off = s.reg off

/-- The counters of the tally and their HALF_PENDING word: the only registers that recording an event may change. -/
def tallyRegs : List Nat := [Reg.TLY_CNT_APPENDED, Reg.TLY_CNT_RING_DISCARD, Reg.TLY_CNT_SUPPRESSED, 0xEF0100]

/-- The words of the PF's user page that an interrupt without moderation may change. -/
def irqWords : List Nat := [pgCause, pgPba]

/-- What an interrupt of the PF may change: its cause and pending words, and messages sent. -/
def Signalled (s t : State) : Prop :=
  t = { s with page := t.page, out := t.out } ∧ (∀ k, k ∉ irqWords → tget pageReset t.page k = tget pageReset s.page k) ∧ ∃ l, t.out = l ++ s.out

/-- What recording events may change, and nothing else: the tally's areas, counters and wear, the rate limits, and what the PF's interrupt changes. -/
def Logged (s t : State) : Prop :=
  t = { s with
    regs := t.regs, page := t.page, out := t.out
    guard := { s.guard with buckets := t.guard.buckets, suppressed := t.guard.suppressed }
    attic := { s.attic with
      evid := t.attic.evid, ring := t.attic.ring, nextSeq := t.attic.nextSeq, evidLost := t.attic.evidLost
      wear := t.attic.wear, spares := t.attic.spares, readonly := t.attic.readonly } } ∧
  RegsBut tallyRegs s t ∧
  (∀ k, k ∉ irqWords → tget pageReset t.page k = tget pageReset s.page k) ∧
  ∃ l, t.out = l ++ s.out

/-! Counts -/

/-- The word that holds the HALF_PENDING bit of the counter at an offset (R312). -/
def halfWord (off : Nat) : Nat := off / 0x100000 * 0x100000 + 0xF0000 + 8 * ((off - off / 0x100000 * 0x100000) / 8 / 64)

/-- What adding n to a counter changes, and nothing else: the counter, and at half its range its HALF_PENDING bit and the PF's interrupt. -/
def Counted (off n : Nat) (s t : State) : Prop :=
  t = { s with regs := t.regs, page := t.page, out := t.out } ∧
  RegsBut [off, halfWord off] s t ∧
  t.reg off = BitVec.ofNat 64 (count40 (s.reg off).toNat n) ∧
  (∀ k, k ∉ irqWords → tget pageReset t.page k = tget pageReset s.page k) ∧
  ∃ l, t.out = l ++ s.out

/-! Records -/

/-- The tally has a token for a record of a code, a place for it, and one more for the record of a remap its write may lead to (R433 to R435, R459). -/
def takes (code : Nat) (s : State) : Bool :=
  (exempt code || tokens s code != 0) && !atticRO s 1 &&
  (if (evInfo code).2 then decide (s.attic.evid.length < 16384) else decide (s.attic.ring.length < 65535))

/-- The tally holds a record with a code, its data and the next SEQ of the state before (R431). -/
def Recorded (code : Nat) (vals : List Nat) (s t : State) : Prop :=
  ∃ r, (r ∈ t.attic.evid ∨ r ∈ t.attic.ring) ∧ r.code = code ∧ r.seq = s.attic.nextSeq ∧ r.data = evData vals ∧ r.valid = true

/-! Monitors -/

/-- What a monitor that fires at level 0 or 1 leaves (R420, R421, Table 16.3): its number and count, its record, the level in force, at level 1 the latch, and nothing else but the collection window and the tally. -/
def Warned (m : Nat) (vals : List Nat) (s t : State) : Prop :=
  t.fld Reg.TMP_STATUS Fd.TMP_STATUS_LAST_MONITOR = m ∧
  levelInForce t = max (effective s m) (levelInForce s) ∧
  (effective s m = 1 → t.flag Reg.TMP_ALARM Fd.TMP_ALARM_L1 = true) ∧
  t.reg Reg.TMP_CNT_TRIGGER = BitVec.ofNat 64 (count40 (s.reg Reg.TMP_CNT_TRIGGER).toNat 1) ∧
  Recorded (monCode m) vals s t ∧
  RegsBut ([Reg.TMP_STATUS, Reg.TMP_ALARM, Reg.TMP_CNT_TRIGGER, halfWord Reg.TMP_CNT_TRIGGER] ++ tallyRegs) s t ∧
  t = { s with
    regs := t.regs, page := t.page, out := t.out
    guard := { s.guard with buckets := t.guard.buckets, suppressed := t.guard.suppressed, win := t.guard.win }
    attic := { s.attic with
      evid := t.attic.evid, ring := t.attic.ring, nextSeq := t.attic.nextSeq, evidLost := t.attic.evidLost
      wear := t.attic.wear, spares := t.attic.spares, readonly := t.attic.readonly } }

/-! Events -/

/-- An event is raised on s and leaves t: what recording changes, and its record where the tally takes it. -/
def Raised (code : Nat) (vals : List Nat) (s t : State) : Prop := Logged s t ∧ (takes code s = true → Recorded code vals s t)

/-! Bundles (chapter 06) -/

/-- Slot B of a bundle with NOP in it. -/
def slotNop : SlotB := ⟨0, .nop⟩

/-- The thread may issue, its next bundle lies within its code, and the guard of slot A is true. -/
def Ready (who : Thr) (gd : Prd) (c : Ctx) (s : State) : Prop := ctxOf who s = some c ∧ beyond c = false ∧ c.h.p gd.val = true

/-- A thread after it has issued a bundle. -/
def stepped (h : Thread) : Thread := { h with pc := h.pc + 1, steps := min (h.steps + 1) 0xFFFF }

/-- The bundle wrote one register: g0 discards the value, every other register and all else of the thread but its place and its count of bundles stay, and nothing outside the thread changes. -/
def WroteReg (c : Ctx) (rd : Reg) (v : W64) (s t : State) : Prop :=
  ∃ h, t = setThread c.who (stepped h) s ∧ h = { c.h with regs := h.regs } ∧ ∀ r : Reg, h.g r.val = if r = rd ∧ r ≠ 0 then v else c.h.g r.val

/-- The bundle wrote a predicate and its complement; p0 discards what is written to it. -/
def WrotePreds (c : Ctx) (pt pf : Prd) (v : Bool) (s t : State) : Prop :=
  ∃ h, t = setThread c.who (stepped h) s ∧ h = { c.h with preds := h.preds } ∧
    ∀ p : Prd, h.p p.val = if p = 0 then true else if p = pt then v else if p = pf then !v else c.h.p p.val

/-- The thread after a fault of one of its bundles: FCODE, FPC and FARG say which (R202). -/
def faulted (c : Ctx) (slot code : Nat) (arg : W64) : Thread :=
  { c.h with fcode := code, fpc := c.h.pc % 8192 + slot * 8192, farg := arg, steps := min (c.h.steps + 1) 0xFFFF }

/-- The fault entry of the image that the thread's item runs. -/
def faultEntry (c : Ctx) (s : State) : Nat := ((c.item.bind (fun it => imageOf s it.epoch)).map (fun im => im.entries.getD 5 0)).getD 0

/-- A bundle faults (R202): in a gallery the thread goes to the fault entry of its image, the fault is counted and reported, and nothing else changes; on the foreman a management program ends with PROGRAM_FAULT, firmware goes on, and only an error of a state word is reported (R198). -/
def Faults (c : Ctx) (slot code : Nat) (arg : W64) (s t : State) : Prop :=
  match c.who with
  | .gal g k =>
      ∃ u, Counted Reg.GAL_CNT_PROG_FAULT 1 (setGalThread g.val k.val { faulted c slot code arg with pc := faultEntry c s } s) u ∧
        Raised Ev.PROG_FAULT [code, c.h.pc % 8192 + slot * 8192, arg.toNat, g.val * 4 + (c.item.map (fun it => it.epoch)).getD 0] u t
  | .fore k => ∃ u, (if code = 0x0D then Raised Ev.PROG_FAULT [code, c.h.pc % 8192 + slot * 8192, arg.toNat, 0x100] s u else u = s) ∧
      foreThread t k.val = (if k = 0 then { faulted c slot code arg with pc := c.h.pc + 1 } else faulted c slot code arg) ∧
      (running t k.val).map (fun r => r.status) = (running s k.val).map (fun r => some (r.status.getD 0x11)) ∧
      (∀ j, j ≠ k.val → foreThread t j = foreThread s j ∧ running t j = running s j) ∧
      t = { u with fore := { s.fore with threads := t.fore.threads, running := t.fore.running } }

/-- What an ALU function leaves in its register (Table 06.8). -/
def AluResult (fn : AluFn) (a b r : W64) : Prop :=
  match fn with
  | .add => r.toNat = (a.toNat + b.toNat) % 2 ^ 64
  | .sub => (r.toNat + b.toNat) % 2 ^ 64 = a.toNat
  | .land => ∀ i, r.getLsbD i = (a.getLsbD i && b.getLsbD i)
  | .lor => ∀ i, r.getLsbD i = (a.getLsbD i || b.getLsbD i)
  | .lxor => ∀ i, r.getLsbD i = (a.getLsbD i != b.getLsbD i)
  | .andn => ∀ i, r.getLsbD i = (a.getLsbD i && !b.getLsbD i)
  | .shl => r.toNat = a.toNat * 2 ^ (b.toNat % 64) % 2 ^ 64
  | .shr => r.toNat = a.toNat / 2 ^ (b.toNat % 64)
  | .sar => r.toInt = a.toInt / 2 ^ (b.toNat % 64)
  | .rol => ∀ i, i < 64 → r.getLsbD ((i + b.toNat) % 64) = a.getLsbD i
  | .mul => r.toNat = a.toNat * b.toNat % 2 ^ 64
  | .mulhu => r.toNat = a.toNat * b.toNat / 2 ^ 64
  | .smin => r.toInt = min a.toInt b.toInt
  | .smax => r.toInt = max a.toInt b.toInt
  | .umin => r.toNat = min a.toNat b.toNat
  | .umax => r.toNat = max a.toNat b.toNat
  | .clz => if a = 0 then r.toNat = 64 else 2 ^ 63 ≤ a.toNat * 2 ^ r.toNat ∧ a.toNat * 2 ^ r.toNat < 2 ^ 64
  | .popc => r.toNat = ((List.range 64).map (fun i => b2n (a.getLsbD i))).sum
  | .bswap => ∀ k, k < 8 → nbits r.toNat (8 * k) 8 = nbits a.toNat (8 * (7 - k)) 8

/-- When a compare condition holds (Table 06.9). -/
def CondTrue (cd : Cond) (a b : W64) : Prop :=
  match cd with
  | .eq => a.toNat = b.toNat
  | .ne => a.toNat ≠ b.toNat
  | .lt => a.toInt < b.toInt
  | .ge => b.toInt ≤ a.toInt
  | .ltu => a.toNat < b.toNat
  | .geu => b.toNat ≤ a.toNat
  | .bs => a.getLsbD (b.toNat % 64) = true
  | .bc => a.getLsbD (b.toNat % 64) = false

/-- The thread, guard and slot B of a command that issues a bundle. -/
def bundleCmd : Instr → Option (Thr × Prd × SlotB)
  | .nop t gd b => some (t, gd, b)
  | .alu t gd _ _ _ _ b => some (t, gd, b)
  | .hash t gd _ _ _ b => some (t, gd, b)
  | .addi t gd _ _ _ b => some (t, gd, b)
  | .andi t gd _ _ _ b => some (t, gd, b)
  | .ori t gd _ _ _ b => some (t, gd, b)
  | .xori t gd _ _ _ b => some (t, gd, b)
  | .shli t gd _ _ _ b => some (t, gd, b)
  | .shri t gd _ _ _ b => some (t, gd, b)
  | .sari t gd _ _ _ b => some (t, gd, b)
  | .ext t gd _ _ _ _ b => some (t, gd, b)
  | .ins t gd _ _ _ _ b => some (t, gd, b)
  | .movi t gd _ _ _ b => some (t, gd, b)
  | .movu t gd _ _ b => some (t, gd, b)
  | .cmp t gd _ _ _ _ _ b => some (t, gd, b)
  | .cmpi t gd _ _ _ _ _ b => some (t, gd, b)
  | .plog t gd _ _ _ _ _ b => some (t, gd, b)
  | .br t gd _ _ b => some (t, gd, b)
  | .jr t gd _ _ b => some (t, gd, b)
  | .wld t gd _ _ _ _ _ _ b => some (t, gd, b)
  | .wst t gd _ _ _ _ b => some (t, gd, b)
  | .wins t gd _ _ _ b => some (t, gd, b)
  | .wdel t gd _ _ _ b => some (t, gd, b)
  | .mfs t gd _ _ b => some (t, gd, b)
  | .mts t gd _ _ b => some (t, gd, b)
  | .lkp t gd _ _ _ _ _ _ b => some (t, gd, b)
  | .mtr t gd _ _ _ b => some (t, gd, b)
  | .cnt t gd _ _ b => some (t, gd, b)
  | .put t gd _ b => some (t, gd, b)
  | .sealEnd t gd b => some (t, gd, b)
  | .openEnd t gd b => some (t, gd, b)
  | .passEnd t gd b => some (t, gd, b)
  | .dropEnd t gd _ _ b => some (t, gd, b)
  | .puntEnd t gd _ b => some (t, gd, b)
  | .ald t gd _ _ _ b => some (t, gd, b)
  | .ast t gd _ _ _ _ b => some (t, gd, b)
  | .aadd t gd _ _ _ _ b => some (t, gd, b)
  | .aand t gd _ _ _ _ b => some (t, gd, b)
  | .aor t gd _ _ _ _ b => some (t, gd, b)
  | .axor t gd _ _ _ _ b => some (t, gd, b)
  | .aswp t gd _ _ _ _ b => some (t, gd, b)
  | .acas t gd _ _ _ _ b => some (t, gd, b)
  | .fence t gd b => some (t, gd, b)
  | .syncYield t gd b => some (t, gd, b)
  | .waitev t gd _ _ b => some (t, gd, b)
  | .ord t gd _ _ _ b => some (t, gd, b)
  | _ => none

/-- The code at the thread's place spells the instruction, slot B included (R171, R182, log entry 41). -/
def Issued (c : Ctx) (i : Instr) : Prop := ∀ x, bundleCmd i = some x → spells c i x.2.2 = true

/-- Where the code spells the instruction, it answers a next state that has a property. -/
def Issues (c : Ctx) (i : Instr) (s : State) (P : State → Prop) : Prop := Issued c i → Completes i s P

/-- A DROP whose reason and subcode an image may hold (R195); every other command. -/
def legalDrop : Instr → Bool
  | .dropEnd _ _ reason sub _ => dropLegal reason.val sub.toNat
  | _ => true

/-- The same operation as an instruction of slot A, with what slot B holds. -/
def inSlotA (who : Thr) (gd : Prd) (op : SOp) (b : SlotB) : Instr :=
  match op with
  | .nop => .nop who gd b
  | .alu fn rd ra rb => .alu who gd fn rd ra rb b
  | .hash rd ra rb => .hash who gd rd ra rb b
  | .addi rd ra imm => .addi who gd rd ra imm b
  | .andi rd ra imm => .andi who gd rd ra imm b
  | .ori rd ra imm => .ori who gd rd ra imm b
  | .xori rd ra imm => .xori who gd rd ra imm b
  | .shli rd ra sh => .shli who gd rd ra sh b
  | .shri rd ra sh => .shri who gd rd ra sh b
  | .sari rd ra sh => .sari who gd rd ra sh b
  | .ext rd ra pos wid1 => .ext who gd rd ra pos wid1 b
  | .ins rd ra pos wid1 => .ins who gd rd ra pos wid1 b
  | .movi rd sx imm => .movi who gd rd sx imm b
  | .movu rd imm => .movu who gd rd imm b
  | .mfs rd sr => .mfs who gd rd sr b
  | .cmp cd ra rb pt pf => .cmp who gd cd ra rb pt pf b
  | .cmpi cd ra imm pt pf => .cmpi who gd cd ra imm pt pf b
  | .plog fn pa pb pt pf => .plog who gd fn pa pb pt pf b

/-- The registers an operation of slot B writes. -/
def sopRegs : SOp → List Reg
  | .alu _ rd _ _ => [rd]
  | .hash rd _ _ => [rd]
  | .addi rd _ _ => [rd]
  | .andi rd _ _ => [rd]
  | .ori rd _ _ => [rd]
  | .xori rd _ _ => [rd]
  | .shli rd _ _ => [rd]
  | .shri rd _ _ => [rd]
  | .sari rd _ _ => [rd]
  | .ext rd _ _ _ => [rd]
  | .ins rd _ _ _ => [rd]
  | .movi rd _ _ => [rd]
  | .movu rd _ => [rd]
  | .mfs rd _ => [rd]
  | .nop => []
  | .cmp _ _ _ _ _ => []
  | .cmpi _ _ _ _ _ => []
  | .plog _ _ _ _ _ => []

/-- The predicates an operation of slot B writes. -/
def sopPreds : SOp → List Prd
  | .cmp _ _ _ pt pf => [pt, pf]
  | .cmpi _ _ _ pt pf => [pt, pf]
  | .plog _ _ _ pt pf => [pt, pf]
  | _ => []

/-- MFS, which can fault and can draw on a source outside the thread. -/
def readsSpecial : SOp → Bool
  | .mfs _ _ => true
  | _ => false

/-- The item of a gallery thread as its window leaves it (R176). -/
def framedItem (c : Ctx) (it : Item) : Item := { it with data := c.h.win.take c.h.wlen ++ it.data.drop it.loaded }

/-- The state after a bundle whose frame end has left the item it: the thread is free, its registers, predicates and window zero (R146, R175). -/
def ended (c : Ctx) (g : Fin 64) (k : Fin 16) (it : Item) (s : State) : State := setGalThread g.val k.val (clearThread c.h) (setItem it.tag (some it) s)

/-- An atomic: word i of the program state memory takes its new value, every other word stays, and the register of the result takes the old one. -/
def AtomDone (c : Ctx) (rd : Option Reg) (i : Nat) (old new : W64) (s t : State) : Prop :=
  ∃ h m, t = { setThread c.who (stepped h) s with gal := { (setThread c.who (stepped h) s).gal with state := m } } ∧ h = { c.h with regs := h.regs } ∧
    (∀ r : Reg, h.g r.val = if some r = rd ∧ r ≠ 0 then old else c.h.g r.val) ∧ tget w640 m i = new ∧ ∀ j, j ≠ i → tget w640 m j = tget w640 s.gal.state j

/-! Drops and stores -/

/-- A drop is counted against its port and its queue, and nothing else changes: drop notifications are off (R273). -/
def DropCounted (port reason : Nat) (q : Option Nat) (s t : State) : Prop :=
  ∃ u, (if port < noPort then Counted (Reg.WND_CNT_PORT_DROP port reason) 1 s u else u = s) ∧
    (match q with | some q => Counted (queueDropReg q reason) 1 u t | none => t = u)

/-- The counters a write to buffer memory may raise, and their HALF_PENDING word. -/
def memRegs : List Nat :=
  [Reg.MEM_CNT_PARTIAL, Reg.MEM_CNT_COALESCED, Reg.MEM_CNT_NO_KEY, halfWord Reg.MEM_CNT_PARTIAL, halfWord Reg.MEM_CNT_COALESCED, halfWord Reg.MEM_CNT_NO_KEY]

/-- Bytes are written at an address: they read back, every other byte reads as before, and besides the bytes only the side-bands, the coalescing unit and its counters change. -/
def Stored (a : Nat) (b : Bytes) (s t : State) : Prop :=
  memBytes t a b.length = b ∧ (∀ x, x < a ∨ a + b.length ≤ x → tget byte0 t.mem.bytes x = tget byte0 s.mem.bytes x) ∧
  RegsBut memRegs s t ∧
  t = { s with regs := t.regs, page := t.page, out := t.out, mem := { s.mem with bytes := t.mem.bytes, side := t.mem.side, opens := t.mem.opens } }

/-! Orders (chapter 07) -/

/-- The order that a command of Table 07.9 stands for: its code and arguments, with the program of its thread behind it. -/
def ordered (code : Nat) (o : OrdBy) (args : List W64) (s : State) : OrdReq := requestBy code args o s

/-- Nothing stands in an order's way: its thread runs and its program goes on, the state, the access table and the caution state let it through, and the twins' roles neither refuse nor defer it nor send it on to a partner (R200, R219, R221, R360, R375, R408, R418). -/
def Accepted (q : OrdReq) (s : State) : Prop :=
  foreRuns s q.t = true ∧ programReset s q.t = false ∧ stateAllows q s = true ∧ accessDenies q s = none ∧
  (inCaution s = false ∨ heldInCaution q.code = false) ∧ roleRefuses q s = none ∧ resyncDefers q s = false ∧ isActive s = false

/-- The state an accepted order starts from: its program counts it and notes the landing cells it names. -/
def begun (q : OrdReq) (s : State) : State := useCells q.t (orderCells q s) (noteOrder q s)

/-- The state after an order has ended on u: its results and its status have reached the thread that issued it (R200). -/
def orderEnds (q : OrdReq) (status : Nat) (rs : List (Nat × W64)) (u : State) : State := answer q.t q.rd (BitVec.ofNat 64 status) rs u

/-- The state after an order has begun an activity on u: its thread waits for the end (R200). -/
def waiting (q : OrdReq) (u : State) : State := { u with fore := { u.fore with waits := u.fore.waits ++ [q] } }

/-- The order that a command of Table 07.9 issues: its code, who issues it, and its arguments from g16 on. -/
def orderCmd : Instr → Option (Nat × OrdBy × List W64)
  | .laneRetrain o lane => some (0x101, o, [lane])
  | .laneEyeScan o lane cell => some (0x102, o, [lane, cell])
  | .lanePrbs o lane pattern ms => some (0x103, o, [lane, pattern, ms])
  | .portGroup o group grouping => some (0x104, o, [group, grouping])
  | .macCounters o port cell => some (0x105, o, [port, cell])
  | .tribRemap o trib maskLo maskHi => some (0x201, o, [trib, maskLo, maskHi])
  | .epochChange o trunk => some (0x202, o, [trunk])
  | .epochRxSet o trunk epoch => some (0x203, o, [trunk, epoch])
  | .tblAdd o table key result => some (0x301, o, [table, key, result])
  | .tblDelIf o table key stamp => some (0x302, o, [table, key, stamp])
  | .tblDmaWrite o table cell entries => some (0x303, o, [table, cell, entries])
  | .tblCompare o table cell entries repair => some (0x304, o, [table, cell, entries, repair])
  | .tblRead o table index count cell => some (0x305, o, [table, index, count, cell])
  | .progLoad o epoch att => some (0x401, o, [epoch, att])
  | .epochSet o epoch => some (0x402, o, [epoch])
  | .galleryReset o g => some (0x403, o, [g])
  | .stateAccessRead o index words cell => some (0x404, o, [index, words, cell, 0])
  | .stateAccessWrite o index words cell => some (0x404, o, [index, words, cell, 1])
  | .pcntRead o first pairs cell => some (0x405, o, [first, pairs, cell])
  | .assocWrite o assoc cell => some (0x410, o, [assoc, cell])
  | .anInstall o assoc an slot pn lowest ssci saltCell => some (0x411, o, [assoc, an, slot, pn, lowest, ssci, saltCell])
  | .anSelect o assoc sel => some (0x412, o, [assoc, sel])
  | .anRetire o assoc an => some (0x413, o, [assoc, an])
  | .assocRead o assoc cell => some (0x414, o, [assoc, cell])
  | .assocCounters o assoc cell => some (0x415, o, [assoc, cell])
  | .keyInstall o slot cell => some (0x501, o, [slot, cell])
  | .keyGenerate o slot attr => some (0x502, o, [slot, attr])
  | .keyDerive o parent target ctxCell ctxLen attr => some (0x503, o, [parent, target, ctxCell, ctxLen, attr])
  | .keyInvalidate o slot => some (0x504, o, [slot])
  | .keyAttr o slot expiry flags => some (0x505, o, [slot, expiry, flags])
  | .kemPublic o cell => some (0x506, o, [cell])
  | .deepImport o d cell attr => some (0x507, o, [d, cell, attr])
  | .cellarPut o cell blobs => some (0x508, o, [cell, blobs])
  | .cellarDelete o handle => some (0x509, o, [handle])
  | .standingSave o slot index => some (0x50A, o, [slot, index])
  | .standingDelete o index => some (0x50B, o, [index])
  | .mkaDerive o cak cknCell ick kek => some (0x510, o, [cak, cknCell, ick, kek])
  | .mkaSakGen o kek target cell => some (0x511, o, [kek, target, cell])
  | .mkaSakUnwrap o kek target cell => some (0x512, o, [kek, target, cell])
  | .queueCfg o q limits flow sched => some (0x601, o, [q, limits, flow, sched])
  | .meterCfg o meter cir cbs eir ebs => some (0x602, o, [meter, cir, cbs, eir, ebs])
  | .shaperCfg o shaper rate burst => some (0x603, o, [shaper, rate, burst])
  | .gateList o port cell base => some (0x604, o, [port, cell, base])
  | .memKeyChange o index => some (0x605, o, [index])
  | .memScrub o region first count => some (0x606, o, [region, first, count])
  | .dropNotify o fn rate => some (0x607, o, [fn, rate])
  | .gateKeyAdd o keyId cell alg => some (0x701, o, [keyId, cell, alg])
  | .gateKeyRevoke o keyId => some (0x702, o, [keyId])
  | .gateFlow o rule sets rate => some (0x703, o, [rule, sets, rate])
  | .timeSetStep o time => some (0x801, o, [time, 0])
  | .timeSetOffset o offset => some (0x801, o, [offset, 1])
  | .timeSetFrequency o freq => some (0x801, o, [freq, 2])
  | .timeSetHoldover o zero => some (0x801, o, [zero, 3])
  | .sampleCfg o cell period => some (0x802, o, [cell, period])
  | .twinResync o => some (0x901, o, [])
  | .roleMove o target => some (0x902, o, [target])
  | .hewerEnrol o id cell => some (0x903, o, [id, cell])
  | .blobSend o hewers first count => some (0x904, o, [hewers, first, count])
  | .regWrite o off value mask => some (0xA01, o, [off, value, mask])
  | .regRead o off => some (0xA02, o, [off])
  | .signerAdd o keyId cell => some (0xA03, o, [keyId, cell])
  | .signerRevoke o keyId => some (0xA04, o, [keyId])
  | .firmwareStage o cell cells => some (0xA05, o, [cell, cells])
  | .lifecycleEnrolled o cell => some (0xA06, o, [1, cell])
  | .lifecycleDeployed o => some (0xA06, o, [2])
  | .lifecycleRetired o => some (0xA06, o, [3])
  | .modeSetTest o => some (0xA07, o, [1])
  | .modeSetService o => some (0xA07, o, [2])
  | .modeSetBanked o => some (0xA07, o, [3])
  | .profileSave o => some (0xA08, o, [])
  | .counterInc o n => some (0xA09, o, [n])
  | .accessSet o target master perms => some (0xA0A, o, [target, master, perms])
  | .tallyRead o area first records cell => some (0xB01, o, [area, first, records, cell])
  | .levelSet o monitor level => some (0xB02, o, [monitor, level])
  | _ => none

/-! Resets and the lamp room (chapters 16 and 17) -/

/-- What a device reset leaves (R453, R454): Start-up, its cause, rail and mode before it, the straps in force, one more reset counted, every register at its reset value, no key but the identity key, and of the rest only what Table 17.6 keeps. -/
def ResetBy (cause rail pos sel : Nat) (s t : State) : Prop :=
  t.mode = 0 ∧ t.live = true ∧
  t.fld Reg.PWR_RESET_CAUSE Fd.PWR_RESET_CAUSE_CAUSE = cause ∧ t.fld Reg.PWR_RESET_CAUSE Fd.PWR_RESET_CAUSE_RAIL = rail ∧
  t.fld Reg.PWR_RESET_CAUSE Fd.PWR_RESET_CAUSE_PREV_MODE = (if s.mainOn then s.mode else 5) ∧
  t.position = pos ∧ t.fld Reg.TWN_STATUS Fd.TWN_STATUS_ROLE_SEL = sel ∧ (∀ off, off ∉ [Reg.PWR_RESET_CAUSE, Reg.TWN_STATUS] → t.reg off = regReset off) ∧
  t.attic = { s.attic with resets := s.attic.resets + 1 } ∧ t.lamp = s.lamp ∧ t.vault = { Vault.reset with identity := s.vault.identity } ∧
  t.time.now = s.time.now ∧ t.time.up = s.time.up ∧ t.time.freq = 0 ∧
  t = { State.reset with
    variant := s.variant, serial := s.serial, regs := t.regs, time := t.time, lamp := t.lamp, attic := t.attic, vault := t.vault
    out := s.out, draws := s.draws, pending := s.pending }

/-- A record of the lamp room goes to its tail with the room's own time and SEQ, and nothing else changes (R426, R428). -/
def Tailed (code level : Nat) (vals : List Nat) (s t : State) : Prop :=
  ∃ r, t = { s with lamp := { s.lamp with tail := s.lamp.tail ++ [r], tailSeq := s.lamp.tailSeq + 1 } } ∧
    r.code = code ∧ r.level = level ∧ r.time = s.lamp.rtc ∧ r.data = evData vals ∧ r.srcKind = 3 ∧ r.seq = s.lamp.tailSeq % 65536 ∧ r.valid = true

/-! The host (chapter 15) -/

/-- What adding n to a counter of a user page changes, and nothing else: the word, and at half its range its HALF_PENDING bit and the PF's interrupt (R414). -/
def PgCounted (fn off n : Nat) (s t : State) : Prop :=
  t.pg fn off = BitVec.ofNat 64 (count40 (s.pg fn off).toNat n) ∧
  (∀ k, k ≠ fn * 0x10000 + off → k ∉ irqWords → tget pageReset t.page k = tget pageReset s.page k) ∧
  RegsBut [halfWord (0x80000 + 0x100 * fn + off)] s t ∧ t = { s with regs := t.regs, page := t.page, out := t.out } ∧ ∃ l, t.out = l ++ s.out

/-- An access violation by a PCI Express request (R411): counted, recorded, and vector 5 of the function signalled. -/
def Violated (fn target off : Nat) (s t : State) : Prop :=
  ∃ u v, Counted Reg.HST_CNT_ACCESS_VIOL 1 s u ∧ Raised Ev.ACCESS_VIOLATION [fn, target, off] u v ∧ t = irq fn 5 v

/-- A token fault of a function (R393, R394): counted in its page, recorded, and its vector 5 signalled. -/
def TokenFaulted (fn cell : Nat) (s t : State) : Prop :=
  ∃ u v, PgCounted fn pgTokenFault 1 s u ∧ Raised Ev.TOKEN_FAULT [fn, fn, 0x15, cell] u v ∧ t = irq fn 5 v

/-- A transmit entry is done with (R398): the consumer index has moved past it, the function's cells it names are handed back, vector 2's cause is set, and no other token changes. -/
def TxMoved (fn h first len : Nat) (s t : State) : Prop :=
  t.pgFld fn pgTxDb RF.TX_HEAD = (h + 1) % 256 ∧ t.pgFld fn pgTxDb RF.TX_TAIL = s.pgFld fn pgTxDb RF.TX_TAIL ∧ nbit (t.pg fn pgCause).toNat 2 = true ∧
  ∀ c, tokenOf t c = if (cellsFrom first len).contains c && ownsCell s fn c && tokenOf s c == 1 then 0 else tokenOf s c

/-! SPDM (chapter 15) -/

/-- The requests of SPDM. -/
def spdmCmd : Instr → Bool
  | .getVersion => true
  | .getCapabilities _ => true
  | .negotiateAlgorithms _ _ _ _ => true
  | .getDigests => true
  | .getCertificate _ _ _ => true
  | .challenge _ _ => true
  | .getMeasurements _ _ _ => true
  | .keyExchange _ _ _ _ => true
  | .finish _ _ => true
  | .spdmHeartbeat _ => true
  | .keyUpdate _ _ => true
  | .endSession _ => true
  | _ => false

/-- The requests that need the identity key: signatures and sessions (R407). -/
def needsKey : Instr → Bool
  | .challenge _ _ => true
  | .getMeasurements _ signed _ => signed
  | .keyExchange _ _ _ _ => true
  | .finish _ _ => true
  | .spdmHeartbeat _ => true
  | .keyUpdate _ _ => true
  | .endSession _ => true
  | _ => false

/-- The request is answered with an SPDM ERROR, and nothing else changes. -/
def SpdmErr (err : Nat) (s t : State) : Prop := t = s.emit (.doe (spdmHead s 0x7F err 0))

/-- A message is sent, and the request and it are kept in the transcript. -/
def Said (req rsp : Bytes) (s t : State) : Prop :=
  t.out = .doe rsp :: s.out ∧ t.host.transcript = s.host.transcript ++ req ++ rsp ∧ t = { s with out := t.out, host := t.host }

/-! Lanes (chapter 11) -/

/-- A lane begins its bring-up (R302, R318): with a signal the CDR row, without it IDLE; no lock, the lane configuration as it now stands, its bound running; every other lane and register stays. -/
def BringUp (L : Nat) (s t : State) : Prop :=
  laneState t L = (if laneF s L Fd.LAN_LANE_STATUS_SIGNAL = 1 then 2 else 1) ∧
  laneF t L Fd.LAN_LANE_STATUS_SIGNAL = laneF s L Fd.LAN_LANE_STATUS_SIGNAL ∧ laneF t L Fd.LAN_LANE_STATUS_CDR_LOCK = 0 ∧ laneF t L Fd.LAN_LANE_STATUS_FEC_LOCK = 0 ∧
  laneRun t L = { laneRun s L with at_ := some s.time.up, cfg := s.reg (Reg.LAN_LANE_CFG L), kept := false } ∧ (∀ M, M ≠ L → laneRun t M = laneRun s M) ∧
  RegsBut [Reg.LAN_LANE_STATUS L] s t ∧ t = { s with regs := t.regs, lanes := t.lanes }

/-- The equaliser of a lane is set and its FEC alignment begins (R302, Table 11.3): the precoding agreed, its bound running. -/
def Aligning (L : Nat) (txPre rxPre : Bool) (s t : State) : Prop :=
  laneState t L = 5 ∧
  laneF t L Fd.LAN_LANE_STATUS_TX_PRECODING = precode (fget (laneRun s L).cfg Fd.LAN_LANE_CFG_TX_PRECODE) txPre % 2 ∧
  laneF t L Fd.LAN_LANE_STATUS_RX_PRECODING = precode (fget (laneRun s L).cfg Fd.LAN_LANE_CFG_RX_PRECODE) rxPre % 2 ∧
  laneRun t L = { laneRun s L with at_ := some s.time.up, txPre := txPre, rxPre := rxPre } ∧ (∀ M, M ≠ L → laneRun t M = laneRun s M) ∧
  RegsBut [Reg.LAN_LANE_STATUS L] s t ∧ t = { s with regs := t.regs, lanes := t.lanes }

/-! Egress (chapter 09) -/

/-- The head frame of a class of an egress that no gate, shaper, pause or departure holds back, stored in SRAM, with no residence time to write, and first in the order of Table 09.2: class 7, class 6 with class 7 empty, or a DWRR class whose turn it is, whose deficit covers it and above which every class is empty. -/
def FirstToGo (e c : Nat) (f : QFrame) (s : State) : Prop :=
  (egressAt s e).list = none ∧ headFrame s (queueAt e c) = some f ∧ (queueOf s (queueAt e c)).pausedUntil = none ∧ f.ptpAt = none ∧ departures s e = [] ∧
  (shaperOf s (queueAt e c)).rate = 0 ∧ (shaperOf s (1024 + e)).rate = 0 ∧ f.hbm = false ∧ f.tsKind = 0 ∧ c < 8 ∧ c ≠ 5 ∧ c ≠ 4 ∧
  (∀ k, c < k → k < 8 → (queueOf s (queueAt e k)).frames = []) ∧
  (c < 4 → (egressAt s e).round = c ∧ lineBytes e f.data.length ≤ (queueOf s (queueAt e c)).deficit)

/-- A frame has left the head of its queue and is counted as served: the other queues stay, and a DWRR class is charged the bytes (R260, Table 09.11). -/
def Served (e c : Nat) (f : QFrame) (s t : State) : Prop :=
  (queueOf t (queueAt e c)).frames = (queueOf s (queueAt e c)).frames.tail ∧
  (queueOf t (queueAt e c)).deficit =
    (if (queueOf s (queueAt e c)).frames.tail = [] then 0 else (queueOf s (queueAt e c)).deficit - if c < 4 then lineBytes e f.data.length else 0) ∧
  (∀ q, q ≠ queueAt e c → queueOf t q = queueOf s q) ∧
  t.reg (Reg.Q_CNT_TX_FRAMES (queueAt e c)) = BitVec.ofNat 64 (count40 (s.reg (Reg.Q_CNT_TX_FRAMES (queueAt e c))).toNat 1) ∧
  t.reg (Reg.Q_CNT_TX_BYTES (queueAt e c)) = BitVec.ofNat 64 (count40 (s.reg (Reg.Q_CNT_TX_BYTES (queueAt e c))).toNat f.data.length)

/-! The crosscut (chapter 14) -/

/-- The MAC counters that a frame sent over the crosscut (64) or the shaft (65) may raise, and their HALF_PENDING words. -/
def macTxRegs (p : Nat) : List Nat :=
  let l := [Reg.MAC_CNT_TX_FRAMES_OK p, Reg.MAC_CNT_TX_OCTETS_OK p, Reg.MAC_CNT_TX_UCAST p, Reg.MAC_CNT_TX_MCAST p, Reg.MAC_CNT_TX_BCAST p] ++ (List.range 10).map (Reg.MAC_CNT_TX_SIZE p)
  l ++ l.map halfWord

/-- A frame leaves by the crosscut (64) or the shaft (65): its port's MAC counts it, padded to 64 bytes and with its FCS (R312), and nothing else changes. -/
def FrameSent (p : Nat) (o : Out) (bytes : Nat) (s t : State) : Prop :=
  t.reg (Reg.MAC_CNT_TX_FRAMES_OK p) = BitVec.ofNat 64 (count40 (s.reg (Reg.MAC_CNT_TX_FRAMES_OK p)).toNat 1) ∧
  t.reg (Reg.MAC_CNT_TX_OCTETS_OK p) = BitVec.ofNat 64 (count40 (s.reg (Reg.MAC_CNT_TX_OCTETS_OK p)).toNat (max 64 (bytes + 4))) ∧
  RegsBut (macTxRegs p) s t ∧ (∀ k, k ∉ irqWords → tget pageReset t.page k = tget pageReset s.page k) ∧ (∃ l, t.out = l ++ o :: s.out) ∧
  t = { s with regs := t.regs, page := t.page, out := t.out }

/-- A sealed message of a kind goes to the partner where a session key is held, under the next SEQ (R365); else nothing. -/
def XcSent (kind : Nat) (s t : State) : Prop :=
  if s.twin.link.up = true ∧ keyed s s.twin.link = true then
    ∃ frame, FrameSent 64 (.xc kind frame) frame.length { s with twin := { s.twin with link := { s.twin.link with tx := s.twin.link.tx + 1 } } } t
  else t = s

/-- The MAC counters that a message received over the crosscut (64) or the shaft (65) may raise, and their HALF_PENDING words. -/
def macRxRegs (p : Nat) : List Nat :=
  let l := [Reg.MAC_CNT_RX_FRAMES_OK p, Reg.MAC_CNT_RX_OCTETS_OK p, Reg.MAC_CNT_RX_UCAST p] ++ (List.range 10).map (Reg.MAC_CNT_RX_SIZE p)
  l ++ l.map halfWord

/-- After its effect a message of n bytes without FCS that came over the crosscut (64) or the shaft (65) is counted by its MAC, if the port was up before (R312); nothing else changes. -/
def FrameCame (p n : Nat) (before s t : State) : Prop :=
  if before.live = true ∧ portUp before p = true then
    t.reg (Reg.MAC_CNT_RX_FRAMES_OK p) = BitVec.ofNat 64 (count40 (s.reg (Reg.MAC_CNT_RX_FRAMES_OK p)).toNat 1) ∧
    t.reg (Reg.MAC_CNT_RX_OCTETS_OK p) = BitVec.ofNat 64 (count40 (s.reg (Reg.MAC_CNT_RX_OCTETS_OK p)).toNat (max 64 (n + 4))) ∧
    RegsBut (macRxRegs p) s t ∧ (∀ k, k ∉ irqWords → tget pageReset t.page k = tget pageReset s.page k) ∧ (∃ l, t.out = l ++ s.out) ∧
    t = { s with regs := t.regs, page := t.page, out := t.out }
  else t = s

/-- A message of n bytes without FCS comes over the crosscut (64) or the shaft (65): it has its effect, and while its port was up its MAC counts it, whatever became of it. -/
def Met (p n : Nat) (c : Instr) (s : State) (P : State → Prop) : Prop := Completes c s (fun t => ∃ u, P u ∧ FrameCame p n s u t)

/-- The payload bytes of a crosscut message that only a session that is up takes (Table 14.5). -/
def xcPayload : Instr → Nat
  | .yieldMsg _ _ => 1
  | .doutUpdate _ _ => 1
  | .imageDelta _ _ i => 8 + itemLen i
  | .resyncData _ i => itemLen i
  | .xcData _ fs _ _ => (fs.map (fun f => 8 + f.data.length)).sum
  | _ => 0

/-- A sealed crosscut message comes (R365): its effect, counted by the MAC of the crosscut. -/
def XcMet (c : Instr) (s : State) (P : State → Prop) : Prop := Met 64 (54 + xcPayload c) c s P

/-- The header of a crosscut message that only a session that is up takes: every one but HELLO and HEARTBEAT. -/
def xcCmd : Instr → Option XcHdr
  | .yieldMsg h _ => some h
  | .takeover h => some h
  | .doutUpdate h _ => some h
  | .imageDelta h _ _ => some h
  | .resyncReq h => some h
  | .resyncData h _ => some h
  | .resyncDone h _ => some h
  | .xcData h _ _ _ => some h
  | _ => none

/-- A sealed crosscut message is good: a session key, a good tag, a SEQ above the last, the other position (R365, R368). -/
def Fresh (h : XcHdr) (s : State) : Prop := keyed s s.twin.link = true ∧ h.auth = true ∧ s.twin.link.rx < h.seq ∧ b2n h.pos ≠ s.position

/-- The part holds what the header of a good message says: its SEQ, and CLAIM, SYNCED and ROLE_EPOCH of the partner. -/
def heard (h : XcHdr) (s : State) : State :=
  { s with twin := { s.twin with link := { s.twin.link with rx := h.seq }, peerClaim := h.claim, peerSynced := h.synced, peerEpoch := h.epoch % 2 ^ 32, ownPos := false } }

/-! Time (chapter 13) -/

/-- LOCKED has ended (R269, R345): part time is in holdover from now on, every list runs with guard bands, and a list that was stale is so again only where it had not resumed; besides these only what recording the events changes. -/
def HeldOver (s t : State) : Prop :=
  ∃ w, Logged w t ∧ w.fld Reg.TIM_STATUS Fd.TIM_STATUS_STATE = 2 ∧ w.time = { s.time with holdAt := s.time.up } ∧ RegsBut [Reg.TIM_STATUS] s w ∧
    (∀ e, egressAt w e = (match (egressAt s e).list with
      | some _ => { egressAt s e with resumeAt := none, stale := (egressAt s e).stale && (match (egressAt s e).resumeAt with | some r => decide (s.time.now < r) | none => false) }
      | none => egressAt s e)) ∧
    w = { s with regs := w.regs, time := w.time, wnd := { s.wnd with egress := w.wnd.egress } }

/-! Association records (chapter 02) -/

/-- Association records change and go to buffer memory; besides them only the coalescing unit and its counters change (R284). -/
def RecordsStored (s t : State) : Prop :=
  RegsBut memRegs s t ∧
  t = { s with assoc := t.assoc, regs := t.regs, page := t.page, out := t.out, mem := { s.mem with side := t.mem.side, opens := t.mem.opens } }

/-- Every record but one stays. -/
def RecordBut (a : Nat) (s t : State) : Prop := ∀ b, b ≠ a → arec t b = arec s b

/-! Key slots (chapter 04) -/

/-- Every traffic slot but one stays. -/
def SlotBut (n : Nat) (s t : State) : Prop := ∀ m, m ≠ n → slotOf t m = slotOf s m
/-- Every deep slot but one stays. -/
def DeepBut (d : Nat) (s t : State) : Prop := ∀ e, e ≠ d → deepOf t e = deepOf s e

/-- A traffic slot loses its key (R119, R127, R129): VALID 0 and a new GEN in one step, its cause, the key zeroed unless something has fetched it, a sweep of its children where it could have any. -/
def Invalidated (n cause : Nat) (s t : State) : Prop :=
  (slotOf t n).valid = false ∧ (slotOf t n).g0 TS.CAUSE = cause ∧ (slotOf t n).g0 TS.ORPHAN = 0 ∧ (slotOf t n).g1 TS.GEN = ((slotOf s n).g1 TS.GEN + 1) % 2 ^ 16 ∧
  (slotOf t n).key = (if inUse s n = false ∨ cause = 4 then 0 else (slotOf s n).key) ∧ (slotOf t n).uses = (slotOf s n).uses ∧ slotWhole t n = true ∧ SlotBut n s t ∧
  t.vault.sweeps = s.vault.sweeps ++ (if (slotOf s n).parentLike then [⟨false, n, (slotOf s n).g1 TS.GEN, 0⟩] else []) ∧
  t = { s with vault := { s.vault with slots := t.vault.slots, sweeps := t.vault.sweeps } }

/-- A key lies in a traffic slot that held none (R115, R484): its bytes, attribute bits, expiry and origin, the generation as it was, a good check word; nothing else changes. -/
def KeyWritten (n : Nat) (key : Bytes) (attr expiry : Nat) (src : Option KeyFrom) (blob : Option Nat) (s t : State) : Prop :=
  (slotOf t n).valid = true ∧ (slotOf t n).key = keyOf key ∧ nbits (slotOf t n).w0.toNat 6 16 = nbits attr 6 16 ∧ (slotOf t n).g2 TS.EXPIRY = expiry % 2 ^ 32 ∧
  (slotOf t n).g1 TS.GEN = (slotOf s n).g1 TS.GEN ∧ (slotOf t n).uses = 0 ∧ fget (slotAttr t n (slotOf t n)) TS.PINNED = b2n (decide (n < pinTop s)) ∧
  (match src with
   | some p => (slotOf t n).g1 TS.HAS_PARENT = 1 ∧ (slotOf t n).g1 TS.PARENT_DEEP = b2n p.deep ∧ (slotOf t n).g1 TS.PARENT_SLOT = p.slot ∧ (slotOf t n).g1 TS.PARENT_GEN = p.gen ∧
       (slotOf t n).g0 TS.WOP = p.wop
   | none => (slotOf t n).g1 TS.HAS_PARENT = 0) ∧
  (match blob with
   | some h => (slotOf t n).g2 TS.HANDLE_VALID = 1 ∧ (slotOf t n).g2 TS.HANDLE = h
   | none => (slotOf t n).g2 TS.HANDLE_VALID = 0) ∧
  slotWhole t n = true ∧ SlotBut n s t ∧ t = { s with vault := { s.vault with slots := t.vault.slots } }

/-- A pinned slot that an order may write: nobody claims it, nothing uses it, and it holds no key. -/
def SlotOpen (n : Nat) (s : State) : Prop := n < pinTop s ∧ n < 16384 ∧ claimOn s (.slot n) = none ∧ inUse s n = false ∧ (slotOf s n).valid = false

/-- A fetch of a deep slot's key finds its check word right (R116). -/
def DeepGood (d : Nat) (s : State) : Prop := dBit s d 0 = true → deepWhole s d = true

/-- A write to the attic's region 3 goes through: the region takes writes and the block needs no spare (R459). -/
def AtticTakes (block : Nat) (s : State) : Prop := atticRO s 3 = false ∧ (wearStep 3 block s).2 = none

/-- One write to an attic block wears it (R459). -/
def Worn (s t : State) : Prop := t = { s with attic := { s.attic with wear := t.attic.wear, spares := t.attic.spares, readonly := t.attic.readonly } }

end Sys2Proof.Machine
end

