-- ==== Sys2Proof/Certificates/Slice0/Obligations.lean ====
section
/-! DEFINITION. The statements about the block, family by family. Each `Completes c s P` says that command c on state s answers a next state with property P; the frame of a command stands in P as the state it started from with the changed parts replaced. -/
open Sys2Proof Sys2Proof.Machine

/-! ## The block as a whole -/

/-- A step runs the command at the front of the queue with the rest behind it (log entry 1). With an empty queue 8 ns pass (log entry 2): the lamp room's clock runs in every mode, part time and the free-running clock while main supplies are up, and nothing else changes in a part that is not one of a pair of twins and in which no re-key walk and no rest of a sealed item is under way. -/
def Obligations.StepAndTick : Prop :=
  (∀ (c : Instr) (s : State) (rest : List Instr), s.pending = c :: rest → step s = exec c { s with pending := rest }) ∧
  (∀ s : State, s.pending = [] →
      (twinOn s = false → s.mem.walks = [] → (∀ e ∈ s.gal.ctxs, ∀ slot u, e.2.work ≠ some (.rest slot u)) → step s = .next (if s.mainOn then { s with time := s.time.tick, lamp := s.lamp.tick } else { s with lamp := s.lamp.tick })) ∧
      s.time.tick.up = s.time.up + 8 ∧
      (s.time.freq = 0 ∧ s.time.slew = 0 ∧ s.time.frac < fracUnit ∧ s.time.now + 8 < 2 ^ 64 → s.time.tick.now = s.time.now + 8) ∧
      (s.lamp.rtcRun = false → s.lamp.tick = s.lamp))

/-- At reset every register reads the reset word of its table (R391), the part is in Start-up with no squelch and no alarm, no key slot is valid, no landing cell is handed over, no order is claimed and no command waits. At reset the bytes of buffer memory are in canonical form and the queue holds only well-formed commands. -/
def Obligations.ResetLeaves : Prop :=
  ((∀ off, off ≠ Reg.PWR_RESET_CAUSE → State.reset.reg off = regReset off) ∧
    State.reset.mode = 0 ∧ State.reset.live = true ∧ squelched State.reset = false ∧ levelInForce State.reset = 0 ∧
    (∀ n, (slotOf State.reset n).valid = false) ∧ (∀ c, tokenOf State.reset c = 0) ∧ (∀ r, claimOn State.reset r = none) ∧
    (∀ a i, i < 4 → ((arec State.reset a).an i).valid = false) ∧ State.reset.pending = []) ∧
  (Inv State.reset)

/-! ## The guard and the lamp room (chapters 16 and 17) -/

/-- A monitor whose effective level is 0 or 1 and whose record the tally takes is recorded under its own code, counted, named in TMP_STATUS, and at L1 latches the alarm; nothing else changes but the collection window and what recording changes (R419 to R421, Table 16.3). CAUTION_LONG, RTC_STOP and PKE_KAT first note their own cause. -/
def Obligations.MonitorWarns : Prop :=
  ∀ s : State, s.live = true →
    (∀ (r : Fin 9) (ns : Nat), 2 ≤ ns → ns < 1000 → (r.val ≠ 8 ∨ s.lamp.onVbat = true) → takes (monCode 2) s = true → effective s 2 ≤ 1 →
      Completes (.supplyGlitch r ns) s (Warned 2 [r.val, ns] s)) ∧
    (∀ k : Fin 4, takes (monCode 3) s = true → effective s 3 ≤ 1 → Completes (.clockFault k) s (Warned 3 [k.val] s)) ∧
    (takes (monCode 4) s = true → effective s 4 ≤ 1 → Completes .clockGlitch s (Warned 4 [] s)) ∧
    (∀ k : Fin 16, takes (monCode 5) s = true → effective s 5 ≤ 1 → Completes (.tempWarn k) s (Warned 5 [k.val] s)) ∧
    (∀ k : Fin 17, takes (monCode 7) s = true → effective s 7 ≤ 1 → Completes (.tempLow k) s (Warned 7 [k.val] s)) ∧
    (takes (monCode 8) s = true → effective s 8 ≤ 1 → Completes .shieldBreak s (Warned 8 [] s)) ∧
    (∀ k : Fin 4, loopOn s k.val = true → takes (monCode (9 + k.val)) s = true → effective s (9 + k.val) ≤ 1 →
      Completes (.tamperLoop k) s (Warned (9 + k.val) [k.val] s)) ∧
    (takes (monCode 0x16) s = true → effective s 0x16 ≤ 1 →
      Completes .vbatLow s (fun t => t.lamp.vbatOk = false ∧ ∃ u, Warned 0x16 [] s u ∧ t = { u with lamp := { u.lamp with vbatOk := false } })) ∧
    (inCaution s = true → s.guard.cautionLong = false → s.guard.dipStart + 1000000 ≤ s.time.up → takes (monCode 1) s = true → effective s 1 ≤ 1 →
      Completes .cautionLong s (Warned 1 [s.guard.dipRail] { s with guard := { s.guard with cautionLong := true } })) ∧
    (s.lamp.rtcRun = true → takes (monCode 0x17) s = true → effective s 0x17 ≤ 1 →
      Completes .rtcStop s (Warned 0x17 [] { s with lamp := { s.lamp with rtcRun := false } })) ∧
    (s.mode = 2 → s.fore.pkeOk = true → takes (monCode 0x13) s = true → effective s 0x13 ≤ 1 →
      Completes (.pkeKat false) s (Warned 0x13 [] { s with fore := { s.fore with pkeOk := false } }))

/-- What a monitor's response at L3 or L4 leaves: Recovery, with no traffic slot, memory key, session, stored byte, gated frame, claim or held or waiting order; at L4 neither a deep slot nor the root key (Table 16.3, Table 04.12, R132, R445). -/
def Halted (level : Nat) (t : State) : Prop :=
  t.mode = 4 ∧ level ≤ t.guard.halted ∧ t.vault.slots = [] ∧ t.vault.memPresent = false ∧ t.host.sessions = [] ∧ t.host.ide = [] ∧ t.mem.bytes = [] ∧
  t.fore.claims = [] ∧ t.fore.waits = [] ∧ t.fore.deferred = [] ∧ t.guard.held = [] ∧ t.gate.entries = [] ∧
  (level = 4 → t.vault.deep = [] ∧ t.lamp.root = none)

/-- FOREMAN_LOCKSTEP and SHADOW_SWEEP, whose floor is L3 in every life-cycle state, halt the part, and so does every other monitor that stands at L3 or above: of them CLOCK_GLITCH, SHIELD_BREAK, TEMP_HIGH and HBM_FAULT are named (R420 to R424, Table 16.2, Table 16.3). TEMP_HIGH and HBM_FAULT at their floor L2 in a part with nothing in flight: the monitor is recorded, traffic is squelched, the level in force is at least 2, and no key is lost; the sector that an HBM fault hits is poisoned and counted first (R287, R290, Table 16.2, Table 16.3). -/
def Obligations.MonitorResponses : Prop :=
  (∀ s : State, s.live = true →
      (foreOn s = true → losesEvidence (monCode 0x0E) s = false → Completes .foremanLockstep s (Halted (effective s 0x0E))) ∧
      (∀ bad : List Shadow, bad ≠ [] → losesEvidence (monCode 0x0D) s = false → Completes (.shadowSweep bad) s (Halted (effective s 0x0D))) ∧
      (3 ≤ effective s 4 → losesEvidence (monCode 4) s = false → Completes .clockGlitch s (Halted (effective s 4))) ∧
      (3 ≤ effective s 8 → losesEvidence (monCode 8) s = false → Completes .shieldBreak s (Halted (effective s 8))) ∧
      (∀ k, 3 ≤ effective s 6 → losesEvidence (monCode 6) s = false → Completes (.tempHigh k) s (Halted (effective s 6))) ∧
      (∀ (stack : Fin 2) (cell : Fin 134217728), stackOf cell.val = stack.val → 3 ≤ effective s 0x10 → atticRO s 1 = false → s.attic.spares < 256 → s.attic.evid.length < 16380 →
        Completes (.hbmFault stack cell) s (Halted (effective s 0x10))) ∧
      3 ≤ effective s 0x0E ∧ 3 ≤ effective s 0x0D) ∧
  (∀ s : State, s.live = true → s.gal = { s.gal with items := [], backlog := [], parked := [], threads := [], jobs := [], ctxs := [], unitQ := [] } →
      s.wnd.queues = [] → s.wnd.egress = [] → s.gate.entries = [] → s.twin.xcBuf = [] → s.lfr.txTribs = [] → s.lfr.rxTribs = [] →
      (∀ n, n < 16 → s.flag (Reg.LFR_TRUNK_STATUS n) Fd.LFR_TRUNK_STATUS_UP = false) →
      (∀ k : Fin 16, effective s 6 = 2 → takes (monCode 6) s = true →
        Completes (.tempHigh k) s (fun t => squelched t = true ∧ trafficOn t = false ∧ 2 ≤ levelInForce t ∧ Recorded (monCode 6) [k.val] s t ∧
          t.vault = s.vault ∧ t.mem = s.mem ∧ t.mode = s.mode ∧ t.assoc = s.assoc ∧ t.time = s.time)) ∧
      (∀ (stack : Fin 2) (cell : Fin 134217728), stackOf cell.val = stack.val → effective s 0x10 = 2 → effective s 0x0F ≤ 2 → takes (monCode 0x0F) s = true → takes (monCode 0x10) s = true →
        s.attic.spares < 256 → s.attic.evid.length < 16380 → s.attic.ring.length < 65530 →
        Completes (.hbmFault stack cell) s (fun t => squelched t = true ∧ trafficOn t = false ∧ 2 ≤ levelInForce t ∧ Recorded (monCode 0x0F) [cell.val] s t ∧
          (∃ r, (r ∈ t.attic.evid ∨ r ∈ t.attic.ring) ∧ r.code = monCode 0x10 ∧ r.data = evData [cell.val] ∧ r.valid = true) ∧
          (sectorAt t cell.val).poison = true ∧ t.fld Reg.MEM_POISON_LAST Fd.MEM_POISON_LAST_CELL = cell.val ∧
          t.reg Reg.MEM_CNT_CHECK_FAIL = BitVec.ofNat 64 (count40 (s.reg Reg.MEM_CNT_CHECK_FAIL).toNat 1) ∧
          t.mem.bytes = s.mem.bytes ∧ t.vault = s.vault ∧ t.mode = s.mode ∧ t.assoc = s.assoc ∧ t.time = s.time)) ∧
      2 ≤ effective s 6 ∧ 2 ≤ effective s 0x10)

/-- The caution state, the response levels' ends and the rate limits (R417, R418, R421, R424, R435): what each command leaves, and what it leaves alone. -/
def Obligations.GuardCommands : Prop :=
  ∀ s : State, s.live = true →
    (∀ r : Fin 9, r.val ≠ 8 → inCaution s = false →
      Completes (.supplyWarning r) s (fun t => inCaution t = true ∧ t.guard = { s.guard with dipRail := r.val, dipStart := s.time.up, cautionLong := false } ∧
        t.reg Reg.TMP_CNT_CAUTION = BitVec.ofNat 64 (count40 (s.reg Reg.TMP_CNT_CAUTION).toNat 1) ∧
        RegsBut [Reg.TMP_STATUS, Reg.TMP_CNT_CAUTION, halfWord Reg.TMP_CNT_CAUTION] s t ∧
        t = { s with regs := t.regs, page := t.page, out := t.out, guard := t.guard })) ∧
    (∀ mv : Nat, inCaution s = true → s.guard.dipStart + 10000 ≤ s.time.up → s.guard.held = [] → takes Ev.SUPPLY_DIP s = true →
      Completes (.cautionExit mv) s (fun t => inCaution t = false ∧
        Logged { (s.setFld Reg.TMP_STATUS Fd.TMP_STATUS_CAUTION 0).setReg Reg.TMP_LAST_DIP (BitVec.ofNat 64 (s.guard.dipRail + mv % 65536 * 2 ^ 16 +
          min (s.time.up - s.guard.dipStart - 9000) (2 ^ 32 - 1) * 2 ^ 32)) with guard := { s.guard with cautionLong := false } } t)) ∧
    (∀ (d : Fin 80) (w : AlarmWin), s.guard.win = some w → w.erased ≠ 0 → 2 ≤ d.val →
      Completes (.islandPowerOff d) s (fun t => t.fld (Reg.PWR_DOM d.val) Fd.PWR_DOM_STATE = 0 ∧ RegsBut [Reg.PWR_DOM d.val] s t ∧
        t.guard.win = some (if 16 ≤ d.val then { w with galOff := setNbit w.galOff (d.val - 16) true } else { w with islOff := setNbit w.islOff (d.val - 2) true }) ∧ t = { s with regs := t.regs, guard := { s.guard with win := t.guard.win } })) ∧
    (∀ w : AlarmWin, s.guard.win = some w → w.start + 1000 ≤ s.time.up → takes Ev.ALARM s = true →
      Completes .alarmWindowEnd s (fun t => t.guard.win = none ∧ Logged { s with guard := { s.guard with win := none } } t ∧
        ∃ r ∈ t.attic.evid, r.code = Ev.ALARM ∧ r.level = w.level ∧ r.data = alarmData w (s.time.up - w.start) ∧ r.seq = s.attic.nextSeq)) ∧
    (squelched s = true → s.guard.halted = 0 → s.guard.l2At + 10000000 ≤ s.time.up → takes Ev.ALARM_CLEARED s = true → (∀ L, L < 64 → laneUp s L = false) →
      Completes .squelchEnd s (fun t => squelched t = false ∧ levelInForce t = 1 ∧ Recorded Ev.ALARM_CLEARED [2] s t ∧
        t.vault = s.vault ∧ t.mem = s.mem ∧ t.wnd = s.wnd ∧ t.assoc = s.assoc)) ∧
    (∀ l : List (Fin 32), s.flag Reg.TMP_ALARM Fd.TMP_ALARM_L1 = true → squelched s = false → s.guard.halted = 0 →
      (∀ m ∈ l, effective s m.val = 0) → hostMayWrite s Reg.TMP_ALARM = true → takes Ev.ALARM_CLEARED s = true →
      Completes (.tmpAlarmClear l) s (fun t => t.flag Reg.TMP_ALARM Fd.TMP_ALARM_L1 = false ∧ levelInForce t = 0 ∧ Recorded Ev.ALARM_CLEARED [1] s t ∧
        Logged ((s.setFld Reg.TMP_ALARM Fd.TMP_ALARM_L1 0).setFld Reg.TMP_STATUS Fd.TMP_STATUS_LEVEL 0) t)) ∧
    (∀ code : BitVec 16, tokens s code.toNat < s.fld Reg.TLY_CFG Fd.TLY_CFG_BURST →
      Completes (.tallyRefill code) s (fun t => tokens t code.toNat = tokens s code.toNat + 1 ∧ (∀ k, k ≠ code.toNat → tokens t k = tokens s k) ∧
        t = { s with guard := { s.guard with buckets := t.guard.buckets } }))

/-! ## Niano (chapter 06) -/

/-- A thread that may not issue changes nothing, nor does an instruction that its code does not spell (log entries 3 and 41); a bundle whose slots both stand under a false guard moves the thread on by one bundle and does nothing else (R174); a gallery thread whose next bundle lies beyond its image takes BRANCH_RANGE with that address (R185). It holds for every instruction. Both slots read before either writes, and commit together (R173): where slots A and B write no register and no predicate in common, the bundle leaves each register and predicate as the slot that writes it would alone. -/
def Obligations.BundleIssue : Prop :=
  (∀ (i : Instr) (who : Thr) (gd : Prd) (b : SlotB) (s : State), bundleCmd i = some (who, gd, b) → legalDrop i = true →
      (ctxOf who s = none → Idles i s) ∧
      (∀ c, ctxOf who s = some c → spells c i b = false → Idles i s) ∧
      (∀ c, ctxOf who s = some c → beyond c = false → c.h.p gd.val = false → c.h.p b.guard.val = false →
        Issues c i s (fun t => t = setThread who (stepped c.h) s)) ∧
      (∀ c, ctxOf who s = some c → c.h.p gd.val = false → Issues c i s (fun t => t = bundle c gd (sopRes 0 .nop) b s)) ∧
      (∀ c, ctxOf who s = some c → c.h.p b.guard.val = false → Issues c (.nop who gd b) s (fun t => t = bundle c gd (sopRes 0 .nop) slotNop s)) ∧
      (∀ c : Ctx, c.h.p 0 = true) ∧
      (∀ c, ctxOf who s = some c → beyond c = true → Completes i s (Faults c 0 0x01 (BitVec.ofNat 64 c.h.pc) s))) ∧
  (∀ (a o : SOp) (who : Thr) (gd gb : Prd) (c : Ctx) (s : State) (ha hb : Thread), Ready who gd c s → c.h.p gb.val = true →
      readsSpecial a = false → readsSpecial o = false →
      bundle c gd (sopRes 0 a) slotNop s = setThread who (stepped ha) s → bundle c gb (sopRes 0 o) slotNop s = setThread who (stepped hb) s →
      (∀ r, r ∈ sopRegs a → r ∈ sopRegs o → r = 0) → (∀ p, p ∈ sopPreds a → p ∈ sopPreds o → p = 0) →
      Issues c (inSlotA who gd a ⟨gb, o⟩) s (fun t => ∃ h, t = setThread who (stepped h) s ∧ h = { c.h with regs := h.regs, preds := h.preds } ∧
        (∀ r : Reg, h.g r.val = if r ∈ sopRegs o then hb.g r.val else ha.g r.val) ∧
        (∀ p : Prd, h.p p.val = if p ∈ sopPreds o then hb.p p.val else ha.p p.val)))

/-- ALU, HASH and the immediate, shift, field and move instructions write their result to rd and change nothing else (R175, R183, Table 06.7, Table 06.8). -/
def Obligations.NianoCompute : Prop :=
  ∀ (who : Thr) (gd : Prd) (c : Ctx) (s : State), Ready who gd c s →
    let g := fun (r : Reg) => c.h.g r.val
    (∀ fn rd ra rb, Issues c (.alu who gd fn rd ra rb slotNop) s (fun t => ∃ v, AluResult fn (g ra) (g rb) v ∧ WroteReg c rd v s t)) ∧
    (∀ rd ra rb, Issues c (.hash who gd rd ra rb slotNop) s (WroteReg c rd (BitVec.ofNat 64 (hashWord (g ra) (g rb).toNat)) s)) ∧
    (∀ rd ra imm, Issues c (.addi who gd rd ra imm slotNop) s (WroteReg c rd (g ra + imm.signExtend 64) s)) ∧
    (∀ rd ra imm, Issues c (.andi who gd rd ra imm slotNop) s (WroteReg c rd (g ra &&& imm.setWidth 64) s)) ∧
    (∀ rd ra imm, Issues c (.ori who gd rd ra imm slotNop) s (WroteReg c rd (g ra ||| imm.setWidth 64) s)) ∧
    (∀ rd ra imm, Issues c (.xori who gd rd ra imm slotNop) s (WroteReg c rd (g ra ^^^ imm.setWidth 64) s)) ∧
    (∀ rd ra sh, Issues c (.shli who gd rd ra sh slotNop) s (fun t => ∃ v : W64, v.toNat = (g ra).toNat * 2 ^ sh.val % 2 ^ 64 ∧ WroteReg c rd v s t)) ∧
    (∀ rd ra sh, Issues c (.shri who gd rd ra sh slotNop) s (fun t => ∃ v : W64, v.toNat = (g ra).toNat / 2 ^ sh.val ∧ WroteReg c rd v s t)) ∧
    (∀ rd ra sh, Issues c (.sari who gd rd ra sh slotNop) s (fun t => ∃ v : W64, v.toInt = (g ra).toInt / 2 ^ sh.val ∧ WroteReg c rd v s t)) ∧
    (∀ rd ra (pos wid1 : Fin 64), pos.val + wid1.val < 64 → Issues c (.ext who gd rd ra pos wid1 slotNop) s (fun t => ∃ v : W64,
      v.toNat = (g ra).toNat / 2 ^ pos.val % 2 ^ (wid1.val + 1) ∧ WroteReg c rd v s t)) ∧
    (∀ rd ra (pos wid1 : Fin 64), pos.val + wid1.val < 64 → Issues c (.ins who gd rd ra pos wid1 slotNop) s (fun t => ∃ v : W64,
      (∀ i, i < 64 → v.getLsbD i = if pos.val ≤ i ∧ i ≤ pos.val + wid1.val then (g ra).getLsbD (i - pos.val) else (g rd).getLsbD i) ∧ WroteReg c rd v s t)) ∧
    (∀ rd imm, Issues c (.movi who gd rd true imm slotNop) s (WroteReg c rd (imm.signExtend 64) s)) ∧
    (∀ rd imm, Issues c (.movi who gd rd false imm slotNop) s (WroteReg c rd (imm.setWidth 64) s)) ∧
    (∀ rd imm, Issues c (.movu who gd rd imm slotNop) s (fun t => ∃ v : W64, v.toNat = ((g rd).toNat * 2 ^ 16 + imm.toNat) % 2 ^ 64 ∧ WroteReg c rd v s t))

/-- NOP, FENCE and YIELD change nothing but the thread's place; CMP, CMPI and PLOG write a predicate and its complement; BR and JR go to their target and leave the address behind them in a register that is not g0 (R174, R184, R185, R199). A free thread of an online gallery takes the next item of its queue: a window of up to 192 bytes of the frame, or of a tub's 16-byte header, zeroed registers, and the entry point of its domain (R146, R175, R176, R181). A thread that reaches STEP_MAX loses its item (R147). -/
def Obligations.NianoControl : Prop :=
  (∀ (who : Thr) (gd : Prd) (c : Ctx) (s : State), Ready who gd c s →
      let g := fun (r : Reg) => c.h.g r.val
      Issues c (.nop who gd slotNop) s (fun t => t = setThread who (stepped c.h) s) ∧
      Issues c (.fence who gd slotNop) s (fun t => t = setThread who (stepped c.h) s) ∧
      Issues c (.syncYield who gd slotNop) s (fun t => t = setThread who (stepped c.h) s) ∧
      (∀ cd ra rb (pt pf : Prd), pt ≠ pf ∨ pt = 0 → Issues c (.cmp who gd cd ra rb pt pf slotNop) s (fun t => ∃ v, (v = true ↔ CondTrue cd (g ra) (g rb)) ∧ WrotePreds c pt pf v s t)) ∧
      (∀ cd ra (imm : BitVec 8) (pt pf : Prd), pt ≠ pf ∨ pt = 0 →
        Issues c (.cmpi who gd cd ra imm pt pf slotNop) s (fun t => ∃ v, (v = true ↔ CondTrue cd (g ra) (imm.setWidth 64)) ∧ WrotePreds c pt pf v s t)) ∧
      (∀ fn (pa pb pt pf : Prd), pt ≠ pf ∨ pt = 0 → Issues c (.plog who gd fn pa pb pt pf slotNop) s (fun t => ∃ v,
        (v = true ↔ match fn with
          | .land => c.h.p pa.val = true ∧ c.h.p pb.val = true
          | .lor => c.h.p pa.val = true ∨ c.h.p pb.val = true
          | .lxor => ¬ (c.h.p pa.val = c.h.p pb.val)
          | .andn => c.h.p pa.val = true ∧ c.h.p pb.val = false) ∧ WrotePreds c pt pf v s t)) ∧
      (∀ (rl : Reg) (target : BitVec 13), Issues c (.br who gd rl target slotNop) s (fun t => ∃ h, t = setThread who { stepped h with pc := target.toNat } s ∧
        h = { c.h with regs := h.regs } ∧ ∀ r : Reg, h.g r.val = if r = rl ∧ r ≠ 0 then BitVec.ofNat 64 (c.h.pc + 1) else g r)) ∧
      (∀ (rd ra : Reg), (g ra).toNat < 8192 → (∀ n, c.codeLen = some n → (g ra).toNat < n) →
        Issues c (.jr who gd rd ra slotNop) s (fun t => ∃ h, t = setThread who { stepped h with pc := (g ra).toNat } s ∧
          h = { c.h with regs := h.regs } ∧ ∀ r : Reg, h.g r.val = if r = rd ∧ r ≠ 0 then BitVec.ofNat 64 (c.h.pc + 1) else g r)) ∧
      (∀ (rd ra : Reg) (b : SlotB), (8192 ≤ (g ra).toNat ∨ ∃ n, c.codeLen = some n ∧ n ≤ (g ra).toNat) →
        Issues c (.jr who gd rd ra b) s (Faults c 0 0x01 (g ra) s))) ∧
  (∀ (g : Fin 64) (k : Fin 16) (s : State) (it : Item), trafficOn s = true → nbit (s.reg Reg.GAL_ONLINE).toNat g.val = true →
      (∀ rest im, (galThread s g.val k.val).tag = none → tget nil0 s.gal.queues g.val = it.tag :: rest → itemOf s it.tag = some it → imageOf s it.epoch = some im →
        Completes (.threadTakeItem g k) s (fun t => ∃ q w, tget nil0 q g.val = rest ∧ (∀ j, j ≠ g.val → tget nil0 q j = tget nil0 s.gal.queues j) ∧
          w = (if 64 ≤ it.dom ∧ it.dom < 96 then slice it.hdr 0 16 else it.data.take 192) ∧
          t = setGalThread g.val k.val { galThread s g.val k.val with regs := [], preds := 1, pc := im.entries.getD (entryOf it.dom) 0, steps := 0, tag := some it.tag, win := w, wlen := w.length }
            (setItem it.tag (some { it with st := .running k.val, loaded := if 64 ≤ it.dom ∧ it.dom < 96 then 0 else w.length }) { s with gal := { s.gal with queues := q } }))) ∧
      (itemOn s g.val k.val = some it → s.fld Reg.GAL_CFG Fd.GAL_CFG_STEP_MAX ≤ (galThread s g.val k.val).steps → it.key = none → it.gone = none → it.queue < 1024 →
        s.flag Reg.WND_DN_CFG Fd.WND_DN_CFG_EN = false →
        Completes (.stepLimit g k) s (fun t => ∃ u v, DropCounted it.port 0x11 (if it.dom < 64 ∨ 96 ≤ it.dom then some it.queue else none) s u ∧
          Counted Reg.GAL_CNT_STEP_LIMIT 1 (setGalThread g.val k.val (clearThread (galThread s g.val k.val)) (setItem it.tag (some { it with st := .dropped 0x11 0xFF }) u)) v ∧
          Raised Ev.STEP_LIMIT [g.val, k.val] v t)))

/-- WLD, WST, WINS and WDEL in a gallery (R176, R186, R187): what they load and leave in the window, the bounds they fault beyond, and what stays. Bytes of the window at d.wlen and above read 0. -/
def Obligations.NianoWindow : Prop :=
  ∀ (g : Fin 64) (k : Fin 16) (gd : Prd) (c : Ctx) (s : State), Ready (.gal g k) gd c s → c.h.win.length = c.h.wlen → c.h.wlen ≤ 256 →
    ∀ (ra : Reg) (off : Byte), let a := (c.h.g ra.val + off.setWidth 64).toNat
    (∀ (rd : Reg) (size : Fin 4) (sx : Bool) (ecc : Ecc), let n := 2 ^ size.val
      (a + n ≤ 256 → Issues c (.wld (.gal g k) gd rd ra off size sx ecc slotNop) s (fun t => ∃ v : W64,
        (v.toNat % 2 ^ (8 * n) = beNat ((List.range n).map (fun i => c.h.win.getD (a + i) 0))) ∧
        (∀ i, 8 * n ≤ i → i < 64 → v.getLsbD i = (sx && v.getLsbD (8 * n - 1))) ∧ WroteReg c rd v s t)) ∧
      (256 < a + n → Issues c (.wld (.gal g k) gd rd ra off size sx ecc slotNop) s (Faults c 0 0x04 (BitVec.ofNat 64 a) s))) ∧
    (∀ (rs : Reg) (size : Fin 4), let n := 2 ^ size.val
      (windowRo c = false → a + n ≤ c.h.wlen → Issues c (.wst (.gal g k) gd rs ra off size slotNop) s (fun t => ∃ w, w.length = c.h.win.length ∧
        (∀ i, i < n → (w.getD (a + i) 0).toNat = (c.h.g rs.val).toNat / 256 ^ (n - 1 - i) % 256) ∧ (∀ i, i < a ∨ a + n ≤ i → w.getD i 0 = c.h.win.getD i 0) ∧
        t = setThread (.gal g k) { stepped c.h with win := w } s)) ∧
      (windowRo c = true → Issues c (.wst (.gal g k) gd rs ra off size slotNop) s (Faults c 0 0x06 (BitVec.ofNat 64 a) s)) ∧
      (windowRo c = false → c.h.wlen < a + n → Issues c (.wst (.gal g k) gd rs ra off size slotNop) s (Faults c 0 0x04 (BitVec.ofNat 64 a) s))) ∧
    (∀ (n1 : Fin 32) (it : Item), let n := n1.val + 1
      c.h.tag = some it.tag → itemOf s it.tag = some it →
      (windowRo c = false → a ≤ c.h.wlen → c.h.wlen + n ≤ 256 → Issues c (.wins (.gal g k) gd n1 ra off slotNop) s (fun t => ∃ w, w.length = c.h.win.length + n ∧
        (∀ i, w.getD i 0 = if i < a then c.h.win.getD i 0 else if i < a + n then 0 else c.h.win.getD (i - n) 0) ∧
        t = setItem it.tag (some { it with len := it.len + n }) (setThread (.gal g k) { stepped c.h with win := w, wlen := c.h.wlen + n } s))) ∧
      (windowRo c = false → a + n ≤ c.h.wlen → Issues c (.wdel (.gal g k) gd n1 ra off slotNop) s (fun t => ∃ w, w.length + n = c.h.win.length ∧
        (∀ i, w.getD i 0 = if i < a then c.h.win.getD i 0 else c.h.win.getD (i + n) 0) ∧
        t = setItem it.tag (some { it with len := it.len - n }) (setThread (.gal g k) { stepped c.h with win := w, wlen := c.h.wlen - n } s))) ∧
      (windowRo c = true → Issues c (.wins (.gal g k) gd n1 ra off slotNop) s (Faults c 0 0x06 (BitVec.ofNat 64 a) s)) ∧
      (windowRo c = true → Issues c (.wdel (.gal g k) gd n1 ra off slotNop) s (Faults c 0 0x06 (BitVec.ofNat 64 a) s)) ∧
      (windowRo c = false → c.h.wlen < a → Issues c (.wins (.gal g k) gd n1 ra off slotNop) s (Faults c 0 0x04 (BitVec.ofNat 64 a) s)) ∧
      (windowRo c = false → a ≤ c.h.wlen → 256 < c.h.wlen + n → Issues c (.wins (.gal g k) gd n1 ra off slotNop) s (Faults c 0 0x05 (BitVec.ofNat 64 a) s)) ∧
      (windowRo c = false → c.h.wlen < a + n → Issues c (.wdel (.gal g k) gd n1 ra off slotNop) s (Faults c 0 0x04 (BitVec.ofNat 64 a) s)))

/-- WLD and WST on the foreman reach its own scratch memory below 0x10000 and handed-over landing cells of its function (R206): aligned accesses only, each to its own thread's scratch. WAITEV on the foreman takes the events that rb names, and waits while there is none; a gallery has no events. ORD is the foreman's: a gallery faults (R199, R200). -/
def Obligations.NianoForeman : Prop :=
  (∀ (k : Fin 4) (gd : Prd) (c : Ctx) (s : State), Ready (.fore k) gd c s → ∀ (ra : Reg) (off : Byte) (size : Fin 4),
      let a := (c.h.g ra.val + off.setWidth 64).toNat
      let n := 2 ^ size.val
      (∀ (r : Reg) (sx : Bool) (ecc : Ecc) (b : SlotB), a % n ≠ 0 → Issues c (.wld (.fore k) gd r ra off size sx ecc b) s (Faults c 0 0x10 (BitVec.ofNat 64 a) s) ∧
        Issues c (.wst (.fore k) gd r ra off size b) s (Faults c 0 0x10 (BitVec.ofNat 64 a) s)) ∧
      (∀ (r : Reg) (sx : Bool) (ecc : Ecc) (b : SlotB), a % n = 0 → 0x10000 ≤ a → (a < 0x100000000 ∨ 0x110000000 ≤ a) →
        Issues c (.wld (.fore k) gd r ra off size sx ecc b) s (Faults c 0 0x04 (BitVec.ofNat 64 a) s) ∧
        Issues c (.wst (.fore k) gd r ra off size b) s (Faults c 0 0x04 (BitVec.ofNat 64 a) s)) ∧
      (∀ (rd : Reg) (sx : Bool) (ecc : Ecc), a % n = 0 → a < 0x10000 → Issues c (.wld (.fore k) gd rd ra off size sx ecc slotNop) s (fun t => ∃ v : W64,
        v.toNat % 2 ^ (8 * n) = beNat ((List.range n).map (fun i => tget byte0 s.fore.scratch (k.val * 0x10000 + a + i))) ∧
        (∀ i, 8 * n ≤ i → i < 64 → v.getLsbD i = (sx && v.getLsbD (8 * n - 1))) ∧ WroteReg c rd v s t)) ∧
      (∀ (rs : Reg), a % n = 0 → a < 0x10000 → Issues c (.wst (.fore k) gd rs ra off size slotNop) s (fun t =>
        (∀ i, i < n → (tget byte0 t.fore.scratch (k.val * 0x10000 + a + i)).toNat = (c.h.g rs.val).toNat / 256 ^ (n - 1 - i) % 256) ∧
        (∀ x, x < k.val * 0x10000 + a ∨ k.val * 0x10000 + a + n ≤ x → tget byte0 t.fore.scratch x = tget byte0 s.fore.scratch x) ∧
        ∃ m, t = { setThread (.fore k) (stepped c.h) s with fore := { (setThread (.fore k) (stepped c.h) s).fore with scratch := m } })) ∧
      (a % n = 0 → 0x100000000 ≤ a → a < 0x110000000 → let cell := (a - 0x100000000) / 4096; let m := landingAt 0 + (a - 0x100000000)
        (∀ (rd : Reg) (sx : Bool) (ecc : Ecc), foreCell c k.val cell 0 = none → readable s m n = true → ecc ≠ .bad → Issues c (.wld (.fore k) gd rd ra off size sx ecc slotNop) s (fun t => ∃ v u,
          (v.toNat % 2 ^ (8 * n) = beNat (memBytes s m n)) ∧ (∀ i, 8 * n ≤ i → i < 64 → v.getLsbD i = (sx && v.getLsbD (8 * n - 1))) ∧
          WroteReg c rd v s u ∧ t = useCells k.val [cell] u)) ∧
        (∀ (rd : Reg) (sx : Bool) (ecc : Ecc) (b : SlotB), foreCell c k.val cell 0 = none → (readSector (m / 256) ecc s).1 = false →
          Issues c (.wld (.fore k) gd rd ra off size sx ecc b) s (Faults c 0 0x11 (BitVec.ofNat 64 a) (readSector (m / 256) ecc s).2)) ∧
        (∀ (rs : Reg), foreCell c k.val cell 1 = none → let w := memWrite m ((natBe 8 (c.h.g rs.val).toNat).drop (8 - n)) .good
          ((w s).1 = true → Issues c (.wst (.fore k) gd rs ra off size slotNop) s (fun t => t = useCells k.val [cell] (w (setThread (.fore k) (stepped c.h) s)).2)) ∧
          ((w s).1 = false → ∀ b, Issues c (.wst (.fore k) gd rs ra off size b) s (Faults c 0 0x11 (BitVec.ofNat 64 a) (w s).2))))) ∧
  (∀ (who : Thr) (gd : Prd) (c : Ctx) (s : State) (rd rb : Reg), Ready who gd c s →
      let w := BitVec.ofNat 64 s.fore.event &&& c.h.g rb.val
      (c.isFore = true → w ≠ 0 → Issues c (.waitev who gd rd rb slotNop) s (WroteReg c rd w s)) ∧
      (c.isFore = true → w = 0 → ∀ b, Idles (.waitev who gd rd rb b) s) ∧
      (c.isFore = false → ∀ b, Issues c (.waitev who gd rd rb b) s (Faults c 0 0x03 0 s)) ∧
      (c.isFore = false → ∀ code e b, Issues c (.ord who gd code rd e b) s (Faults c 0 0x02 (code.setWidth 64) s)) ∧
      (c.isFore = true → ∀ n1 ra off b, Issues c (.wins who gd n1 ra off b) s (Faults c 0 0x03 (BitVec.ofNat 64 (effAddr c ra off)) s) ∧
        Issues c (.wdel who gd n1 ra off b) s (Faults c 0 0x03 (BitVec.ofNat 64 (effAddr c ra off)) s) ∧
        Issues c (.sealEnd who gd b) s (Faults c 0 0x03 0 s) ∧ Issues c (.openEnd who gd b) s (Faults c 0 0x03 0 s) ∧ Issues c (.passEnd who gd b) s (Faults c 0 0x03 0 s) ∧
        (∀ fn, Issues c (.puntEnd who gd fn b) s (Faults c 0 0x03 0 s))))

/-- MFS reads each descriptor field and special register and MTS writes those that take a write; every other number faults (R177, R178, R188, Table 06.2, Table 06.4). -/
def Obligations.NianoSpecial : Prop :=
  ∀ (who : Thr) (gd : Prd) (c : Ctx) (s : State), Ready who gd c s →
    (∀ (rd : Reg) (sr : BitVec 12), sr.toNat < 0x12 →
      (∀ it, c.item = some it → Issues c (.mfs who gd rd sr slotNop) s (WroteReg c rd (BitVec.ofNat 64 (descriptor it c.h.wlen sr.toNat)) s)) ∧
      (c.item = none → ∀ b, Issues c (.mfs who gd rd sr b) s (Faults c 0 0x08 (sr.setWidth 64) s))) ∧
    (∀ rd, Issues c (.mfs who gd rd 0x103 slotNop) s (WroteReg c rd (BitVec.ofNat 64 s.time.now) s)) ∧
    (∀ rd, Issues c (.mfs who gd rd 0x104 slotNop) s (WroteReg c rd (BitVec.ofNat 64 c.h.steps) s)) ∧
    (∀ rd, Issues c (.mfs who gd rd 0x105 slotNop) s (WroteReg c rd (BitVec.ofNat 64 c.h.fcode) s)) ∧
    (∀ rd, Issues c (.mfs who gd rd 0x106 slotNop) s (WroteReg c rd (BitVec.ofNat 64 c.h.fpc) s)) ∧
    (∀ rd, Issues c (.mfs who gd rd 0x107 slotNop) s (WroteReg c rd c.h.farg s)) ∧
    (∀ rd, Issues c (.mfs who gd rd 0x108 slotNop) s (fun t => ∃ v : W64, (∀ i : Fin 64, v.getLsbD i.val = (decide (i.val < 8) && c.h.p i.val)) ∧ WroteReg c rd v s t)) ∧
    (∀ rd, Issues c (.mfs who gd rd 0x102 slotNop) s (WroteReg c rd (BitVec.ofNat 64 (cycles c)) s)) ∧
    (∀ rd, Issues c (.mfs who gd rd 0x109 slotNop) s (WroteReg c rd ((Config.random s.draws).setWidth 64) s.drew)) ∧
    (∀ (rd : Reg) (sr : BitVec 12) b, 0x200 ≤ sr.toNat → sr.toNat ≤ 0x205 → c.isFore = false → Issues c (.mfs who gd rd sr b) s (Faults c 0 0x02 (sr.setWidth 64) s)) ∧
    (∀ rd, c.isFore = true → Issues c (.mfs who gd rd 0x203 slotNop) s (WroteReg c rd (BitVec.ofNat 64 s.attic.lifecycle) s)) ∧
    (∀ rd, c.isFore = true → Issues c (.mfs who gd rd 0x204 slotNop) s (WroteReg c rd (BitVec.ofNat 64 s.mode) s)) ∧
    (∀ rd, c.isFore = true → Issues c (.mfs who gd rd 0x205 slotNop) s (WroteReg c rd (BitVec.ofNat 64 s.fore.event) s)) ∧
    (∀ (rs : Reg) (it : Item), c.isFore = false → c.h.tag = some it.tag → itemOf s it.tag = some it →
      Issues c (.mts who gd rs 0x004 slotNop) s (fun t => t = setItem it.tag (some { it with cls := (c.h.g rs.val).toNat % 8 }) (setThread who (stepped c.h) s)) ∧
      Issues c (.mts who gd rs 0x005 slotNop) s (fun t => t = setItem it.tag (some { it with color := min ((c.h.g rs.val).toNat % 4) 2 }) (setThread who (stepped c.h) s))) ∧
    (∀ rs : Reg, Issues c (.mts who gd rs 0x108 slotNop) s (fun t => ∃ h, t = setThread who (stepped h) s ∧ h = { c.h with preds := h.preds } ∧
      ∀ p : Prd, h.p p.val = (decide (p = 0) || (c.h.g rs.val).getLsbD p.val))) ∧
    (∀ (rs : Reg) (sr : BitVec 12) b, c.isFore = false → sr.toNat < 0x12 → sr ≠ 0x004 → sr ≠ 0x005 → Issues c (.mts who gd rs sr b) s (Faults c 0 0x07 (sr.setWidth 64) s)) ∧
    (∀ (rs : Reg) (sr : BitVec 12) b, 0x100 ≤ sr.toNat → sr.toNat ≤ 0x109 → sr ≠ 0x108 → Issues c (.mts who gd rs sr b) s (Faults c 0 0x07 (sr.setWidth 64) s)) ∧
    (∀ (rs : Reg), c.isFore = true → Issues c (.mts who gd rs 0x205 slotNop) s (fun t =>
      (∀ i, i < 16 → t.fore.event.testBit i = (s.fore.event.testBit i && !(c.h.g rs.val).getLsbD i)) ∧
      ∃ e, t = { setThread who (stepped c.h) s with fore := { (setThread who (stepped c.h) s).fore with event := e } })) ∧
    (∀ (rs : Reg) (sr : BitVec 12) b, (0x12 ≤ sr.toNat ∧ sr.toNat < 0x100 ∨ 0x10A ≤ sr.toNat ∧ sr.toNat < 0x200 ∨ 0x206 ≤ sr.toNat) →
      Issues c (.mts who gd rs sr b) s (Faults c 0 0x08 (sr.setWidth 64) s) ∧ Issues c (.mfs who gd rs sr b) s (Faults c 0 0x08 (sr.setWidth 64) s))

/-- LKP, MTR, CNT and PUT (R189 to R192): what a lookup finds and stamps, the colour a meter gives, both counters of a pair, the queue, and what each faults on. -/
def Obligations.NianoTables : Prop :=
  ∀ (who : Thr) (gd : Prd) (c : Ctx) (s : State), Ready who gd c s →
    let g := fun (r : Reg) => c.h.g r.val
    (∀ (rd ra : Reg) (pt pf : Prd), pt ≠ pf ∨ pt = 0 → (g ra).toNat < 2 ^ 60 →
      Issues c (.lkp who gd rd ra 0 pt pf [] slotNop) s (fun t => ∃ h u, t = { setThread who (stepped h) s with cls := u } ∧
        h = { c.h with regs := h.regs, preds := h.preds } ∧
        (∀ r : Reg, h.g r.val = if r = rd ∧ r ≠ 0 then ((findPeer s (g ra).toNat).map (fun e => e.2.res)).getD 0 else g r) ∧
        (∀ p : Prd, h.p p.val = if p = 0 then true else if p = pt then (findPeer s (g ra).toNat).isSome else if p = pf then (findPeer s (g ra).toNat).isNone else c.h.p p.val) ∧
        u = { s.cls with peers := match findPeer s (g ra).toNat with
          | some (i, p) => tset s.cls.peers i { p with hit := tblStamp s }
          | none => s.cls.peers })) ∧
    (∀ (rd ra : Reg) (pt pf : Prd) b, 2 ^ 60 ≤ (g ra).toNat → Issues c (.lkp who gd rd ra 0 pt pf [] b) s (Faults c 0 0x09 (g ra) s)) ∧
    (∀ (rd ra : Reg) (pt pf : Prd) (it : Item), c.item = some it → pt ≠ pf ∨ pt = 0 →
      Issues c (.lkp who gd rd ra 1 pt pf [] slotNop) s (fun t => ∃ h, t = setThread who (stepped h) s ∧ h = { c.h with regs := h.regs, preds := h.preds } ∧
        (∀ r : Reg, h.g r.val = if r = rd ∧ r ≠ 0 then
          ((matchRule s (ruleKey s (descriptor it c.h.wlen 0x001) it.flags c.h.win)).map (fun e => e.2.res)).getD 0 else g r))) ∧
    (∀ (rd ra rb : Reg) (it : Item), c.item = some it → c.h.tag = some it.tag → itemOf s it.tag = some it → (g ra).toNat < 65536 →
      Issues c (.mtr who gd rd ra rb slotNop) s (fun t => ∃ h col m, t = { setItem it.tag (some { it with color := col }) (setThread who (stepped h) s) with
          wnd := { s.wnd with meters := tput meter0 s.wnd.meters (g ra).toNat m } } ∧
        (col, m) = meterStep (tget meter0 s.wnd.meters (g ra).toNat) s.time.up (if rb = 0 then it.len else (g rb).toNat) it.color ∧
        h = { c.h with regs := h.regs } ∧ ∀ r : Reg, h.g r.val = if r = rd ∧ r ≠ 0 then BitVec.ofNat 64 col else g r)) ∧
    (∀ (rd ra rb : Reg) b, c.item.isSome = true → 65536 ≤ (g ra).toNat → Issues c (.mtr who gd rd ra rb b) s (Faults c 0 0x0A (g ra) s)) ∧
    (∀ (ra rb : Reg) (it : Item), c.item = some it → (g ra).toNat < 131072 →
      let n := if rb = 0 then it.len else (g rb).toNat
      let k := (g ra).toNat
      Issues c (.cnt who gd ra rb slotNop) s (fun t =>
        tget nat0 t.gal.pcnt (2 * k) = (tget nat0 s.gal.pcnt (2 * k) + 1) % 2 ^ 40 ∧ tget nat0 t.gal.pcnt (2 * k + 1) = (tget nat0 s.gal.pcnt (2 * k + 1) + n) % 2 ^ 40 ∧
        (∀ j, j ≠ 2 * k → j ≠ 2 * k + 1 → tget nat0 t.gal.pcnt j = tget nat0 s.gal.pcnt j) ∧
        ∃ m, Logged { setThread who (stepped c.h) s with gal := { (setThread who (stepped c.h) s).gal with pcnt := m } } t)) ∧
    (∀ (ra rb : Reg) b, c.item.isSome = true → 131072 ≤ (g ra).toNat → Issues c (.cnt who gd ra rb b) s (Faults c 0 0x0B (g ra) s)) ∧
    (∀ (ra : Reg) (it : Item), c.item = some it → c.h.tag = some it.tag → itemOf s it.tag = some it → it.dom < 64 ∨ 96 ≤ it.dom →
      ((g ra).toNat < 1024 → egressOf (g ra).toNat = it.target →
        Issues c (.put who gd ra slotNop) s (fun t => t = setItem it.tag (some { it with queue := (g ra).toNat }) (setThread who (stepped c.h) s))) ∧
      (∀ b, (1024 ≤ (g ra).toNat ∨ egressOf (g ra).toNat ≠ it.target) → Issues c (.put who gd ra b) s (Faults c 0 0x0E (g ra) s))) ∧
    (c.isFore = true → ∀ (rd ra rb : Reg) (pt pf : Prd) b, Issues c (.mtr who gd rd ra rb b) s (Faults c 0 0x03 0 s) ∧ Issues c (.cnt who gd ra rb b) s (Faults c 0 0x03 0 s) ∧
      Issues c (.put who gd ra b) s (Faults c 0 0x03 0 s) ∧ Issues c (.lkp who gd rd ra 1 pt pf [] b) s (Faults c 0 0x03 0 s))

/-- SEAL, OPEN, PASS, DROP and PUNT end the item (R146, R148, R193 to R196, Table 06.10): what the item becomes, what the thread keeps, what a drop counts, and the domains that fault. -/
def Obligations.NianoEnds : Prop :=
  ∀ (g : Fin 64) (k : Fin 16) (gd : Prd) (c : Ctx) (s : State) (it : Item), Ready (.gal g k) gd c s → c.item = some it → c.h.tag = some it.tag → itemOf s it.tag = some it →
    let s1 := setGalThread g.val k.val (stepped c.h) s
    let f := framedItem c it
    let toCipher := fun (x : Item) (t : State) => t = setGalThread g.val k.val (clearThread c.h) (enterUnit x.gal (.item x.tag) (setItem x.tag (some x) s1))
    (it.dom < 32 ∨ 96 ≤ it.dom ∧ onTxSc s it = true → it.color ≠ 2 → 14 ≤ it.len → it.len + sealAdds s it + 4 ≤ maxLen s it.target → it.noKey = none →
      32 ≤ it.target → it.mscCfg.toNat.testBit 0 = true → Issues c (.sealEnd (.gal g k) gd slotNop) s (toCipher { f with st := .sealing })) ∧
    (64 ≤ it.dom → it.dom < 80 → it.color ≠ 2 → it.noKey = none → Issues c (.sealEnd (.gal g k) gd slotNop) s (toCipher { it with st := .sealing })) ∧
    (32 ≤ it.dom ∧ it.dom < 64 → Issues c (.openEnd (.gal g k) gd slotNop) s (toCipher { it with st := .opening, rx := it.data.take 128 })) ∧
    (80 ≤ it.dom ∧ it.dom < 96 → Issues c (.openEnd (.gal g k) gd slotNop) s (toCipher { it with st := .opening, rx := it.data })) ∧
    (it.dom < 32 ∨ 96 ≤ it.dom ∨ it.dom < 64 ∧ it.flags.testBit 1 = true → it.color ≠ 2 → 14 ≤ it.len → it.len + 4 ≤ maxLen s it.target → it.key = none → it.gone = none →
      Issues c (.passEnd (.gal g k) gd slotNop) s (fun t => t = ended c g k { f with st := .done, passed := true } s1)) ∧
    (∀ (reason : Fin 64) (sub : Byte), dropLegal reason.val sub.toNat = true → it.key = none → it.gone = none → it.queue < 1024 → s.flag Reg.WND_DN_CFG Fd.WND_DN_CFG_EN = false →
      Issues c (.dropEnd (.gal g k) gd reason sub slotNop) s (fun t => ∃ u,
        DropCounted it.port reason.val (if it.dom < 64 ∨ 96 ≤ it.dom then some it.queue else none) s1 u ∧ t = ended c g k { it with st := .dropped reason.val sub.toNat } u)) ∧
    (∀ (fn : Fin 16), let x : RxInfo := ⟨1, descriptor f 0 0x001, 0, it.assoc, some it.queue, it.dom, it.ts⟩
      it.dom < 64 → it.key = none → it.gone = none → (pushRx fn.val x f.data s1).1 = true →
      Issues c (.puntEnd (.gal g k) gd fn slotNop) s (fun t => t = ended c g k { f with st := .punted, passed := false } (pushRx fn.val x f.data s1).2)) ∧
    (∀ b, (32 ≤ it.dom ∧ it.dom < 64 ∨ 80 ≤ it.dom ∧ it.dom < 96 ∨ 96 ≤ it.dom ∧ onTxSc s it = false) → Issues c (.sealEnd (.gal g k) gd b) s (Faults c 0 0x0F (BitVec.ofNat 64 it.dom) s)) ∧
    (∀ b, (it.dom < 32 ∨ 64 ≤ it.dom ∧ it.dom < 80 ∨ 96 ≤ it.dom) → Issues c (.openEnd (.gal g k) gd b) s (Faults c 0 0x0F (BitVec.ofNat 64 it.dom) s)) ∧
    (∀ b, (64 ≤ it.dom ∧ it.dom < 96 ∨ 32 ≤ it.dom ∧ it.dom < 64 ∧ it.flags.testBit 1 = false) → Issues c (.passEnd (.gal g k) gd b) s (Faults c 0 0x0F (BitVec.ofNat 64 it.dom) s)) ∧
    (∀ (fn : Fin 16) b, 64 ≤ it.dom → Issues c (.puntEnd (.gal g k) gd fn b) s (Faults c 0 0x0F (BitVec.ofNat 64 it.dom) s))

/-- The atomics on the program state memory (R197, R198, Table 06.11): one word changes, rd takes its old value; an index beyond the memory, an uncorrectable error and a poisoned word fault, and AST and ASWP write a poisoned word afresh. -/
def Obligations.NianoAtomics : Prop :=
  ∀ (who : Thr) (gd : Prd) (c : Ctx) (s : State) (rd ra rb : Reg), Ready who gd c s →
    let i := (c.h.g ra.val).toNat
    let m := tget w640 s.gal.state i
    let b := c.h.g rb.val
    (i < 2 ^ 18 → i ∉ s.gal.poison →
      Issues c (.ald who gd rd ra .good slotNop) s (WroteReg c rd m s) ∧
      Issues c (.ast who gd rd ra rb .good slotNop) s (AtomDone c none i m b s) ∧
      Issues c (.aadd who gd rd ra rb .good slotNop) s (AtomDone c (some rd) i m (m + b) s) ∧
      Issues c (.aand who gd rd ra rb .good slotNop) s (AtomDone c (some rd) i m (m &&& b) s) ∧
      Issues c (.aor who gd rd ra rb .good slotNop) s (AtomDone c (some rd) i m (m ||| b) s) ∧
      Issues c (.axor who gd rd ra rb .good slotNop) s (AtomDone c (some rd) i m (m ^^^ b) s) ∧
      Issues c (.aswp who gd rd ra rb .good slotNop) s (AtomDone c (some rd) i m b s) ∧
      Issues c (.acas who gd rd ra rb .good slotNop) s (AtomDone c (some rd) i m (if m = c.h.g rd.val then b else m) s)) ∧
    (i < 2 ^ 18 → i ∉ s.gal.poison → Issues c (.aadd who gd rd ra rb .corrected slotNop) s (fun t => ∃ u v, AtomDone c (some rd) i m (m + b) s u ∧
      Counted Reg.GAL_CNT_ECC_CORR 1 u v ∧ Raised Ev.ECC_CORRECTED [(match who with | .gal g _ => g.val | .fore _ => 0x40), i] v t)) ∧
    (2 ^ 18 ≤ i → ∀ e sb, Issues c (.ald who gd rd ra e sb) s (Faults c 0 0x0C (c.h.g ra.val) s) ∧ Issues c (.acas who gd rd ra rb e sb) s (Faults c 0 0x0C (c.h.g ra.val) s)) ∧
    (i < 2 ^ 18 → i ∉ s.gal.poison → ∀ sb, Issues c (.aor who gd rd ra rb .bad sb) s (Faults c 0 0x0D (c.h.g ra.val) { s with gal := { s.gal with poison := s.gal.poison ++ [i] } })) ∧
    (i < 2 ^ 18 → i ∈ s.gal.poison →
      (∀ e sb, Issues c (.aand who gd rd ra rb e sb) s (Faults c 0 0x0D (c.h.g ra.val) s)) ∧
      (∀ e, Issues c (.ast who gd rd ra rb e slotNop) s (fun t => tget w640 t.gal.state i = b ∧ i ∉ t.gal.poison ∧ (∀ j, j ≠ i → tget w640 t.gal.state j = tget w640 s.gal.state j ∧ (j ∈ t.gal.poison ↔ j ∈ s.gal.poison)))) ∧
      (∀ e, Issues c (.aswp who gd rd ra rb e slotNop) s (fun t => tget w640 t.gal.state i = b ∧ i ∉ t.gal.poison ∧ (rd ≠ 0 → (threadOf t who).g rd.val = Config.free s.draws))))

/-! ## Lanes and ports (chapter 11) -/

/-- Bring-up (R302, R303, Table 11.3): the signal's return, CDR lock, training or adaptation, FEC lock with its port or, on a lane of the line framer, with the hunt for its frame, a lane whose settings were kept through Banked, a missed bound and the retry after 10 ms. -/
def Obligations.LaneBringUp : Prop :=
  ∀ (L : Fin 73) (s : State), laneMay s L.val = true →
    (laneF s L.val Fd.LAN_LANE_STATUS_SIGNAL = 0 → laneState s L.val ≠ 6 → laneState s L.val ≠ 7 →
      Completes (.losClear L) s (BringUp L.val (setLaneF L.val Fd.LAN_LANE_STATUS_SIGNAL 1 s))) ∧
    (laneState s L.val = 2 → Completes (.cdrLock L) s (fun t =>
      laneState t L.val = (if fget (laneRun s L.val).cfg Fd.LAN_LANE_CFG_TRAIN_EN = 1 then 3 else 4) ∧ laneF t L.val Fd.LAN_LANE_STATUS_CDR_LOCK = 1 ∧
      RegsBut [Reg.LAN_LANE_STATUS L.val] s t ∧ t = { s with regs := t.regs })) ∧
    (∀ txPre rxPre inv, laneState s L.val = 3 → fget (laneRun s L.val).cfg Fd.LAN_LANE_CFG_RX_POL_AUTO = 0 ∨ inv = false →
      Completes (.linkTrainingDone L txPre rxPre inv) s (Aligning L.val txPre rxPre s)) ∧
    (∀ txPre rxPre, laneState s L.val = 3 → fget (laneRun s L.val).cfg Fd.LAN_LANE_CFG_RX_POL_AUTO = 1 → laneF s L.val Fd.LAN_LANE_STATUS_RX_INVERTED = 0 →
      Completes (.linkTrainingDone L txPre rxPre true) s (fun t => ∃ u, Raised Ev.POL_CORRECTED [L.val] (setLaneF L.val Fd.LAN_LANE_STATUS_RX_INVERTED 1 s) u ∧ Aligning L.val txPre rxPre u t)) ∧
    (laneState s L.val = 4 → Completes (.adaptDone L false) s (Aligning L.val false false s)) ∧
    (∀ p, laneState s L.val = 5 → macOf s L.val = some p → portUp s p = false → (∀ M ∈ macLanes s p, M = L.val ∨ laneUp s M = true) →
      Completes (.fecLock L false) s (fun t => ∃ u, Raised Ev.PORT_UP [p] u t ∧ laneUp u L.val = true ∧ laneF u L.val Fd.LAN_LANE_STATUS_FEC_LOCK = 1 ∧ portUp u p = true ∧
        laneRun u L.val = { laneRun s L.val with at_ := none, kept := false } ∧ (∀ M, M ≠ L.val → laneRun u M = laneRun s M) ∧
        RegsBut [Reg.LAN_LANE_STATUS L.val, Reg.MAC_PORT_STATUS p] s u ∧ u = { s with regs := u.regs, lanes := u.lanes })) ∧
    (∀ p M, laneState s L.val = 5 → macOf s L.val = some p → M ∈ macLanes s p → M ≠ L.val → laneUp s M = false →
      Completes (.fecLock L false) s (fun t => laneUp t L.val = true ∧ laneF t L.val Fd.LAN_LANE_STATUS_FEC_LOCK = 1 ∧ portUp t p = portUp s p ∧
        RegsBut [Reg.LAN_LANE_STATUS L.val] s t ∧ t = { s with regs := t.regs, lanes := t.lanes })) ∧
    (∀ p M, (laneRun s L.val).kept = true → laneState s L.val = 3 ∨ laneState s L.val = 4 → macOf s L.val = some p → M ∈ macLanes s p → M ≠ L.val → laneUp s M = false →
      Completes (.fecLock L false) s (fun t => laneUp t L.val = true ∧ laneF t L.val Fd.LAN_LANE_STATUS_FEC_LOCK = 1 ∧
        laneF t L.val Fd.LAN_LANE_STATUS_TX_PRECODING = precode (fget (laneRun s L.val).cfg Fd.LAN_LANE_CFG_TX_PRECODE) (laneRun s L.val).txPre % 2 ∧
        laneF t L.val Fd.LAN_LANE_STATUS_RX_PRECODING = precode (fget (laneRun s L.val).cfg Fd.LAN_LANE_CFG_RX_PRECODE) (laneRun s L.val).rxPre % 2 ∧
        laneRun t L.val = { laneRun s L.val with at_ := none, kept := false } ∧ RegsBut [Reg.LAN_LANE_STATUS L.val] s t ∧ t = { s with regs := t.regs, lanes := t.lanes })) ∧
    (laneState s L.val = 5 → 32 ≤ L.val → L.val < 64 → macOf s L.val = none → framed s (L.val - 32) = true →
      Completes (.fecLock L false) s (fun t => laneUp t L.val = true ∧ laneF t L.val Fd.LAN_LANE_STATUS_FEC_LOCK = 1 ∧ rxLaneOf t (L.val - 32) = hunt (rxLaneOf s (L.val - 32)) ∧
        RegsBut [Reg.LAN_LANE_STATUS L.val] s t ∧ t = { s with regs := t.regs, lanes := t.lanes, lfr := { s.lfr with lanes := t.lfr.lanes } })) ∧
    (boundPassed s L.val = true → Completes (.laneTrainFail L) s (fun t => ∃ u, Raised Ev.LANE_TRAIN_FAIL [L.val] u t ∧ laneState u L.val = 1 ∧
      laneF u L.val Fd.LAN_LANE_STATUS_CDR_LOCK = 0 ∧ laneRun u L.val = { laneRun s L.val with at_ := some s.time.up } ∧ (∀ M, M ≠ L.val → laneRun u M = laneRun s M) ∧
      RegsBut [Reg.LAN_LANE_STATUS L.val] s u ∧ u = { s with regs := u.regs, lanes := u.lanes })) ∧
    (∀ a, laneState s L.val = 1 → laneF s L.val Fd.LAN_LANE_STATUS_SIGNAL = 1 → (laneRun s L.val).at_ = some a → a + 10000000 ≤ s.time.up →
      Completes (.trainRetry L) s (BringUp L.val s))

/-- Losses (R305, R306, Table 11.4): what a lane that is coming up does, and a lane that is UP with its port. What a lane's FEC counted in a window of 1 ms (R310, R354): the symbol count, the codewords and the histogram of the lane that counts them, the symbol error rate, the runs of bad and good windows, and the signal-degrade alarm after ten bad ones. -/
def Obligations.LaneLosses : Prop :=
  (∀ (L : Fin 73) (s : State), s.live = true → lanePresent s L.val = true →
      (laneF s L.val Fd.LAN_LANE_STATUS_SIGNAL = 1 → laneState s L.val ≠ 0 → laneState s L.val ≠ 6 → laneState s L.val ≠ 7 →
        Completes (.laneLos L) s (fun t => ∃ u v, Counted (Reg.LAN_CNT_LOS L.val) 1 (setLaneF L.val Fd.LAN_LANE_STATUS_SIGNAL 0 s) u ∧ Raised Ev.LANE_LOS [L.val] u v ∧
          laneState t L.val = 1 ∧ laneF t L.val Fd.LAN_LANE_STATUS_CDR_LOCK = 0 ∧ laneF t L.val Fd.LAN_LANE_STATUS_SIGNAL = 0 ∧
          RegsBut [Reg.LAN_LANE_STATUS L.val] v t ∧ t = { v with regs := t.regs })) ∧
      (laneMay s L.val = true → laneF s L.val Fd.LAN_LANE_STATUS_CDR_LOCK = 1 → laneState s L.val = 3 ∨ laneState s L.val = 4 ∨ laneState s L.val = 5 →
        Completes (.laneLol L) s (fun t => ∃ u v, Counted (Reg.LAN_CNT_LOL L.val) 1 s u ∧ Raised Ev.LANE_LOL [L.val] u v ∧
          laneState t L.val = 2 ∧ laneF t L.val Fd.LAN_LANE_STATUS_CDR_LOCK = 0 ∧ (laneRun t L.val).at_ = some s.time.up ∧ (∀ M, M ≠ L.val → laneRun t M = laneRun s M) ∧
          RegsBut [Reg.LAN_LANE_STATUS L.val] v t ∧ t = { v with regs := t.regs, lanes := t.lanes })) ∧
      (∀ p, laneMay s L.val = true → laneUp s L.val = true → macOf s L.val = some p → 32 ≤ p → portUp s p = true → rclkOf s L.val = [] →
        Completes (.fecAlignLoss L) s (fun t => ∃ u v w, Counted (Reg.LAN_CNT_LOL L.val) 1 s u ∧ Raised Ev.LANE_LOL [L.val] u v ∧ Raised Ev.PORT_DOWN [p] w t ∧
          laneState w L.val = 5 ∧ laneF w L.val Fd.LAN_LANE_STATUS_FEC_LOCK = 0 ∧ portUp w p = false ∧ (laneRun w L.val).scanLost = true ∧
          RegsBut [Reg.LAN_LANE_STATUS L.val, Reg.MAC_PORT_STATUS p] v w ∧ w = { v with regs := w.regs, lanes := w.lanes })) ∧
      (∀ p, laneUp s L.val = true → macOf s L.val = some p → laneF s L.val Fd.LAN_LANE_STATUS_SIGNAL = 1 → portUp s p = true →
        Completes (.laneLos L) s (fun t => laneState t L.val = 1 ∧ portUp t p = false ∧ t.vault = s.vault ∧ t.mem = s.mem ∧ t.assoc = s.assoc ∧ t.gal = s.gal ∧ t.time = s.time))) ∧
  (∀ (L : Fin 72) (s : State) (cw corr uncorr sym : Nat) (hist : List Nat), s.live = true → laneUp s L.val = true → 0 < cw → sym ≤ cw * 544 →
      (0 < uncorr ∨ sdLevel s L.val * (cw * 544) < sym * 2 ^ 20) →
      (countsCw s L.val = false → tget nat0 s.time.runs (2 * L.val) < 9 →
        Completes (.lineQualityWindow L cw corr uncorr sym hist) s (fun t => ∃ u, Counted (Reg.LAN_CNT_SYM L.val) sym s u ∧
          t.fld (Reg.TIM_LANE_LQ L.val) Fd.TIM_LANE_LQ_SER = min (sym * 2 ^ 32 / (cw * 544)) (2 ^ 32 - 1) ∧
          tget nat0 t.time.runs (2 * L.val) = tget nat0 s.time.runs (2 * L.val) + 1 ∧ tget nat0 t.time.runs (2 * L.val + 1) = 0 ∧
          RegsBut [Reg.TIM_LANE_LQ L.val] u t ∧ t = { u with regs := t.regs, time := { u.time with runs := t.time.runs } })) ∧
      (9 ≤ tget nat0 s.time.runs (2 * L.val) → s.flag (Reg.TIM_LANE_LQ L.val) Fd.TIM_LANE_LQ_DEGRADED = false →
        Completes (.lineQualityWindow L cw corr uncorr sym hist) s (fun t => t.flag (Reg.TIM_LANE_LQ L.val) Fd.TIM_LANE_LQ_DEGRADED = true ∧
          tget nat0 t.time.runs (2 * L.val) = 10 ∧ (takes Ev.LINE_SD s = true → Recorded Ev.LINE_SD [L.val] s t) ∧ t.vault = s.vault ∧ t.mem = s.mem ∧ t.lanes = s.lanes)) ∧
      (countsCw s L.val = true → tget nat0 s.time.runs (2 * L.val) < 9 → hist.length = 15 →
        Completes (.lineQualityWindow L cw corr uncorr sym hist) s (fun t =>
          t.reg (Reg.LAN_CNT_CW L.val) = BitVec.ofNat 64 (count40 (s.reg (Reg.LAN_CNT_CW L.val)).toNat cw) ∧ t.reg (Reg.LAN_CNT_CW_CORR L.val) = BitVec.ofNat 64 (count40 (s.reg (Reg.LAN_CNT_CW_CORR L.val)).toNat corr) ∧
          t.reg (Reg.LAN_CNT_CW_UNCORR L.val) = BitVec.ofNat 64 (count40 (s.reg (Reg.LAN_CNT_CW_UNCORR L.val)).toNat uncorr) ∧ t.reg (Reg.LAN_CNT_SYM L.val) = BitVec.ofNat 64 (count40 (s.reg (Reg.LAN_CNT_SYM L.val)).toNat sym) ∧
          (∀ k, k < 15 → t.reg (Reg.LAN_CNT_HIST L.val k) = BitVec.ofNat 64 (count40 (s.reg (Reg.LAN_CNT_HIST L.val k)).toNat (hist.getD k 0))) ∧
          tget nat0 t.time.runs (2 * L.val) = tget nat0 s.time.runs (2 * L.val) + 1 ∧ t = { s with regs := t.regs, page := t.page, out := t.out, time := { s.time with runs := t.time.runs } })))

/-- The lane orders of subsystem 1 (Table 07.9, R225, R300, R308, R309, R313): retraining, the eye scan and the PRBS test with their ends, a group's new grouping, and a port's counters as one cell. -/
def Obligations.LaneOrders : Prop :=
  ∀ (o : OrdBy) (s : State),
    (∀ (lane : W64) (L : Nat), laneArg lane.toNat = some L → let q := ordered 0x101 o [lane] s
      Accepted q s → s.mode ≠ 3 → laneMay s L = true → laneHolder s L = none → laneUp s L = false →
      Completes (.laneRetrain o lane) s (fun t => ∃ u, BringUp L (begun q s) u ∧ t = orderEnds q St.OK [] u)) ∧
    (∀ (lane cell : W64) (L : Nat), laneArg lane.toNat = some L → let q := ordered 0x102 o [lane, cell] s
      Accepted q s → s.mode ≠ 3 → lanePresent s L = true → laneHolder s L = none → laneUp s L = true → ordCellsOk q s cell.toNat 4096 = true →
      Completes (.laneEyeScan o lane cell) s (fun t => ∃ r, t = waiting q { begun q s with lanes := r, fore := { (begun q s).fore with claims := q.claim (.lane L) :: s.fore.claims } } ∧
        tget laneRun0 r L = { laneRun s L with scanAt := s.time.now, scanLost := false } ∧ ∀ M, M ≠ L → tget laneRun0 r M = laneRun s M)) ∧
    (∀ (lane pattern ms : W64) (L : Nat), laneArg lane.toNat = some L → let q := ordered 0x103 o [lane, pattern, ms] s
      Accepted q s → s.mode = 1 → lanePresent s L = true → laneHolder s L = none → (pattern.toNat < 3 ∨ pattern.toNat = 3 ∧ L = 72) → 0 < ms.toNat → ms.toNat ≤ 60000 →
      Completes (.lanePrbs o lane pattern ms) s (fun t => ∃ u, t = waiting q { u with fore := { u.fore with claims := q.claim (.lane L) :: u.fore.claims } } ∧
        laneState u L = 7 ∧ (laneRun u L).at_ = some s.time.up ∧ RegsBut [Reg.LAN_LANE_STATUS L] (begun q s) u ∧ u = { begun q s with regs := u.regs, lanes := u.lanes })) ∧
    (∀ (L : Fin 73) (bits errs : W64) (q : OrdReq), laneWait s 0x103 L.val = some q → s.live = true → prbsDue s L.val (q.arg 2) = true → laneMay s L.val = false → laneUp s L.val = false →
      Completes (.prbsDone L bits errs) s (fun t => ∃ u v w, Counted (Reg.LAN_CNT_PRBS_BITS L.val) bits.toNat s u ∧ Counted (Reg.LAN_CNT_PRBS_ERR L.val) errs.toNat u v ∧
        Raised Ev.PRBS_DONE [L.val, errs.toNat, bits.toNat]
          (setLaneState L.val 0 { v with fore := { v.fore with claims := v.fore.claims.filter (fun k => !(k.res == .lane L.val && k.code == 0x103)) } }) w ∧
        t = finishWait q St.OK [(16, errs), (17, bits)] w)) ∧
    (∀ (L : Fin 73) (points : Nat) (counts : List (BitVec 16)) (q : OrdReq), laneWait s 0x102 L.val = some q → s.live = true → (laneRun s L.val).scanLost = false →
      let all := if L.val = 72 then 672 else 2016
      let b := eyeCell (q.arg 0) (if L.val = 72 then 2 else if L.val < 64 then b2n (laneFast s (L.val / 8)) else 0) all (laneRun s L.val).scanAt (counts.take all)
      let s1 := { s with fore := { s.fore with claims := s.fore.claims.filter (fun k => !(k.res == .lane L.val && k.code == 0x102)) } }
      ordCellsOk q s (q.arg 1) b.length = true → (cellWrite (q.arg 1) b s1).1 = true →
      Completes (.eyeScanDone L points counts) s (fun t => ∃ u, Raised Ev.EYE_SCAN_DONE [L.val, 0] (cellWrite (q.arg 1) b s1).2 u ∧ t = finishWait q St.OK [] u)) ∧
    (∀ (group grouping : W64) (G v : Nat), G = group.toNat → v = grouping.toNat → let q := ordered 0x104 o [group, grouping] s
      Accepted q s → s.mode ≠ 3 → groupPresent s G = true → v < 16 → (4 ≤ G ∨ v % 8 ≠ 7) → sideRate (setGroup G v s) (G / 4) ≤ sideLimit s → trunkBroken (setGroup G v s) = false →
      groupHeld s G = none → (∀ i, i < 8 → laneUp s (8 * G + i) = false) → s.mode ≠ 2 →
      Completes (.portGroup o group grouping) s (fun t => ∃ u, t = orderEnds q St.OK [] u ∧ u.fld (Reg.LAN_GRP_CFG G) Fd.LAN_GRP_CFG_GROUPING = v % 8 ∧
        u.fld (Reg.LAN_GRP_CFG G) Fd.LAN_GRP_CFG_RATE = v / 8 ∧ (∀ i, i < 8 → laneState u (8 * G + i) = 0) ∧
        RegsBut (Reg.LAN_GRP_CFG G :: (groupLanesAll G).map Reg.LAN_LANE_STATUS) (begun q s) u ∧ u = { begun q s with regs := u.regs })) ∧
    (∀ (port cell : W64), let q := ordered 0x105 o [port, cell] s
      Accepted q s → s.mode ≠ 3 → port.toNat < 66 → (64 ≤ port.toNat ∨ groupPresent s (port.toNat / 8) = true) → ordCellsOk q s cell.toNat 4096 = true →
      (cellWrite cell.toNat (macPage s port.toNat) (begun q s)).1 = true →
      exec (.macCounters o port cell) s = .next (orderEnds q St.OK [] (cellWrite cell.toNat (macPage s port.toNat) (begun q s)).2))

/-! ## Orders on the line framer, the tables and the galleries (Table 07.9) -/

/-- TRIB_REMAP, EPOCH_CHANGE and EPOCH_RX_SET (R83, R85, R96, R98, R101, R223): a map that fits is committed for the next multiframe start, an epoch change is announced on the trunk it claims or deferred while the last one is too recent, and a receive count is set in the register, the attic and the trunk. -/
def Obligations.FramerOrders : Prop :=
  ∀ (o : OrdBy) (s : State),
    (∀ (trib lo hi : W64), let q := ordered 0x201 o [trib, lo, hi] s
      let t := trib.toNat % 64
      let dir := trib.toNat / 64
      Accepted q s → trib.toNat < 128 → remapFits s dir t (lo.toNat + hi.toNat * 2 ^ 64) = true → claimOn s (trunkRes dir (tribTrunk s dir t)) = none →
      exec (.tribRemap o trib lo hi) s = .next (orderEnds q St.OK [] { begun q s with lfr := { s.lfr with remaps := s.lfr.remaps ++ [(dir, t, lo.toNat, hi.toNat)] } })) ∧
    (∀ (trunk : W64), let q := ordered 0x202 o [trunk] s
      let n := trunk.toNat
      Accepted q s → n < 16 → txOn s n = true → groupOf s 0 n = [n] → claimOn s (.txTrunk n) = none →
      (tooSoon s n = false → Completes (.epochChange o trunk) s (fun t => ∃ x, t = waiting q { begun q s with lfr := { s.lfr with tx := x }, fore := { (begun q s).fore with claims := q.claim (.txTrunk n) :: s.fore.claims } } ∧
        tget txTrunk0 x n = { txTrunkOf s n with announcing := true, announced := 0, counted := false } ∧ ∀ m, m ≠ n → tget txTrunk0 x m = txTrunkOf s m)) ∧
      (tooSoon s n = true → s.fore.deferred.length < 32 → Completes (.epochChange o trunk) s (fun t =>
        t = { orderEnds q (St.DEFERRED + s.fore.nextTicket * 2 ^ 8) [] (begun q s) with
          fore := { (orderEnds q (St.DEFERRED + s.fore.nextTicket * 2 ^ 8) [] (begun q s)).fore with
            deferred := s.fore.deferred ++ [⟨s.fore.nextTicket, { q with t := 4 + s.fore.nextTicket }, false⟩], nextTicket := (s.fore.nextTicket + 1) % 2 ^ 24 } }))) ∧
    (∀ (trunk epoch : W64), let q := ordered 0x203 o [trunk, epoch] s
      let n := trunk.toNat
      Accepted q s → n < 16 → epoch.toNat < 2 ^ 32 → claimOn s (.rxTrunk n) = none → atticRO s 3 = false → (wearStep 3 blkEpochs s).2 = none →
      Completes (.epochRxSet o trunk epoch) s (fun t => ∃ u, t = orderEnds q St.OK [] u ∧ epochRx u n = epoch.toNat ∧ (rxTrunkOf u n).reject = false ∧
        tget nat0 u.attic.rxEpochs n = epoch.toNat ∧ (∀ m, m ≠ n → tget nat0 u.attic.rxEpochs m = tget nat0 s.attic.rxEpochs m) ∧
        RegsBut [Reg.LFR_TRUNK_EPOCH n] (begun q s) u ∧ u = { begun q s with
          regs := u.regs, lfr := { s.lfr with rx := u.lfr.rx }
          attic := { s.attic with rxEpochs := u.attic.rxEpochs, wear := u.attic.wear, spares := u.attic.spares, readonly := u.attic.readonly } }))

/-- TBL_ADD and TBL_DEL_IF on the peer table and the SCI table (R234, R236 to R238, R240, R241): the learns that reached the peer table before the order commit first; a present key takes the new result, a new key the place the hash gives it, a full bucket refuses; a removal only while the hit stamp is older than the order's. TBL_DMA_WRITE, TBL_COMPARE and TBL_READ (R242 to R244): every record is checked, after the learns that came before the order, before any is written, one that names a locked entry ends BUSY, a comparison reports its counts in g16 and g17 and raises COMPARE_DONE, and a read fills the cell. -/
def Obligations.TableOrders : Prop :=
  (∀ (o : OrdBy) (s : State) (key : W64),
      (∀ (result : W64), let q := ordered 0x301 o [0, key, result] s
        let u := settleLearns 0 (begun q s)
        Accepted q s → key.toNat < 2 ^ 60 → result.toNat < 2 ^ 28 →
        (s.cls.learnQ = [] → u = begun q s) ∧
        (∀ i p, findPeer u key.toNat = some (i, p) → exec (.tblAdd o 0 key result) s = .next (orderEnds q St.OK []
          { u with cls := { u.cls with peers := tset u.cls.peers i { p with res := result, hit := tblStamp s, learned := tblStamp s, contendedAt := none } } })) ∧
        (∀ i, findPeer u key.toNat = none → placeIn u.cls.peers (peerBuckets key.toNat) = some i → exec (.tblAdd o 0 key result) s = .next (orderEnds q St.OK []
          { u with cls := { u.cls with peers := tset u.cls.peers i ⟨key.toNat, result, tblStamp s, tblStamp s, false, none⟩ } })) ∧
        (findPeer u key.toNat = none → placeIn u.cls.peers (peerBuckets key.toNat) = none → exec (.tblAdd o 0 key result) s = .next (orderEnds q St.FULL [] u))) ∧
      (∀ (result : W64) (port : Nat) (r : W64), let q := ordered 0x301 o [2, key, result] s
        Accepted q s → result.toNat < 2 ^ 46 → port = result.toNat / 2 ^ 41 → r = BitVec.ofNat 64 (result.toNat % 2 ^ 41) → sciFits s port r = true →
        (∀ i e, findSci s port key.toNat = some (i, e) → exec (.tblAdd o 2 key result) s = .next (orderEnds q St.OK []
          { begun q s with cls := { s.cls with scis := tset s.cls.scis i { e with res := r } } })) ∧
        (∀ i, findSci s port key.toNat = none → placeIn s.cls.scis (sciBuckets port key.toNat) = some i → exec (.tblAdd o 2 key result) s = .next (orderEnds q St.OK []
          { begun q s with cls := { s.cls with scis := tset s.cls.scis i ⟨port, key.toNat, r, false⟩ } })) ∧
        (findSci s port key.toNat = none → placeIn s.cls.scis (sciBuckets port key.toNat) = none → exec (.tblAdd o 2 key result) s = .next (orderEnds q St.FULL [] (begun q s)))) ∧
      (∀ (stamp : W64), let q := ordered 0x302 o [0, key, stamp] s
        let u := settleLearns 0 (begun q s)
        Accepted q s →
        (∀ i p, findPeer u key.toNat = some (i, p) → p.hit < stamp.toNat → exec (.tblDelIf o 0 key stamp) s = .next (orderEnds q St.OK [] { u with cls := { u.cls with peers := tdel u.cls.peers i } })) ∧
        (∀ i p, findPeer u key.toNat = some (i, p) → stamp.toNat ≤ p.hit → exec (.tblDelIf o 0 key stamp) s = .next (orderEnds q St.HIT_RACE [] u)) ∧
        (findPeer u key.toNat = none → exec (.tblDelIf o 0 key stamp) s = .next (orderEnds q St.NOT_FOUND [] u))) ∧
      (∀ (port : W64), let q := ordered 0x302 o [2, key, port] s
        Accepted q s → port.toNat < 32 →
        (∀ i e, findSci s port.toNat key.toNat = some (i, e) →
          exec (.tblDelIf o 2 key port) s = .next (orderEnds q St.OK [] { begun q s with cls := { s.cls with scis := tdel s.cls.scis i } })) ∧
        (findSci s port.toNat key.toNat = none → exec (.tblDelIf o 2 key port) s = .next (orderEnds q St.NOT_FOUND [] (begun q s)))) ∧
      (∀ (table a : W64), table ≠ 0 → table ≠ 2 →
        (Accepted (ordered 0x301 o [table, key, a] s) s → exec (.tblAdd o table key a) s = .next (orderEnds (ordered 0x301 o [table, key, a] s) St.UNSUPPORTED [] (begun (ordered 0x301 o [table, key, a] s) s))) ∧
        (Accepted (ordered 0x302 o [table, key, a] s) s → exec (.tblDelIf o table key a) s = .next (orderEnds (ordered 0x302 o [table, key, a] s) St.UNSUPPORTED [] (begun (ordered 0x302 o [table, key, a] s) s))))) ∧
  (∀ (o : OrdBy) (s : State) (table cell n : W64), table.toNat < 3 → n.toNat ≤ tblSize table.toNat →
      let recs := (List.range n.toNat).map (fun i => parseRec table.toNat (recBytes s table.toNat cell.toNat i))
      (let q := ordered 0x303 o [table, cell, n] s;
        let v := settleLearns table.toNat (begun q s);
        Accepted q s → (recsBar q s table.toNat cell.toNat n.toNat).isNone = true →
        (recs.all (recFits v table.toNat) = true → recsDistinct table.toNat recs = true → recs.any (fun r => recLocked v table.toNat r.index) = false → Completes (.tblDmaWrite o table cell n) s (fun t => ∃ u, t = orderEnds q St.OK [] { v with cls := u } ∧
          (∀ r ∈ recs, r.valid = false → table.toNat = 0 → tfind u.peers r.index = none) ∧ (∀ r ∈ recs, r.valid = true → table.toNat = 0 → tfind u.peers r.index = some ⟨r.key, r.res, tblStamp s, tblStamp s, false, none⟩) ∧
          (∀ r ∈ recs, r.valid = true → table.toNat = 1 → tfind u.rules r.index = some ⟨r.key, r.mask, r.res, false⟩) ∧
          (∀ r ∈ recs, r.valid = true → table.toNat = 2 → tfind u.scis r.index = some ⟨r.port, r.key, r.res, false⟩) ∧
          (∀ i, (∀ r ∈ recs, r.index ≠ i) → tfind u.peers i = tfind v.cls.peers i ∧ tfind u.rules i = tfind v.cls.rules i ∧ tfind u.scis i = tfind v.cls.scis i) ∧
          u = { v.cls with peers := u.peers, rules := u.rules, scis := u.scis })) ∧
        (recs.all (recFits v table.toNat) = true → recsDistinct table.toNat recs = true → recs.any (fun r => recLocked v table.toNat r.index) = true → exec (.tblDmaWrite o table cell n) s = .next (orderEnds q St.BUSY [] v)) ∧
        (recs.all (recFits v table.toNat) = false ∨ recsDistinct table.toNat recs = false → exec (.tblDmaWrite o table cell n) s = .next (orderEnds q St.UNSUPPORTED [] v))) ∧
      (∀ (rep : W64), let q := ordered 0x304 o [table, cell, n, rep] s
        Accepted q s → rep.toNat ≤ 1 → (recsBar q s table.toNat cell.toNat n.toNat).isNone = true → recs.all (fun r => decide (r.index < tblSize table.toNat)) = true →
        let acc := (List.range n.toNat).foldl (compareOne table.toNat cell.toNat (rep.toNat == 1)) (0, 0, if rep.toNat = 1 then settleLearns table.toNat (begun q s) else begun q s)
        Completes (.tblCompare o table cell n rep) s (fun t => ∃ u, Raised Ev.COMPARE_DONE [table.toNat, n.toNat, acc.1, acc.2.1] acc.2.2 u ∧
          t = orderEnds q St.OK [(16, BitVec.ofNat 64 acc.1), (17, BitVec.ofNat 64 acc.2.1)] u)) ∧
      (∀ (index : W64), let q := ordered 0x305 o [table, index, n, cell] s
        Accepted q s → index.toNat + n.toNat ≤ tblSize table.toNat → (recCells table.toNat cell.toNat n.toNat).all (ordCellOk q s) = true →
        (readOut table.toNat index.toNat cell.toNat n.toNat 0 (begun q s)).1 = true →
        exec (.tblRead o table index n cell) s = .next (orderEnds q St.OK [] (readOut table.toNat index.toNat cell.toNat n.toNat 0 (begun q s)).2)))

/-- The gallery orders (R157, R158, R161, R191, R197, R209, R211): an image goes into an epoch that nothing uses, dispatch moves to a loaded epoch, a gallery drains or restores, and the program state memory and the program counters are read and written as cells. -/
def Obligations.GalleryOrders : Prop :=
  ∀ (o : OrdBy) (s : State),
    (∀ (epoch att : W64), let q := ordered 0x401 o [epoch, att] s
      let e := epoch.toNat
      let b := q.atts.getD att.toNat []
      Accepted q s → e < 4 → b ≠ [] → s.gal.restoring = [] → s.gal.draining.any (resetDue s) = false → claimOn s .store = none → e ≠ dispatchEpoch s → epochCount s e = 0 → imageFits b = true → imageLoads (imageFrom b) = true →
      Completes (.progLoad o epoch att) s (fun t => ∃ u, t = orderEnds q St.OK [] u ∧ imageOf u e = some (imageFrom b) ∧ (∀ j, j ≠ e → imageOf u j = imageOf s j) ∧
        (∀ j, j < 4 → nbit (loadedMap u) j = (decide (j = e) || nbit (loadedMap s) j)) ∧ dispatchEpoch u = dispatchEpoch s ∧ RegsBut [Reg.GAL_EPOCH] (begun q s) u ∧
        u = { begun q s with regs := u.regs, gal := { s.gal with images := u.gal.images } })) ∧
    (∀ (epoch : W64), let q := ordered 0x402 o [epoch] s
      let e := epoch.toNat
      Accepted q s → e < 4 → nbit (loadedMap s) e = true →
      Completes (.epochSet o epoch) s (fun t => ∃ u v, t = orderEnds q St.OK [] v ∧ dispatchEpoch u = e ∧ loadedMap u = loadedMap s ∧ RegsBut [Reg.GAL_EPOCH] (begun q s) u ∧
        u = { begun q s with regs := u.regs } ∧ (dispatchEpoch s = e → v = u) ∧
        (dispatchEpoch s ≠ e → Raised Ev.EPOCH_ACTIVE [dispatchEpoch s, e, ((imageOf s e).map (fun im => im.build)).getD 0] u v))) ∧
    (∀ (epoch : W64), let q := ordered 0x402 o [epoch] s
      Accepted q s → 4 ≤ epoch.toNat ∨ nbit (loadedMap s) epoch.toNat = false → exec (.epochSet o epoch) s = .next (orderEnds q St.UNSUPPORTED [] (begun q s))) ∧
    (∀ (g : W64), let q := ordered 0x403 o [g] s
      Accepted q s → g.toNat < 64 → nbit (galPresent s) g.toNat = true → s.mode = 2 → claimOn s (.gallery g.toNat) = none →
      exec (.galleryReset o g) s = .next (waiting q { begun q s with
        fore := { (begun q s).fore with claims := q.claim (.gallery g.toNat) :: s.fore.claims }
        gal := if nbit (s.reg Reg.GAL_ONLINE).toNat g.toNat then { s.gal with draining := s.gal.draining ++ [g.toNat] } else { s.gal with restoring := s.gal.restoring ++ [g.toNat] } })) ∧
    (∀ (index words cell : W64), let q := ordered 0x404 o [index, words, cell, 0] s
      let b := (List.range words.toNat).flatMap (fun k => natBe 8 (readState s k (index.toNat + k)).toNat)
      let u := { begun q s with draws := s.draws + words.toNat }
      Accepted q s → words.toNat ≤ 512 → index.toNat + words.toNat ≤ 2 ^ 18 → ordCellsOk q s cell.toNat b.length = true → (cellWrite cell.toNat b u).1 = true →
      exec (.stateAccessRead o index words cell) s = .next (orderEnds q St.OK [] (cellWrite cell.toNat b u).2)) ∧
    (∀ (index words cell : W64) (b : Bytes), let q := ordered 0x404 o [index, words, cell, 1] s
      Accepted q s → words.toNat ≤ 512 → index.toNat + words.toNat ≤ 2 ^ 18 → ordRead q s cell.toNat (8 * words.toNat) = some b →
      Completes (.stateAccessWrite o index words cell) s (fun t => ∃ u, t = orderEnds q St.OK [] { begun q s with gal := u } ∧ u = { s.gal with state := u.state, poison := u.poison } ∧
        (∀ k, k < words.toNat → tget w640 u.state (index.toNat + k) = BitVec.ofNat 64 (be b (8 * k) 8) ∧ index.toNat + k ∉ u.poison) ∧
        (∀ i, i < index.toNat ∨ index.toNat + words.toNat ≤ i → tget w640 u.state i = tget w640 s.gal.state i ∧ (i ∈ u.poison ↔ i ∈ s.gal.poison)))) ∧
    (∀ (first pairs cell : W64), let q := ordered 0x405 o [first, pairs, cell] s
      let b := (List.range (2 * pairs.toNat)).flatMap (fun k => natBe 8 (tget nat0 s.gal.pcnt (2 * first.toNat + k)))
      Accepted q s → pairs.toNat ≤ 256 → first.toNat + pairs.toNat ≤ 131072 → ordCellsOk q s cell.toNat b.length = true → (cellWrite cell.toNat b (begun q s)).1 = true →
      exec (.pcntRead o first pairs cell) s = .next (orderEnds q St.OK [] (cellWrite cell.toNat b (begun q s)).2))

/-! ## Association records and keys (chapters 02 and 04) -/

/-- The orders on association records (R42, R43, R51 to R57, R65, R284, R287, R374): what each leaves in its record, and that no other record changes; a write whose key-map word cannot be written ends ABORTED with the words as they were. -/
def Obligations.AssocOrders : Prop :=
  ∀ (o : OrdBy) (s : State) (assoc : W64) (a : Nat) (r : ARec), a = assoc.toNat → r = arec s a → a < 2 ^ 20 → claimOn s (.record a) = none → r.ans.length = 4 → isTubRec s a = false →
    let mapOk := (mayWrite (mapWordAt a / 256) 16 s).1
    (∀ (cell : W64) (b : Bytes), let q := ordered 0x410 o [assoc, cell] s
      let w := assocParts false b
      Accepted q s → ordRead q s cell.toNat 272 = some b →
      (assocFits false w = false → exec (.assocWrite o assoc cell) s = .next (orderEnds q St.UNSUPPORTED [] (begun q s))) ∧
      (assocFits false w = true → assocMoves false r w = true → r.used = true → exec (.assocWrite o assoc cell) s = .next (answer q.t q.rd (busyWord (noHolder (.record a))) [] (begun q s))) ∧
      (assocFits false w = true → r.used = false → r.memBad = false → Completes (.assocWrite o assoc cell) s (fun t => ∃ u, t = orderEnds q (if mapOk then St.OK else St.ABORTED) [] u ∧
        RecordsStored (begun q s) u ∧ RecordBut a s u ∧
        arec u a = { r with sci := w.sci, limit := w.limit, window := w.window, warn := w.warn, ctrl := (r.ctrl &&& ~~~ 0xF9FFF) ||| (w.ctrl &&& 0xF9FFF), ans := if mapOk then putMaps b r.ans else r.ans }))) ∧
    (∀ (an slot pn lowest ssci saltCell : W64) (i salt : Nat), i = an.toNat → let q := ordered 0x411 o [assoc, an, slot, pn, lowest, ssci, saltCell] s
      Accepted q s → i < 4 → portInstalls s a = true → installFits false r pn.toNat lowest.toNat slot.toNat = true → installSalt s q false = some salt → (r.an i).valid = false → (r.an i).inflight = 0 → mapOk = true →
      Completes (.anInstall o assoc an slot pn lowest ssci saltCell) s (fun t => ∃ u, t = orderEnds q St.OK [(23, BitVec.ofNat 64 (twinF s Fd.TWN_STATUS_ROLE_EPOCH))] u ∧
        RecordsStored (begun q s) u ∧ RecordBut a s u ∧ (∀ j, j ≠ i → (arec u a).an j = r.an j) ∧
        ((arec u a).an i).valid = true ∧ ((arec u a).an i).retiring = false ∧ ((arec u a).an i).inflight = 0 ∧ ((arec u a).an i).nextPn = pn.toNat ∧
        ((arec u a).an i).lowestPn = (if r.c AC.DIR = 1 then lowest.toNat else 0) ∧ ((arec u a).an i).dupMap = 0 ∧
        (slot.toNat.testBit 20 = false → ((arec u a).an i).slot = slot.toNat ∧ ((arec u a).an i).map = 0) ∧
        (slot.toNat.testBit 20 = true → ((arec u a).an i).map = BitVec.ofNat 32 (slot.toNat % 2 ^ 21)) ∧
        ((arec u a).an i).ssci = (if xpn r.ctrl then ssci.toNat % 2 ^ 32 else 0) ∧ ((arec u a).an i).salt = (if xpn r.ctrl then salt else 0) ∧
        (r.c AC.STATE = 0 → (arec u a).c AC.STATE = 1) ∧ (r.c AC.STATE ≠ 0 → (arec u a).ctrl = r.ctrl))) ∧
    (∀ (an slot pn lowest ssci saltCell : W64), let q := ordered 0x411 o [assoc, an, slot, pn, lowest, ssci, saltCell] s
      Accepted q s → pn = 0 ∨ (r.c AC.DIR = 1 ∧ pn.toNat < lowest.toNat) → exec (.anInstall o assoc an slot pn lowest ssci saltCell) s = .next (orderEnds q St.UNSUPPORTED [] (begun q s))) ∧
    (∀ (sel : W64) (cur next nv : Nat), sel.toNat = cur + 4 * next + 16 * nv → cur < 4 → next < 4 → nv < 2 → let q := ordered 0x412 o [assoc, sel] s
      Accepted q s → r.c AC.DIR = 0 → (r.an cur).valid = true → (nv = 1 → (r.an next).valid = true) →
      (cur = r.c AC.CUR_AN → Completes (.anSelect o assoc sel) s (fun t => ∃ u, t = orderEnds q St.OK [] u ∧ RecordsStored (begun q s) u ∧ RecordBut a s u ∧
        (arec u a).c AC.NEXT_AN = next ∧ (arec u a).c AC.NEXT_VALID = nv ∧ (arec u a).c AC.CUR_AN = cur ∧ (arec u a).ans = r.ans)) ∧
      (∀ old, old = r.c AC.CUR_AN → cur ≠ old → (r.an old).valid = true → (r.an old).retiring = false → (r.an old).inflight ≠ 0 → r.c AC.STATE = 1 →
        Completes (.anSelect o assoc sel) s (fun t => ∃ u v x, t = orderEnds q St.OK [] u ∧ Raised Ev.KEY_SWITCHED [a, cur, (r.an cur).nextPn] { begun q s with assoc := x } v ∧ RecordsStored v u ∧ RecordBut a s u ∧
          (arec u a).c AC.CUR_AN = cur ∧ (arec u a).c AC.NEXT_AN = next ∧ (arec u a).c AC.NEXT_VALID = nv ∧ ((arec u a).an old).retiring = true ∧ ((arec u a).an cur).retiring = false ∧
          ∀ j, j ≠ old → j ≠ cur → (arec u a).an j = r.an j))) ∧
    (∀ (an : W64) (i : Nat), i = an.toNat → let q := ordered 0x413 o [assoc, an] s
      Accepted q s → i < 4 → (r.c AC.NEXT_VALID = 0 ∨ r.c AC.DIR = 1) →
      ((r.an i).valid = true → (r.an i).retiring = false → (r.an i).inflight ≠ 0 → r.c AC.DIR = 1 → Completes (.anRetire o assoc an) s (fun t => ∃ u, RecordsStored (begun q s) u ∧ RecordBut a s u ∧
        t = waiting q { u with fore := { u.fore with claims := q.claim (.record a) :: s.fore.claims } } ∧ arec u a = r.setAn i { r.an i with valid := false, retiring := true })) ∧
      ((r.an i).valid = true → (r.an i).retiring = false → (r.an i).inflight ≠ 0 → r.c AC.DIR = 0 → r.c AC.NEXT_VALID = 0 → Completes (.anRetire o assoc an) s (fun t => ∃ u, RecordsStored (begun q s) u ∧ RecordBut a s u ∧
        t = waiting q { u with fore := { u.fore with claims := q.claim (.record a) :: s.fore.claims } } ∧ arec u a = r.setAn i { r.an i with retiring := true })) ∧
      ((r.an i).valid = false → (r.an i).inflight = 0 → exec (.anRetire o assoc an) s = .next (orderEnds q St.OK [] (begun q s)))) ∧
    (∀ (cell : W64), let q := ordered 0x414 o [assoc, cell] s
      let b := recordBytes s a ++ r.ans.flatMap (fun e => natBe 4 e.map.toNat)
      Accepted q s → o.ecc ≠ .bad → (readCells [recordAt a / 256, mapWordAt a / 256] o.ecc s).1 = true → ordCellsOk q s cell.toNat b.length = true → (cellWrite cell.toNat b (begun q s)).1 = true →
      exec (.assocRead o assoc cell) s = .next (orderEnds q St.OK [] (setArec a { r with maxLag := 0 } (cellWrite cell.toNat b (begun q s)).2))) ∧
    (∀ (cell : W64), let q := ordered 0x415 o [assoc, cell] s
      Accepted q s → ordCellsOk q s cell.toNat (counterBytes r).length = true → (cellWrite cell.toNat (counterBytes r) (begun q s)).1 = true →
      exec (.assocCounters o assoc cell) s = .next (orderEnds q St.OK [] (cellWrite cell.toNat (counterBytes r) (begun q s)).2))

/-- The traffic key orders (R110, R115, R118, R121, R127, R128, R483, R484): a key from a blob, from the random source or derived from a deep slot, its loss, and its attributes. -/
def Obligations.SlotOrders : Prop :=
  ∀ (o : OrdBy) (s : State) (slot : W64) (n : Nat), n = slot.toNat →
    (∀ (cell : W64) (b : Bytes), let q := ordered 0x501 o [slot, cell] s
      let x := openBlob .install b s
      Accepted q s → SlotOpen n s → ordRead q s cell.toNat 80 = some b → DeepGood (be b 8 2 % 64) s → x.res = 0 → standOk x.attr = true → reached s x.expiry = false →
      Completes (.keyInstall o slot cell) s (fun t => ∃ u, t = orderEnds q St.OK [(23, BitVec.ofNat 64 (twinF s Fd.TWN_STATUS_ROLE_EPOCH))] u ∧
        KeyWritten n x.key x.attr x.expiry (some ⟨true, x.parent, x.pgen, b2n (dBit s x.parent 8)⟩) none (begun q s) u)) ∧
    (∀ (attr : W64), let q := ordered 0x502 o [slot, attr] s
      Accepted q s → SlotOpen n s → attrOk attr.toNat = true →
      Completes (.keyGenerate o slot attr) s (fun t => ∃ u, t = orderEnds q St.OK [(16, slot), (23, BitVec.ofNat 64 (twinF s Fd.TWN_STATUS_ROLE_EPOCH))] u ∧
        KeyWritten n ((natBe 64 s.draw.toNat).take (keyLen attr.toNat)) attr.toNat 0 none none (begun q s).drew u)) ∧
    (∀ (parent cell len attr : W64) (d : Nat) (ctx : Bytes), parent.toNat = 0x8000 + d → d = 0 ∨ 8 ≤ d → d < 64 → let q := ordered 0x503 o [parent, slot, cell, len, attr] s
      Accepted q s → DeepGood d s → SlotOpen n s → 0 < len.toNat → len.toNat ≤ 32 → attrOk attr.toNat = true → dBit s d 0 = true → dBit s d 6 = true → ordRead q s cell.toNat len.toNat = some ctx →
      Completes (.keyDerive o parent slot cell len attr) s (fun t => ∃ u, t = orderEnds q St.OK [(17, slot), (23, BitVec.ofNat 64 (twinF s Fd.TWN_STATUS_ROLE_EPOCH))] u ∧
        KeyWritten n (kdf (deep256 s d) (ascii "BD3208 DERIVE") ctx (8 * keyLen attr.toNat)) attr.toNat 0 (some ⟨true, d, (deepOf s d).g DS.GEN, (deepOf s d).g DS.CASCADE⟩) none (begun q s) u)) ∧
    (∀ (parent cell len attr : W64) (d : Nat), parent.toNat = 0x8000 + d → 1 ≤ d → d ≤ 7 → let q := ordered 0x503 o [parent, slot, cell, len, attr] s
      Accepted q s → n < pinTop s → n < 16384 → exec (.keyDerive o parent slot cell len attr) s = .next (orderEnds q St.UNSUPPORTED [] (begun q s))) ∧
    (let q := ordered 0x504 o [slot] s;
      Accepted q s →
      (n < 16384 → claimOn s (.slot n) = none → (slotOf s n).valid = true → Completes (.keyInvalidate o slot) s (fun t => ∃ u, t = orderEnds q St.OK [] u ∧ Invalidated n 1 (begun q s) u)) ∧
      (∀ d, n = 0x8000 + d → 5 ≤ d → d ≠ 7 → d < 64 → claimOn s (.deep d) = none → dBit s d 0 = true → Completes (.keyInvalidate o slot) s (fun t => ∃ u, t = orderEnds q St.OK [] u ∧
        dBit u d 0 = false ∧ deepKey u d = 0 ∧ (deepOf u d).g DS.GEN = min ((deepOf s d).g DS.GEN + 1) 0xFFFF ∧ DeepBut d s u ∧
        u = { begun q s with vault := { s.vault with deep := u.vault.deep, sweeps := s.vault.sweeps ++ [⟨true, d, (deepOf s d).g DS.GEN, 0⟩] } })) ∧
      (∀ d, n = 0x8000 + d → d ≤ 4 → claimOn s (.deep d) = none → exec (.keyInvalidate o slot) s = .next (orderEnds q St.DENIED [] (begun q s)))) ∧
    (∀ (expiry flags : W64), let q := ordered 0x505 o [slot, expiry, flags] s
      Accepted q s → n < 16384 → claimOn s (.slot n) = none → (slotOf s n).valid = true → expiry.toNat < 2 ^ 32 → flags.toNat < 2 → reached s expiry.toNat = false →
      Completes (.keyAttr o slot expiry flags) s (fun t => ∃ u, t = orderEnds q St.OK [] u ∧ (slotOf u n).g0 TS.CASCADE = flags.toNat ∧ (slotOf u n).g0 TS.STANDING_OK = 0 ∧
        (slotOf u n).g2 TS.EXPIRY = expiry.toNat ∧ (slotOf u n).valid = true ∧ (slotOf u n).key = (slotOf s n).key ∧ (slotOf u n).w1 = (slotOf s n).w1 ∧ slotWhole u n = true ∧ SlotBut n s u ∧
        u = { begun q s with vault := { s.vault with slots := u.vault.slots } }))

/-- The orders on deep slots, the cellar and the standing blobs (R112, R113, R121, R126, R130): the public key, an imported key, blobs written and removed. The MKA key orders (R64, Table 02.9): the ICK and KEK of a CAK, a generated SAK that leaves wrapped under the KEK, and a distributed SAK that unwraps. -/
def Obligations.DeepAndMkaOrders : Prop :=
  (∀ (o : OrdBy) (s : State),
      (∀ (cell : W64), let q := ordered 0x506 o [cell] s
        let b := slice (Config.kemPublic (deepKey s 2)) 0 1568
        Accepted q s → dBit s 2 0 = true → DeepGood 2 s → ordCellsOk q s cell.toNat b.length = true → (cellWrite cell.toNat b (begun q s)).1 = true →
        exec (.kemPublic o cell) s = .next (orderEnds q St.OK [] (cellWrite cell.toNat b (begun q s)).2)) ∧
      (∀ (dArg cell : W64) (d : Nat) (b : Bytes), d = dArg.toNat → let q := ordered 0x507 o [dArg, cell, 0] s
        let x := openBlob .deepImport b s
        Accepted q s → 5 ≤ d → d ≠ 7 → d < 64 → claimOn s (.deep d) = none → ordRead q s cell.toNat 112 = some b → DeepGood (be b 8 2 % 64) s → x.res = 0 → deepUseOk d x.attr = true → dBit s d 0 = false →
        (deepOf s d).g DS.GEN < 0xFFFF →
        Completes (.deepImport o dArg cell 0) s (fun t => ∃ u, t = orderEnds q St.OK [(23, BitVec.ofNat 64 (twinF s Fd.TWN_STATUS_ROLE_EPOCH))] u ∧ dBit u d 0 = true ∧
          deepKey u d = deepKeyOf (x.key.take (if nbit x.attr 4 then 64 else 32)) ∧ (deepOf u d).g DS.GEN = (deepOf s d).g DS.GEN ∧ (deepOf u d).g DS.SOURCE = 3 ∧
          nbits (deepOf u d).w.toNat 4 11 = nbits x.attr 4 11 ∧ (deepOf u d).g DS.LAST_REMASK = s.seconds ∧ DeepBut d s u ∧
          u = { (begun q s).drew with vault := { s.vault with deep := u.vault.deep } })) ∧
      (∀ (cell blobs : W64), let q := ordered 0x508 o [cell, blobs] s
        let bs := (List.range blobs.toNat).map (putBlob q s)
        let u := (writeBlobs bs 0 none (begun q s)).2.2
        Accepted q s → blobs.toNat ≤ 4096 → (ordRead q s cell.toNat (128 * blobs.toNat)).isSome = true → (∀ b ∈ bs, blobHandle b < 2 ^ 20) → putClash s [] bs = [] →
        (writeBlobs bs 0 none (begun q s)).2.1 = none →
        exec (.cellarPut o cell blobs) s = .next (orderEnds q St.OK [(23, BitVec.ofNat 64 (twinF u Fd.TWN_STATUS_ROLE_EPOCH))] u)) ∧
      (∀ (handle : W64), let q := ordered 0x509 o [handle] s
        let h := handle.toNat
        Accepted q s → h < 2 ^ 20 → claimOn s (.handle h) = none →
        (handleNamed s h = false → cellarUsed s h = true → (memWrite (blobAt h) (zeros 128) .good (begun q s)).1 = true →
          exec (.cellarDelete o handle) s = .next (orderEnds q St.OK [] (memWrite (blobAt h) (zeros 128) .good (begun q s)).2)) ∧
        (handleNamed s h = false → cellarUsed s h = false → exec (.cellarDelete o handle) s = .next (orderEnds q St.NOT_FOUND [] (begun q s)))) ∧
      (∀ (slot index : W64) (d i : Nat), slot.toNat = 0x8000 + d → i = index.toNat → let q := ordered 0x50A o [slot, index] s
        Accepted q s → d < 64 → d ≠ 7 → i < 256 → standingOf s i = [] → dBit s 1 0 = true → DeepGood 1 s → dBit s d 0 = true → DeepGood d s → (deepOf s d).g DS.STANDING_OK = 1 → AtticTakes (blkStanding i) s →
        Completes (.standingSave o slot index) s (fun t => ∃ u v, t = orderEnds q St.OK [] u ∧ Worn (begun q s) v ∧
          u = { v with attic := { v.attic with standing := u.attic.standing } } ∧ (∀ j, j ≠ i → standingOf u j = standingOf s j) ∧
          standingOf u i = standingBlob s i (0x8000 + d) (deepBytes s d) (nbits (deepOf s d).w.toNat 4 11 * 16) 0)) ∧
      (∀ (index : W64) (i : Nat), i = index.toNat → let q := ordered 0x50B o [index] s
        Accepted q s → i < 256 →
        (standingOf s i ≠ [] → AtticTakes (blkStanding i) s → Completes (.standingDelete o index) s (fun t => ∃ u v, t = orderEnds q St.OK [] u ∧ Worn (begun q s) v ∧
          u = { v with attic := { v.attic with standing := u.attic.standing } } ∧ (∀ j, j ≠ i → standingOf u j = standingOf s j) ∧ standingOf u i = [])) ∧
        (standingOf s i = [] → exec (.standingDelete o index) s = .next (orderEnds q St.NOT_FOUND [] (begun q s))))) ∧
  (∀ (o : OrdBy) (s : State) (key : W64) (k : Nat), k = key.toNat → k < 16384 →
      let t0 := slotOf s k
      let src : KeyFrom := ⟨false, k, t0.g1 TS.GEN, t0.g0 TS.CASCADE⟩
      (∀ (cell ick kek : W64) (ckn : Bytes), let q := ordered 0x510 o [key, cell, ick, kek] s
        let bits := if t0.g0 TS.LEN = 1 then 256 else 128
        Accepted q s → SlotOpen ick.toNat s → SlotOpen kek.toNat s → ick ≠ kek → ordRead q s cell.toNat 16 = some ckn → (useKey k (some TS.U_DERIVE) q.caller (slotWhole s k) s).1 = 0 →
        t0.g0 TS.ORPHAN = 0 → t0.g0 TS.KCLASS = 1 →
        Completes (.mkaDerive o key cell ick kek) s (fun t => ∃ u v, t = orderEnds q St.OK [(18, ick), (19, kek)] v ∧
          KeyWritten ick.toNat (mkaKdf t0.bytes (ascii "IEEE8021 ICK") ckn bits) (mkaAttr 2 (useBit TS.EXPORT) (t0.g0 TS.LEN) (t0.g0 TS.OWNER_FN)) 0 (some src) none (begun q s) u ∧
          KeyWritten kek.toNat (mkaKdf t0.bytes (ascii "IEEE8021 KEK") ckn bits) (mkaAttr 3 (useBit TS.U_WRAP) (t0.g0 TS.LEN) (t0.g0 TS.OWNER_FN)) 0 (some src) none u v)) ∧
      (∀ (target cell : W64), let q := ordered 0x511 o [key, target, cell] s
        let sak := (natBe 64 s.draw.toNat).take t0.bytes.length
        let w := keyWrap t0.bytes sak
        Accepted q s → SlotOpen target.toNat s → (useKey k (some TS.U_WRAP) q.caller (slotWhole s k) s).1 = 0 → t0.g0 TS.ORPHAN = 0 → t0.g0 TS.KCLASS = 3 →
        ordCellsOk q s cell.toNat w.length = true → (cellWrite cell.toNat w (begun q s).drew).1 = true →
        Completes (.mkaSakGen o key target cell) s (fun t => ∃ u, t = orderEnds q St.OK [(17, target)] u ∧
          KeyWritten target.toNat sak (sakAttr s k (b2n (t0.bytes.length == 32))) 0 none none (cellWrite cell.toNat w (begun q s).drew).2 u)) ∧
      (∀ (target cell : W64) (b sak : Bytes), let q := ordered 0x512 o [key, target, cell] s
        Accepted q s → SlotOpen target.toNat s → (useKey k (some TS.U_WRAP) q.caller (slotWhole s k) s).1 = 0 → t0.g0 TS.ORPHAN = 0 → t0.g0 TS.KCLASS = 3 →
        ordRead q s cell.toNat 40 = some b → distributedSak t0.bytes b = some sak →
        Completes (.mkaSakUnwrap o key target cell) s (fun t => ∃ u, t = orderEnds q St.OK [(17, target)] u ∧
          KeyWritten target.toNat sak (sakAttr s k (b2n (sak.length == 32))) 0 (some src) none (begun q s) u)))

/-- The vault's own commands (R114, R116 to R119, R122 to R125, R127 to R129, R161): expiry, a bad slot, zeroization, the cascade sweep, a fresh mask, a fill, and a gallery that comes back. -/
def Obligations.VaultCommands : Prop :=
  ∀ s : State, s.live = true →
    (∀ n : Fin 16384, (slotOf s n.val).valid = true → reached s ((slotOf s n.val).g2 TS.EXPIRY) = true →
      (inCaution s = false → Completes (.keyExpired n) s (fun t => ∃ u, Invalidated n.val 3 s u ∧ Raised Ev.KEY_EXPIRED [n.val] u t)) ∧
      (inCaution s = true → exec (.keyExpired n) s = .next { s with guard := { s.guard with held := if s.guard.held.contains (.expire n.val) then s.guard.held else s.guard.held ++ [.expire n.val] } })) ∧
    (∀ n : Fin 16384, (slotOf s n.val).valid = true → takes (monCode 0x11) s = true → effective s 0x11 ≤ 1 → Completes (.slotSweep [n] []) s (fun t => ∃ u v,
      Invalidated n.val 4 s u ∧ Counted Reg.SRM_CNT_SLOT_BAD 1 u v ∧ Warned 0x11 [n.val] v t)) ∧
    (∀ n : Fin 16384, (slotOf s n.val).valid = false → inUse s n.val = false → (slotOf s n.val).key ≠ 0 → Completes (.slotZeroize n) s (fun t => (slotOf t n.val).key = 0 ∧
      (slotOf t n.val).w0 = (slotOf s n.val).w0 ∧ (slotOf t n.val).w1 = (slotOf s n.val).w1 ∧ slotWhole t n.val = true ∧ SlotBut n.val s t ∧
      t = { s with vault := { s.vault with slots := t.vault.slots } })) ∧
    (∀ (deep : Bool) (n : Fin 16384) (w : Sweep), s.vault.sweeps.find? (fun w => w.deep == deep && w.slot == n.val) = some w → inCaution s = false → Completes (.cascadeSweep deep n) s (fun t =>
      let child := fun (x : TSlot) => x.valid && x.g1 TS.HAS_PARENT == 1 && (x.g1 TS.PARENT_DEEP == 1) == w.deep && x.g1 TS.PARENT_SLOT == w.slot && x.g1 TS.PARENT_GEN == w.gen
      (∀ m, child (slotOf t m) = true → (slotOf t m).g0 TS.WOP ≠ 1 ∧ (slotOf t m).g0 TS.ORPHAN = 1) ∧ (∀ m, child (slotOf s m) = false → slotOf t m = slotOf s m) ∧
      (∀ m, child (slotOf s m) = true → (slotOf s m).g0 TS.WOP = 1 → (slotOf t m).valid = false ∧ (slotOf t m).g0 TS.CAUSE = 2) ∧
      ∃ x y, Logged { s with vault := { s.vault with slots := x, sweeps := y } } t)) ∧
    (∀ d : Fin 64, dBit s d.val 0 = true → inCaution s = false → DeepGood d.val s → Completes (.deepRemask d true) s (fun t => deepKey t d.val = deepKey s d.val ∧ dBit t d.val 0 = true ∧
      (deepOf t d.val).mask = maskFor (dBit s d.val 4) s ∧ (deepOf t d.val).g DS.GEN = (deepOf s d.val).g DS.GEN ∧ (deepOf t d.val).g DS.LAST_REMASK = s.seconds ∧ DeepBut d.val s t ∧
      t = { s.drew with vault := { s.vault with deep := t.vault.deep } })) ∧
    (inCaution s = true →
      (∀ d : Fin 64, dBit s d.val 0 = true → .remask d.val true ∉ s.guard.held → exec (.deepRemask d true) s = .next { s with guard := { s.guard with held := s.guard.held ++ [.remask d.val true] } }) ∧
      (∀ (deep : Bool) (n : Fin 16384), (s.vault.sweeps.find? (fun w => w.deep == deep && w.slot == n.val)).isSome = true → .sweep deep n.val ∉ s.guard.held →
        exec (.cascadeSweep deep n) s = .next { s with guard := { s.guard with held := s.guard.held ++ [.sweep deep n.val] } })) ∧
    (∀ (h : Fin 1048576) (n : Nat), let x := openBlob (.fill h.val) (memBytes s (blobAt h.val) 80) s
      h.val ∈ s.vault.fills → inCaution s = false → keyHeld s (sectorAt s (blobAt h.val / 256)).mkey (sectorAt s (blobAt h.val / 256)).kgen = true → (sectorAt s (blobAt h.val / 256)).poison = false →
      DeepGood (be (memBytes s (blobAt h.val) 80) 8 2 % 64) s → x.res = 0 → reached s x.expiry = false →
      (cachedRange s).find? (freeIn s false false) = some n → s.gal.parked = [] →
      Completes (.keyFillDone h .good) s (fun t => ∃ u v, KeyWritten n x.key x.attr x.expiry (some ⟨true, x.parent, x.pgen, b2n (dBit s x.parent 8)⟩) (some h.val) s u ∧
        Counted Reg.SRM_CNT_FILL 1 u v ∧ t = { v with vault := { v.vault with fills := s.vault.fills.erase h.val } })) ∧
    (∀ g : Fin 64, s.mode = 2 → resetDue s g.val = true → s.fore.waits = [] → Completes (.galleryOnline g true) s (fun t => ∃ u, Raised Ev.GALLERY_ONLINE [g.val] u t ∧
      nbit (u.reg Reg.GAL_ONLINE).toNat g.val = true ∧ (∀ j, j < 64 → j ≠ g.val → nbit (u.reg Reg.GAL_ONLINE).toNat j = nbit (s.reg Reg.GAL_ONLINE).toNat j) ∧ RegsBut [Reg.GAL_ONLINE] s u ∧
      (∀ k : Fin 16, (galThread u g.val k.val).regs = [] ∧ (galThread u g.val k.val).tag = none ∧ (galThread u g.val k.val).preds = 1 ∧ (galThread u g.val k.val).win = []) ∧ tget nil0 u.gal.queues g.val = [] ∧ claimOn u (.gallery g.val) = none ∧
      (∀ k, k < 4 → unitCtx u g.val k = ctx0 0) ∧ tget nil0 u.gal.unitQ g.val = [] ∧ tget nat0 u.gal.started g.val = s.time.up ∧
      u = { s with regs := u.regs, fore := { s.fore with claims := u.fore.claims }, vault := { s.vault with slots := u.vault.slots }
                   gal := { s.gal with threads := u.gal.threads, queues := u.gal.queues, ctxs := u.gal.ctxs, unitQ := u.gal.unitQ, started := u.gal.started, restoring := s.gal.restoring.erase g.val, draining := s.gal.draining.erase g.val } }))

/-! ## Orders on the winder, buffer memory and the command gate (chapters 09, 10, 12) -/

/-- QUEUE_CFG, METER_CFG, SHAPER_CFG, GATE_LIST and DROP_NOTIFY (R257, R262, R265, R266, R272, R274, R276): parameters that fit are in force when the order has ended, a list waits for the first instant base + n · CYCLE that is not before now, and parameters that do not fit change nothing. -/
def Obligations.WinderOrders : Prop :=
  ∀ (o : OrdBy) (s : State),
    (∀ (queue limits flow sched : W64) (n : Nat), n = queue.toNat → let q := ordered 0x601 o [queue, limits, flow, sched] s
      Accepted q s → n < 1024 →
      (queueFits s n limits flow sched = true → claimOn s (.queue n) = none → Completes (.queueCfg o queue limits flow sched) s (fun t => ∃ u, t = orderEnds q St.OK [] u ∧
        (∀ f ∈ [Fd.Q_LIMITS_LIMIT, Fd.Q_LIMITS_YELLOW_MAX, Fd.Q_LIMITS_MKEY, Fd.Q_LIMITS_SPILL_EN], u.fld (Reg.Q_LIMITS n) f = fget limits f) ∧
        (∀ f ∈ [Fd.Q_FLOW_XOFF, Fd.Q_FLOW_XON, Fd.Q_FLOW_PFC_EN], u.fld (Reg.Q_FLOW n) f = fget flow f) ∧
        (∀ f ∈ [Fd.Q_SCHED_WEIGHT, Fd.Q_SCHED_IDLE_SLOPE], u.fld (Reg.Q_SCHED n) f = fget sched f) ∧
        RegsBut [Reg.Q_LIMITS n, Reg.Q_FLOW n, Reg.Q_SCHED n] s u ∧ u = { begun q s with regs := u.regs })) ∧
      (queueFits s n limits flow sched = false → exec (.queueCfg o queue limits flow sched) s = .next (orderEnds q St.UNSUPPORTED [] (begun q s)))) ∧
    (∀ (meter cir cbs eir ebs : W64) (m : Nat), m = meter.toNat % 2 ^ 16 → let q := ordered 0x602 o [meter, cir, cbs, eir, ebs] s
      let on := meter.getLsbD 17
      let fresh := on && !(meterOf s m).enable
      Accepted q s → meter.toNat < 2 ^ 18 → cir.toNat ≤ 1600000000 → cbs.toNat < 2 ^ 24 → eir.toNat ≤ 1600000000 → ebs.toNat < 2 ^ 24 →
      exec (.meterCfg o meter cir cbs eir ebs) s = .next (orderEnds q St.OK [] { begun q s with wnd := { s.wnd with meters := tput meter0 s.wnd.meters m {
          enable := on, aware := meter.getLsbD 16, cir := cir.toNat, cbs := cbs.toNat, eir := eir.toNat, ebs := ebs.toNat
          tc := if fresh then cbs.toNat * 8000000 else min (meterOf s m).tc (cbs.toNat * 8000000)
          te := if fresh then ebs.toNat * 8000000 else min (meterOf s m).te (ebs.toNat * 8000000)
          last := if fresh then s.time.up else (meterOf s m).last } } })) ∧
    (∀ (shaper rate burst : W64) (i : Nat), i = shaper.toNat → let q := ordered 0x603 o [shaper, rate, burst] s
      Accepted q s →
      (i < 1088 → rate.toNat ≤ 1600000000 → burst.toNat < 2 ^ 24 → exec (.shaperCfg o shaper rate burst) s = .next (orderEnds q St.OK [] { begun q s with wnd := { s.wnd with
        shapers := tput shaper0 s.wnd.shapers i { shaperOf s i with rate := rate.toNat, burst := burst.toNat, credit := min (shaperOf s i).credit (burst.toNat * 256 : Nat) } } })) ∧
      (1088 ≤ i ∨ 1600000000 < rate.toNat ∨ 2 ^ 24 ≤ burst.toNat → exec (.shaperCfg o shaper rate burst) s = .next (orderEnds q St.UNSUPPORTED [] (begun q s)))) ∧
    (∀ (port cell base : W64) (e : Nat) (b : Bytes), e = port.toNat → let q := ordered 0x604 o [port, cell, base] s
      let n := be b 4 2
      let cycle := be b 0 4
      Accepted q s → e < 64 → claimOn s (.gateList e) = none → (egressAt s e).next = none → ordRead q s cell.toNat 2064 = some b →
      (n ≤ 256 → (n = 0 ∨ listFits cycle (listEntries b n) = true) → ∃ at_, exec (.gateList o port cell base) s = .next (orderEnds q St.OK [] { begun q s with
        fore := { (begun q s).fore with claims := q.claim (.gateList e) :: s.fore.claims }
        wnd := { s.wnd with egress := tput egress0 s.wnd.egress e { egressAt s e with next := some (if n = 0 then none else some ⟨cycle, base.toNat, listEntries b n⟩, at_) } } }) ∧
        s.time.now ≤ at_ ∧ base.toNat ≤ at_ ∧ (at_ - base.toNat) % max 1 cycle = 0 ∧ (at_ = base.toNat ∨ at_ < s.time.now + max 1 cycle)) ∧
      (256 < n ∨ (n ≠ 0 ∧ listFits cycle (listEntries b n) = false) → exec (.gateList o port cell base) s = .next (orderEnds q St.UNSUPPORTED [] (begun q s)))) ∧
    (∀ (fn rate : W64), let q := ordered 0x607 o [fn, rate] s
      Accepted q s → fn.toNat < 16 → rate.toNat ≤ 1000000 → Completes (.dropNotify o fn rate) s (fun t => ∃ u, t = orderEnds q St.OK [] u ∧
        u.fld Reg.WND_DN_CFG Fd.WND_DN_CFG_FN = fn.toNat ∧ u.fld Reg.WND_DN_CFG Fd.WND_DN_CFG_RATE = rate.toNat ∧ u.flag Reg.WND_DN_CFG Fd.WND_DN_CFG_EN = decide (rate.toNat ≠ 0) ∧
        u.fld Reg.WND_DN_CFG Fd.WND_DN_CFG_REASON_MASK = s.fld Reg.WND_DN_CFG Fd.WND_DN_CFG_REASON_MASK ∧ RegsBut [Reg.WND_DN_CFG] s u ∧
        u = { begun q s with regs := u.regs, wnd := { s.wnd with dnTokens := if s.flag Reg.WND_DN_CFG Fd.WND_DN_CFG_EN then noteTokens s else 64000000000, dnLast := s.time.up } }))

/-- Buffer memory's keys and scrubs (R283, R285, R287, R288, R290 to R292): a key change draws the new key and begins its walk, which rewrites what stood under the old key, and commits when the walk has ended and no stored frame stands under the old key; a scrub claims its region, and its end returns poisoned sectors as zeros; the patrol reads one sector; an open sector is written back; the refresh rate follows the temperature. -/
def Obligations.MemoryWork : Prop :=
  ∀ (s : State),
    (∀ (o : OrdBy) (index : W64) (i : Nat), i = index.toNat → let q := ordered 0x605 o [index] s
      Accepted q s → i < 256 → claimOn s (.memKey i) = none → Completes (.memKeyChange o index) s (fun t => ∃ u, t = waiting q u ∧
        tget memKey0 u.vault.memKeys i = s.draw ∧ tget memKey0 u.vault.prevKeys i = memKey s i ∧
        (∀ j, j ≠ i → tget memKey0 u.vault.memKeys j = tget memKey0 s.vault.memKeys j ∧ tget memKey0 u.vault.prevKeys j = tget memKey0 s.vault.prevKeys j) ∧
        kgenOf u i = (kgenOf s i + 1) % 256 ∧ u.flag (Reg.MEM_KEY_STATUS i) Fd.MEM_KEY_STATUS_CHANGING = true ∧
        u.flag Reg.MEM_STATUS Fd.MEM_STATUS_REKEY_ACTIVE = true ∧ u.fld Reg.MEM_STATUS Fd.MEM_STATUS_REKEY_INDEX = i ∧ RegsBut [Reg.MEM_KEY_STATUS i, Reg.MEM_STATUS] s u ∧
        u = { begun q s with
          regs := u.regs, draws := s.draws + 1, mem := { s.mem with walks := s.mem.walks ++ [(i, s.time.up + walkNs s i (kgenOf s i))] }, vault := { s.vault with memKeys := u.vault.memKeys, prevKeys := u.vault.prevKeys }
          fore := { (begun q s).fore with claims := q.claim (.memKey i) :: s.fore.claims } })) ∧
    (∀ (i : Nat), i < 256 → let g := kgenOf s i
      let u := walkEnd i s
      (∀ n x, tget none0 s.mem.side n = some x → tget none0 u.mem.side n = some (if walkTakes i ((g + 255) % 256) n x then { x with kgen := g } else x)) ∧
      (∀ n, tget none0 s.mem.side n = none → tget none0 u.mem.side n = none) ∧ tget nat0 u.mem.walked i = g ∧ (∀ j, j ≠ i → tget nat0 u.mem.walked j = tget nat0 s.mem.walked j) ∧
      u.mem.walks = s.mem.walks.filter (fun w => w.1 != i) ∧ u.flag Reg.MEM_STATUS Fd.MEM_STATUS_REKEY_ACTIVE = !u.mem.walks.isEmpty ∧
      RegsBut [Reg.MEM_STATUS] s u ∧ u = { s with regs := u.regs, mem := { s.mem with side := u.mem.side, walked := u.mem.walked, walks := u.mem.walks } }) ∧
    (∀ (i : Fin 256) (w : OrdReq), s.live = true → (∀ x ∈ s.mem.walks, x.1 ≠ i.val) → s.flag (Reg.MEM_KEY_STATUS i.val) Fd.MEM_KEY_STATUS_CHANGING = true →
      liveUnder s i.val ((kgenOf s i.val + 255) % 256) = false → s.fore.waits.find? (fun o => o.code == 0x605 && o.args.getD 0 0 == BitVec.ofNat 64 i.val) = some w → w.t < 4 →
      Completes (.memKeyChanged i) s (fun t => ∃ u, Raised Ev.MEM_KEY_CHANGED [i.val] (orderEnds w St.OK [] u) t ∧
        tget memKey0 u.vault.prevKeys i.val = 0 ∧ (∀ j, j ≠ i.val → tget memKey0 u.vault.prevKeys j = tget memKey0 s.vault.prevKeys j) ∧
        u.flag (Reg.MEM_KEY_STATUS i.val) Fd.MEM_KEY_STATUS_CHANGING = false ∧ kgenOf u i.val = kgenOf s i.val ∧ claimOn u (.memKey i.val) = none ∧
        RegsBut [Reg.MEM_KEY_STATUS i.val] s u ∧
        u = { s with
          regs := u.regs, vault := { s.vault with prevKeys := u.vault.prevKeys }
          fore := { s.fore with claims := u.fore.claims, waits := s.fore.waits.erase w } })) ∧
    (∀ (o : OrdBy) (region first count : W64) (r : Nat), r = region.toNat → let q := ordered 0x606 o [region, first, count] s
      Accepted q s →
      (r < 7 → first.toNat + count.toNat ≤ regionSectors r → claimOn s (.region r) = none → exec (.memScrub o region first count) s = .next (waiting q { begun q s with
        mem := { s.mem with scrubs := s.mem.scrubs ++ [⟨r, first.toNat, count.toNat, q⟩] }
        fore := { (begun q s).fore with claims := q.claim (.region r) :: s.fore.claims } })) ∧
      (7 ≤ r → exec (.memScrub o region first count) s = .next (orderEnds q St.UNSUPPORTED [] (begun q s)))) ∧
    (∀ (r : Fin 7) (c : Scrub), let base := regionBase.getD r.val 0 / 256 + c.first
      let old := (s.mem.side.filter (fun e => decide (base ≤ e.1) && decide (e.1 < base + c.count) && (match e.2 with | some x => x.poison | none => false))).map (·.1)
      s.live = true → s.mem.scrubs.find? (fun c => c.region == r.val) = some c → scrubPaused s r.val = false → c.req.t < 4 → r.val ≠ 0 → r.val ≠ 5 →
      Completes (.scrubDone r []) s (fun t => ∃ u v, Counted Reg.MEM_CNT_SCRUBBED c.count u v ∧
        Raised Ev.SCRUB_DONE [r.val, c.count, old.length] (orderEnds c.req St.OK [(16, BitVec.ofNat 64 c.count), (17, BitVec.ofNat 64 old.length)] { v with fore := { s.fore with
          claims := s.fore.claims.filter (fun k => !(k.res == .region r.val && k.code == 0x606)), waits := s.fore.waits.erase c.req } }) t ∧
        (∀ n ∈ old, (sectorAt u n).poison = false ∧ (sectorAt u n).written = true ∧ memBytes u (256 * n) 256 = zeros 256) ∧
        (∀ n, n ∉ old → sectorAt u n = sectorAt s n ∧ memBytes u (256 * n) 256 = memBytes s (256 * n) 256) ∧
        u = { s with mem := { s.mem with side := u.mem.side, bytes := u.mem.bytes, opens := u.mem.opens, withheld := u.mem.withheld, scrubs := s.mem.scrubs.erase c } })) ∧
    (∀ cell, s.live = true → cell < 2 ^ 27 → (sectorAt s cell).written = true → keyHeld s (sectorAt s cell).mkey (sectorAt s cell).kgen = true → (sectorAt s cell).poison = false →
      Completes (.patrolScrub cell .good) s (Counted Reg.MEM_CNT_SCRUBBED 1 s) ∧
      Completes (.patrolScrub cell .corrected) s (fun t => ∃ u v, Counted Reg.MEM_CNT_SCRUBBED 1 s u ∧ Counted Reg.MEM_CNT_ECC_CORR 1 u v ∧ Raised Ev.MEM_ECC_CORRECTED [cell] v t) ∧
      (regionOfCell cell = 1 → takes (monCode 0x0F) s = true → effective s 0x0F ≤ 1 → Completes (.patrolScrub cell .bad) s (fun t => ∃ u v, Counted Reg.MEM_CNT_SCRUBBED 1 s u ∧
        Counted Reg.MEM_CNT_CHECK_FAIL 1 ((setSector cell { sectorAt s cell with poison := true } u).setFld Reg.MEM_POISON_LAST Fd.MEM_POISON_LAST_CELL cell) v ∧ Warned 0x0F [cell] v t))) ∧
    (∀ cell w, s.live = true → s.mem.opens.find? (fun o => o.cell == cell) = some w → coalesced s w = true → (256 ≤ w.offs.length ∨ (sectorAt s cell).written = false) →
      exec (.coalesceWriteback cell .good) s = .next { s with mem := { s.mem with
        opens := (s.mem.opens.erase w).filter (fun x => x.cell != cell)
        side := tput none0 s.mem.side cell (some ⟨regionKey s (regionOfCell cell), kgenOf s (regionKey s (regionOfCell cell)), false, true⟩) } }) ∧
    (∀ (stack : Fin 2) (hot : Bool), s.live = true → Completes (.hbmHotRefresh stack hot) s (fun t => nbit t.mem.hot stack.val = hot ∧
      (∀ k, k ≠ stack.val → nbit t.mem.hot k = nbit s.mem.hot k) ∧ t = { s with mem := { s.mem with hot := t.mem.hot } }))

/-- The gate's keys, flows and entries (R326, R328, R331, R333 to R338, R342): keys come with their floor and a full window, flows keep or fill their tokens, an entry is verified, released in its flow's order, or dropped when its time is over. -/
def Obligations.GateWork : Prop :=
  ∀ (s : State),
    (∀ (o : OrdBy) (keyId cell alg : W64) (id a sets : Nat) (key : Bytes), id = keyId.toNat → a = alg.toNat % 4 → sets = alg.toNat / 2 ^ 32 → let q := ordered 0x701 o [keyId, cell, alg] s
      Accepted q s → id < 2 ^ 32 → (a = 1 ∨ a = 2) → sets ≠ 0 → gkey s id = none →
      (keyCount s < 4096 → ordRead q s cell.toNat (if a = 1 then 32 else 97) = some key → Config.keyDecodes a key = true → takes Ev.GATE_KEY_ADDED s = true →
        Completes (.gateKeyAdd o keyId cell alg) s (fun t => ∃ u, t = orderEnds q St.OK [] u ∧ Raised Ev.GATE_KEY_ADDED [0xFFFF, id]
          { begun q s with gate := { s.gate with keys := tput none0 s.gate.keys id (some ⟨a, sets, key, floorAt s id, 2 ^ 64 - 1⟩) } } u)) ∧
      (4096 ≤ keyCount s → exec (.gateKeyAdd o keyId cell alg) s = .next (orderEnds q St.FULL [] (begun q s)))) ∧
    (∀ (o : OrdBy) (keyId : W64) (id : Nat), id = keyId.toNat → let q := ordered 0x702 o [keyId] s
      Accepted q s →
      (gkey s id = none → exec (.gateKeyRevoke o keyId) s = .next (orderEnds q St.NOT_FOUND [] (begun q s))) ∧
      ((gkey s id).isSome = true → (∀ e ∈ s.gate.entries, ∀ g, e.2 = some g → g.keyId ≠ id) → takes Ev.GATE_KEY_REVOKED s = true →
        Completes (.gateKeyRevoke o keyId) s (fun t => ∃ u, t = orderEnds q St.OK [] u ∧ Raised Ev.GATE_KEY_REVOKED [0xFFFF, id]
          { begun q s with gate := { s.gate with keys := tdel s.gate.keys id, released := s.gate.released.filter (fun r => r.1 != id) } } u)) ∧
      ((gkey s id).isSome = true → exec (.gateKeyRevoke o keyId) s = .next (orderEnds q St.OK [] (revokeGateKey id (begun q s))))) ∧
    (∀ (o : OrdBy) (rule sets par : W64) (r rate burst strip : Nat), rule.toNat = r → r < 2 ^ 13 → par.toNat = rate + 2 ^ 20 * burst + 2 ^ 36 * strip → rate < 2 ^ 20 → burst < 2 ^ 16 → strip < 2 →
      sets ≠ 0 → sets.toNat < 2 ^ 32 → rate ≠ 0 → rate ≤ 250000 → burst ≠ 0 → let q := ordered 0x703 o [rule, sets, par] s
      Accepted q s →
      (∀ f, (flowOf s (some r) = some f ∨ (flowOf s (some r) = none ∧ freeFlow s = some f)) → Completes (.gateFlow o rule sets par) s (fun t => ∃ u, t = orderEnds q St.OK [(16, BitVec.ofNat 64 f)] u ∧
        flowF u f Fd.GATE_FLOW_CFG_VALID = 1 ∧ flowF u f Fd.GATE_FLOW_CFG_RULE = r ∧ flowF u f Fd.GATE_FLOW_CFG_STRIP = strip ∧ flowF u f Fd.GATE_FLOW_CFG_BURST = burst ∧
        flowF u f Fd.GATE_FLOW_CFG_SETS = sets.toNat ∧ u.fld (Reg.GATE_FLOW_RATE f) Fd.GATE_FLOW_RATE_RATE = rate ∧
        gateTokens u f = (if (flowOf s (some r)).isSome then min (gateTokens s f) (burst * 1000000000) else burst * 1000000000) ∧
        RegsBut [Reg.GATE_FLOW_CFG f, Reg.GATE_FLOW_RATE f] s u ∧ u = { begun q s with regs := u.regs, gate := { s.gate with tokens := u.gate.tokens, tokenAt := u.gate.tokenAt } })) ∧
      (flowOf s (some r) = none → freeFlow s = none → exec (.gateFlow o rule sets par) s = .next (orderEnds q St.FULL [] (begun q s)))) ∧
    (∀ (o : OrdBy) (rule sets par : W64) (r f : Nat), rule.toNat = r + 2 ^ 15 → r < 2 ^ 13 → let q := ordered 0x703 o [rule, sets, par] s
      Accepted q s →
      (flowOf s (some r) = none → exec (.gateFlow o rule sets par) s = .next (orderEnds q St.NOT_FOUND [] (begun q s))) ∧
      (flowOf s (some r) = some f → (∀ e ∈ s.gate.entries, ∀ g, e.2 = some g → g.flow ≠ f) → exec (.gateFlow o rule sets par) s = .next (orderEnds q St.OK [(16, BitVec.ofNat 64 f)]
        (((begun q s).setReg (Reg.GATE_FLOW_CFG f) 0).setReg (Reg.GATE_FLOW_RATE f) 0)))) ∧
    (∀ (k : Fin 16384) (g : GEntry) (key : GKey), gentry s k.val = some g → trafficOn s = true → s.fore.pkeOk = true → g.verified = none → gkey s g.keyId = some key →
      Completes (.gateVerifyDone k) s (fun t => ∃ u, Counted Reg.GATE_CNT_VERIFY 1 s u ∧
        t = if verifies g key.key then setGentry k.val (some { g with verified := some true }) u else entryDrop k.val 0x13 g u)) ∧
    (∀ (k : Fin 16384) (g : GEntry) (key : GKey) (ecc : Ecc) (wr : Bool), gentry s k.val = some g → trafficOn s = true → g.verified = some true → firstOfFlow s g = true → gkey s g.keyId = some key →
      g.frame.hbm = false ∨ (ecc ≠ .bad ∧ (readCells g.frame.cells ecc s).1 = true) → g.flow < 1024 →
      (acceptable key g.counter = true → needsFloor s g = false → Completes (.gateRelease k ecc wr) s (fun t => ∃ u v w, Counted Reg.GATE_CNT_ACCEPT 1 u v ∧ Counted (Reg.GATE_FCNT_ACCEPT g.flow) 1 v w ∧
        t = afterGate (g.bound (stripSeal s g)) wr w ∧ gentry u k.val = none ∧ (∀ j, j ≠ k.val → gentry u j = gentry s j) ∧ gkey u g.keyId = some (windowSet key g.counter) ∧
        (∀ j, j ≠ g.keyId → gkey u j = gkey s j) ∧ u = { s with gate := { s.gate with entries := u.gate.entries, keys := u.gate.keys, released := u.gate.released } })) ∧
      (acceptable key g.counter = false → inCaution s = false → exec (.gateRelease k ecc wr) s = .next (entryDrop k.val 0x14 g s)) ∧
      (inCaution s = true → needsFloor s g = true → (∀ h ∈ s.guard.held, ∀ j e b, h ≠ .gateFloor j g.seqNo e b) →
        exec (.gateRelease k ecc wr) s = .next { s with guard := { s.guard with held := s.guard.held ++ [.gateFloor k.val g.seqNo ecc wr] } })) ∧
    (∀ (k : Fin 16384) (g : GEntry) (ecc : Ecc) (wr : Bool), gentry s k.val = some g → trafficOn s = true → g.verified = some true → firstOfFlow s g = true →
      g.frame.hbm = true → (readCells g.frame.cells ecc s).1 = false → inCaution s = false →
      exec (.gateRelease k ecc wr) s = .next ((g.bound g.frame.data).drop 0x0F (setGentry k.val none (readCells g.frame.cells ecc s).2))) ∧
    (∀ (k : Fin 16384) (g : GEntry), gentry s k.val = some g → trafficOn s = true →
      (g.due ≤ s.time.up → Completes (.gateMaxWait k) s (Counted Reg.GATE_CNT_TIMEOUT 1 (entryDrop k.val 0x15 g s))) ∧ (s.time.up < g.due → Idles (.gateMaxWait k) s)) ∧
    (∀ (x : Fin 1024) (e : Elim), elimOf s x.val = some e → s.live = true →
      (e.at_ + 1000000 * elimF s x.val Fd.TWN_ELIM_CFG_RESET_MS ≤ s.time.up → exec (.elimReset x) s = .next { s with twin := { s.twin with elims := tput none0 s.twin.elims x.val none } }) ∧
      (s.time.up < e.at_ + 1000000 * elimF s x.val Fd.TWN_ELIM_CFG_RESET_MS → Idles (.elimReset x) s))

/-! ## Time and the twin orders (chapters 13, 14) -/

/-- Part time (R344, R345, R269, R275): a step, an offset, a rate and a holdover order, the end of lock by time, and the write into the RTC. Queue sampling (R352): a set and a period take over at once while nothing is sampled, else at the next period start; at a period's end every queue of the set shows its depth and its head delay, and the greatest of each since the last read. -/
def Obligations.TimeAndSampling : Prop :=
  (∀ (s : State),
      (∀ (o : OrdBy) (v : W64), let q := ordered 0x801 o [v, 0] s
        Accepted q s → Completes (.timeSetStep o v) s (fun t => ∃ u w, t = orderEnds q St.OK [] u ∧ Raised Ev.TIME_STEP [s.time.now, v.toNat] w u ∧
          w.time = { s.time with now := v.toNat, frac := 0, slew := 0, steps := s.time.steps + 1 } ∧
          (∀ e, egressAt w e = (match (egressAt s e).list with | some l => { egressAt s e with holdTill := some (v.toNat + (l.entryAt v.toNat).2) } | none => egressAt s e)) ∧
          w = { begun q s with time := w.time, wnd := { s.wnd with egress := w.wnd.egress } })) ∧
      (∀ (o : OrdBy) (v : W64) (freq : Bool), let q := ordered 0x801 o [v, if freq then 2 else 1] s
        let c : Instr := if freq then .timeSetFrequency o v else .timeSetOffset o v
        let bound := if freq then 32768000000 else 1000000000
        let time : TimeSt := { s.time with
          freq := if freq then v.toInt else s.time.freq, slew := if freq then s.time.slew else v.toInt * (fracUnit : Nat), lastSteer := s.time.up }
        Accepted q s →
        (bound < v.toInt.natAbs → exec c s = .next (orderEnds q St.UNSUPPORTED [] (begun q s))) ∧
        (v.toInt.natAbs ≤ bound → locked s = true → exec c s = .next (orderEnds q St.OK [] { begun q s with time := time })) ∧
        (v.toInt.natAbs ≤ bound → locked s = false → Completes c s (fun t => ∃ u w, t = orderEnds q St.OK [] u ∧ Raised Ev.TIME_LOCK [s.time.now] w u ∧
          locked w = true ∧ RegsBut [Reg.TIM_STATUS] s w ∧
          (∀ e, egressAt w e = (match (egressAt s e).list with | some l => { egressAt s e with resumeAt := some (l.startFrom s.time.now) } | none => egressAt s e)) ∧
          w = { begun q s with regs := w.regs, time := { time with lockAt := s.time.up }, wnd := { s.wnd with egress := w.wnd.egress } }))) ∧
      (∀ (o : OrdBy) (v : W64), let q := ordered 0x801 o [v, 3] s
        Accepted q s → (listed s).Nodup →
        (v = 0 → locked s = true → Completes (.timeSetHoldover o v) s (fun t => ∃ u, t = orderEnds q St.OK [] u ∧ HeldOver (begun q s) u)) ∧
        (v = 0 → locked s = false → exec (.timeSetHoldover o v) s = .next (orderEnds q St.OK [] (begun q s))) ∧
        (v ≠ 0 → exec (.timeSetHoldover o v) s = .next (orderEnds q St.UNSUPPORTED [] (begun q s)))) ∧
      (s.live = true → (listed s).Nodup → locked s = true →
        (s.time.lastSteer + 1000000000 * s.fld Reg.TIM_CFG Fd.TIM_CFG_LOCK_TMO ≤ s.time.up → Completes .timeHoldover s (HeldOver s)) ∧
        (s.time.up < s.time.lastSteer + 1000000000 * s.fld Reg.TIM_CFG Fd.TIM_CFG_LOCK_TMO → Idles .timeHoldover s)) ∧
      (s.live = true → (locked s = true ∨ s.time.steps ≠ 0) →
        (s.time.rtcAt + 1000000000 ≤ s.time.up → exec .rtcWriteback s = .next { s with
          lamp := { s.lamp with rtc := s.time.now, phase := 0, frac := 0 }, time := { s.time with rtcAt := s.time.up } }) ∧
        (s.time.up < s.time.rtcAt + 1000000000 → Idles .rtcWriteback s))) ∧
  (∀ (s : State),
      (∀ (o : OrdBy) (cell period : W64) (b : Bytes), let q := ordered 0x802 o [cell, period] s
        let set := queueSet b
        let p := if set = [] then 0 else period.toNat
        Accepted q s → ordRead q s cell.toNat 128 = some b →
        (period.toNat = 0 ∨ 1000 < period.toNat → exec (.sampleCfg o cell period) s = .next (orderEnds q St.UNSUPPORTED [] (begun q s))) ∧
        (1 ≤ period.toNat → period.toNat ≤ 1000 → s.time.samplePeriod = 0 → exec (.sampleCfg o cell period) s = .next (orderEnds q St.OK [] { begun q s with
          time := { s.time with sampleSet := set, samplePeriod := p, sampleAt := s.time.up, sampleNext := none } })) ∧
        (1 ≤ period.toNat → period.toNat ≤ 1000 → s.time.samplePeriod ≠ 0 → exec (.sampleCfg o cell period) s = .next (orderEnds q St.OK [] { begun q s with
          time := { s.time with sampleNext := some (set, p) } }))) ∧
      (s.live = true → s.time.samplePeriod ≠ 0 → s.time.sampleAt + 1000 * s.time.samplePeriod ≤ s.time.up → Completes .queueSample s (fun t =>
        (∀ q ∈ s.time.sampleSet,
          t.fld (Reg.TIM_QSAMPLE q) Fd.TIM_QSAMPLE_DEPTH = depth (queueOf s q) % 2 ^ 32 ∧ t.fld (Reg.TIM_QSAMPLE q) Fd.TIM_QSAMPLE_DELAY = headDelay s q % 2 ^ 32 ∧
          t.fld (Reg.TIM_QSAMPLE_MAX q) Fd.TIM_QSAMPLE_MAX_DEPTH = max (depth (queueOf s q) % 2 ^ 32) (s.fld (Reg.TIM_QSAMPLE_MAX q) Fd.TIM_QSAMPLE_MAX_DEPTH) ∧
          t.fld (Reg.TIM_QSAMPLE_MAX q) Fd.TIM_QSAMPLE_MAX_DELAY = max (headDelay s q % 2 ^ 32) (s.fld (Reg.TIM_QSAMPLE_MAX q) Fd.TIM_QSAMPLE_MAX_DELAY)) ∧
        RegsBut (s.time.sampleSet.map Reg.TIM_QSAMPLE ++ s.time.sampleSet.map Reg.TIM_QSAMPLE_MAX) s t ∧
        t.time.sampleAt = s.time.sampleAt + 1000 * s.time.samplePeriod ∧ t.time.sampleNext = none ∧
        (t.time.sampleSet, t.time.samplePeriod) = s.time.sampleNext.getD (s.time.sampleSet, s.time.samplePeriod) ∧
        t = { s with regs := t.regs, time := { s.time with sampleSet := t.time.sampleSet, samplePeriod := t.time.samplePeriod, sampleAt := t.time.sampleAt, sampleNext := none } })) ∧
      (s.time.samplePeriod = 0 ∨ s.time.up < s.time.sampleAt + 1000 * s.time.samplePeriod → Idles .queueSample s))

/-- The twin and hierarchy orders (R370, R375, R377, R382, R383): a copy is asked for, control moves to a partner in step, a hewer is enrolled, keys are sent to hewers and the order ends when they have answered or are late. -/
def Obligations.TwinOrders : Prop :=
  ∀ (o : OrdBy) (s : State),
    (let q := ordered 0x901 o [] s; Accepted q s →
      (isStandby s = false ∨ s.twin.link.up = false → exec (.twinResync o) s = .next (orderEnds q St.UNSUPPORTED [] (begun q s))) ∧
      (isStandby s = true → s.twin.link.up = true → claimOn s .image = none → Completes (.twinResync o) s (fun t => ∃ w u, t = orderEnds q St.OK [] u ∧
        resyncOn u = true ∧ RegsBut [Reg.TWN_STATUS] w u ∧ (∀ f ∈ [Fd.TWN_STATUS_CTRL, Fd.TWN_STATUS_PEER, Fd.TWN_STATUS_SYNCED, Fd.TWN_STATUS_ROLE_EPOCH], twinF u f = twinF s f) ∧
        XcSent 0x06 { begun q s with twin := { s.twin with copied := [] } } w ∧
        u = { w with regs := u.regs, fore := { w.fore with claims := hwClaim .image 0x007 :: s.fore.claims } }))) ∧
    (∀ (target : W64), let q := ordered 0x902 o [target] s
      foreRuns s q.t = true → programReset s q.t = false → stateAllows q s = true → accessDenies q s = none → inCaution s = false → resyncOn s = false →
      (target ≠ 1 → twinOn s = true → isActive s = true → exec (.roleMove o target) s = .next (orderEnds q St.UNSUPPORTED [] (begun q s))) ∧
      (twinOn s = true → isActive s = false → exec (.roleMove o target) s = .next (orderEnds q St.UNSUPPORTED [] (begun q s))) ∧
      (target = 1 → twinOn s = true → isActive s = true → claimOn s .image = none → claimOn s .role = none → peerAlive s = true → s.twin.peerSynced = true → s.twin.overlapAt = none →
        s.twin.blobRun = none → s.twin.hewers = [] → Completes (.roleMove o target) s (fun t => ∃ w u v, t = waiting q v ∧ XcSent 0x02 w u ∧ Raised Ev.ROLE_YIELD [6, roleEpoch s] u v ∧
          ctrlOf w = 3 ∧ twinF w Fd.TWN_STATUS_ROLE_OUT = 0 ∧ twinF w Fd.TWN_STATUS_SYNCED = twinF s Fd.TWN_STATUS_SYNCED ∧ roleEpoch w = roleEpoch s ∧ RegsBut [Reg.TWN_STATUS] s w ∧
          w = { begun q s with
            regs := w.regs, twin := { s.twin with driving := true, dout := doutNow s }
            fore := { (begun q s).fore with claims := q.claim .role :: s.fore.claims } }))) ∧
    (∀ (id cell : W64) (b : Bytes) (h : Nat), h = id.toNat → let q := ordered 0x903 o [id, cell] s
      Accepted q s → isOverman s = true → h < 64 → ordRead q s cell.toNat 22 = some b → claimOn s (.hewer h) = none →
      (s.twin.hewers.length < 64 → hewerOf s h = none → Completes (.hewerEnrol o id cell) s (fun t => ∃ u, t = orderEnds q St.OK [] u ∧
        hewerOf u h = some ⟨be b 0 16, be b 16 6, .reset⟩ ∧ (∀ j, j ≠ h → hewerOf u j = hewerOf s j) ∧ u.flag (Reg.TWN_HEWER_STATUS h) Fd.TWN_HEWER_STATUS_ENROLLED = true ∧
        u.flag (Reg.TWN_HEWER_STATUS h) Fd.TWN_HEWER_STATUS_UP = false ∧ RegsBut [Reg.TWN_HEWER_STATUS h] s u ∧ u = { begun q s with regs := u.regs, twin := { s.twin with hewers := u.twin.hewers } })) ∧
      (64 ≤ s.twin.hewers.length → exec (.hewerEnrol o id cell) s = .next (orderEnds q St.FULL [] (begun q s)))) ∧
    (∀ (hewers first count : W64) (n : Nat), n = count.toNat → let q := ordered 0x904 o [hewers, first, count] s
      let handles := (List.range n).map (first.toNat + ·)
      let good := handles.filter (fun h => (blobEntry s h).isSome)
      let k := ceilDiv good.length 64
      Accepted q s →
      (isOverman s = false ∨ n = 0 ∨ 4096 < n ∨ 2 ^ 20 < first.toNat + n → exec (.blobSend o hewers first count) s = .next (orderEnds q St.UNSUPPORTED [] (begun q s))) ∧
      (isOverman s = true → 1 ≤ n → n ≤ 4096 → first.toNat + n ≤ 2 ^ 20 → (∀ h ∈ handles, claimOn s (.handle h) = none) → s.twin.blobRun = none →
        o.ecc ≠ .bad → (∀ h ∈ handles, readable s (blobAt h) 80 = true) → Completes (.blobSend o hewers first count) s (fun t => ∃ u r, t = waiting q u ∧ u.twin.blobRun = some r ∧ r.req = q ∧ r.mask = hewers.toNat ∧ r.accepted = 0 ∧ r.lastAt = s.time.up ∧
          r.refused = n - good.length ∧ (∀ h ∈ handles, ∃ c, claimOn u (.handle h) = some c ∧ c.code = 0x904) ∧
          (∀ j, j < 64 → nbit hewers.toNat j = false → hewerOf u j = hewerOf s j) ∧ (∀ j, j < 64 → nbit hewers.toNat j = true → (hewerOf s j = none ∨ ∃ x, hewerOf s j = some x ∧ x.link.up = false) →
            (j, 0) ∈ r.waiting ∧ hewerOf u j = hewerOf s j) ∧
          (∀ j x, j < 64 → nbit hewers.toNat j = true → hewerOf s j = some x → x.link.up = true →
            hewerOf u j = some { x with link := { x.link with tx := x.link.tx + k } } ∧ ∀ i, i < k → (j, x.link.tx + 1 + i) ∈ r.waiting) ∧
          RegsBut (macTxRegs 65) s u ∧ (∀ x, x ∉ irqWords → tget pageReset u.page x = tget pageReset s.page x) ∧ (∃ l, u.out = l ++ s.out) ∧
          u = { begun q s with
            regs := u.regs, page := u.page, out := u.out, draws := s.draws + 1, fore := { (begun q s).fore with claims := u.fore.claims }
            twin := { s.twin with hewers := u.twin.hewers, blobRun := u.twin.blobRun } }))) ∧
    (∀ r, s.twin.blobRun = some r → s.live = true → r.req.t < 4 →
      let named := (List.range 64).filter (fun h => nbit r.mask h)
      let silent := (named.filter (fun h => r.waiting.any (fun w => w.1 == h))).length
      (r.waiting = [] ∨ r.lastAt + 100000000 ≤ s.time.up → Completes .blobSendDone s (fun t => ∃ u,
        Logged { s with twin := { s.twin with blobRun := none }, fore := { s.fore with claims := s.fore.claims.filter (fun c => !(c.code == 0x904)) } } u ∧
        t = orderEnds r.req St.OK [(16, BitVec.ofNat 64 r.accepted), (17, BitVec.ofNat 64 r.refused), (18, BitVec.ofNat 64 silent)] { u with fore := { u.fore with waits := u.fore.waits.erase r.req } })) ∧
      (r.waiting ≠ [] → s.time.up < r.lastAt + 100000000 → Idles .blobSendDone s))

/-! ## Control orders (chapters 07, 15 to 17) -/

/-- REG_WRITE, REG_READ and LEVEL_SET (R224, R390, R422): a write replaces exactly the order-writable bits its mask names, a value out of range changes nothing, a read gives the register in g16, and a level goes no lower than its floor. -/
def Obligations.RegisterOrders : Prop :=
  ∀ (o : OrdBy) (s : State),
    (∀ (addr value mask : W64) (a off sh : Nat) (m v : W64), a = addr.toNat → off = a - a % 8 → sh = (if a % 8 = 4 then 32 else 0) → m = (mask <<< sh) &&& owBits off →
      v = (latest s off &&& ~~~m) ||| ((value <<< sh) &&& m) → let q := ordered 0xA01 o [addr, value, mask] s
      Accepted q s →
      (0xF00000 ≤ a ∨ a % 4 ≠ 0 ∨ owBits off = 0 ∨ absentUnit s off = true → exec (.regWrite o addr value mask) s = .next (orderEnds q St.UNSUPPORTED [] (begun q s))) ∧
      (a < 0xF00000 → a % 4 = 0 → owBits off ≠ 0 → (off < 0x208000 ∨ 0x208040 ≤ off) → (off < 0xE00100 ∨ 0xE00200 ≤ off) →
        (regRange s off v = false → exec (.regWrite o addr value mask) s = .next (orderEnds q St.UNSUPPORTED [] (begun q s))) ∧
        (∀ c, regRange s off v = true → regBusy s off (latest s off) v = some c → exec (.regWrite o addr value mask) s = .next (answer q.t q.rd (busyWord c) [] (begun q s))) ∧
        (regRange s off v = true → regBusy s off (latest s off) v = none → exec (.regWrite o addr value mask) s = .next (orderEnds q St.OK [] (regApply off (latest s off) v (begun q s)))) ∧
        (regRange s off v = true → regBusy s off (latest s off) v = none → (off / 0x100000 = 3 ∨ off / 0x100000 = 5 ∨ off / 0x100000 = 10) → (∀ w ∈ s.lfr.waiting, w.1 ≠ off) →
          Completes (.regWrite o addr value mask) s (fun t => ∃ u, t = orderEnds q St.OK [] u ∧
            (∀ i, i < 64 → (u.reg off).getLsbD i = if m.getLsbD i then (value <<< sh).getLsbD i else (s.reg off).getLsbD i) ∧ RegsBut [off] s u ∧ u = { begun q s with regs := u.regs })))) ∧
    (∀ (addr : W64) (a : Nat), a = addr.toNat → let q := ordered 0xA02 o [addr] s
      Accepted q s →
      (a < 0xF00000 → a % 4 = 0 → exec (.regRead o addr) s = .next (orderEnds q St.OK [(16, readReg (begun q s) (a - a % 8) >>> (if a % 8 = 4 then 32 else 0))] (afterRead (a - a % 8) (begun q s)))) ∧
      (0xF00000 ≤ a ∨ a % 4 ≠ 0 → exec (.regRead o addr) s = .next (orderEnds q St.UNSUPPORTED [] (begun q s)))) ∧
    (∀ (monitor level : W64) (m l : Nat), m = monitor.toNat → l = level.toNat → let q := ordered 0xB02 o [monitor, level] s
      Accepted q s →
      (24 ≤ m ∨ 4 < l → exec (.levelSet o monitor level) s = .next (orderEnds q St.UNSUPPORTED [] (begun q s))) ∧
      (m < 24 → l ≤ 4 → l < floorOf s m → exec (.levelSet o monitor level) s = .next (orderEnds q St.DENIED [] (begun q s))) ∧
      (m < 24 → l ≤ 4 → floorOf s m ≤ l → Completes (.levelSet o monitor level) s (fun t => ∃ u, t = orderEnds q St.OK [] u ∧ u.fld (Reg.TMP_LEVEL m) Fd.TMP_LEVEL_LEVEL = l ∧
        RegsBut [Reg.TMP_LEVEL m] s u ∧ (∀ k ∈ lampMonitors, tget nat0 u.lamp.levels k = effective u k) ∧ u = { begun q s with regs := u.regs, lamp := { s.lamp with levels := u.lamp.levels } })))

/-- COUNTER_INC, ACCESS_SET, TALLY_READ and PROFILE_SAVE (R408 to R410, R436, R455, R457, R458): a counter moves by one and never back, an entry of the access table is replaced within what R409 forbids, records are copied in SEQ order, and a profile goes into the copy that is not the newest. -/
def Obligations.ControlOrders : Prop :=
  ∀ (o : OrdBy) (s : State),
    (∀ (index : W64) (n : Nat), n = index.toNat → let q := ordered 0xA09 o [index] s
      Accepted q s →
      (32 ≤ n → exec (.counterInc o index) s = .next (orderEnds q St.UNSUPPORTED [] (begun q s))) ∧
      (n < 18 → exec (.counterInc o index) s = .next (orderEnds q St.DENIED [] (begun q s))) ∧
      (18 ≤ n → n < 32 → counterOf s n < 2 ^ 32 - 1 → AtticTakes blkCounters s → Completes (.counterInc o index) s (fun t => ∃ u v, t = orderEnds q St.OK [(16, BitVec.ofNat 64 (counterOf s n + 1))] u ∧
        Worn (begun q s) v ∧ counterOf u n = counterOf s n + 1 ∧ (∀ j, j ≠ n → counterOf u j = counterOf s j) ∧ u = { v with attic := { v.attic with counters := u.attic.counters } }))) ∧
    (∀ (target master perms : W64) (g m p : Nat), g = target.toNat → m = master.toNat → p = perms.toNat % 16 → let q := ordered 0xA0A o [target, master, perms] s
      Accepted q s →
      (targetKnown g = false ∨ 24 ≤ m → exec (.accessSet o target master perms) s = .next (orderEnds q St.UNSUPPORTED [] (begun q s))) ∧
      (targetKnown g = true → m < 24 → grantForbidden g m p = true → exec (.accessSet o target master perms) s = .next (orderEnds q St.DENIED [] (begun q s))) ∧
      (targetKnown g = true → m < 24 → grantForbidden g m p = false → takes Ev.ACCESS_CHANGED s = true →
        (g ≠ 0x15 ∨ 16 ≤ m → Completes (.accessSet o target master perms) s (fun t => ∃ u, t = orderEnds q St.OK [] u ∧
          Raised Ev.ACCESS_CHANGED [g, m, p] { begun q s with host := { s.host with access := tput byte0 s.host.access (g * 32 + m) (BitVec.ofNat 8 p) } } u)) ∧
        (∀ base count, g = 0x15 → m < 16 → base = perms.toNat / 2 ^ 16 % 2 ^ 16 → count = perms.toNat / 2 ^ 32 % 2 ^ 15 →
          (rangeFits s m base count = false → exec (.accessSet o target master perms) s = .next (orderEnds q St.UNSUPPORTED [] (begun q s))) ∧
          (rangeFits s m base count = true → leaving s m base count = [] → Completes (.accessSet o target master perms) s (fun t => ∃ u v, t = orderEnds q St.OK [] v ∧
            Raised Ev.ACCESS_CHANGED [g, m, p, base + count * 2 ^ 16] u v ∧ cellBase u m = base ∧ cellCount u m = count ∧ RegsBut [Reg.HST_FN_CELLS m] s u ∧
            u = { begun q s with regs := u.regs, host := { s.host with access := tput byte0 s.host.access (g * 32 + m) (BitVec.ofNat 8 p) } }))))) ∧
    (∀ (area first records cell : W64) (a lo n : Nat), a = area.toNat → lo = first.toNat → n = records.toNat → let q := ordered 0xB01 o [area, first, records, cell] s
      let named := (if a = 1 then [] else s.attic.evid) ++ (if a = 0 then [] else s.attic.ring)
      let found := recordsIn named lo s.attic.nextSeq
      let b := (found.take n).flatMap TRec.bytes
      Accepted q s →
      (2 < a ∨ n = 0 ∨ 4096 < n → exec (.tallyRead o area first records cell) s = .next (orderEnds q St.UNSUPPORTED [] (begun q s))) ∧
      (a ≤ 2 → 1 ≤ n → n ≤ 4096 → s.attic.nextSeq ≤ lo → exec (.tallyRead o area first records cell) s = .next (orderEnds q St.OK [(16, 0), (17, first), (18, 0)] (begun q s))) ∧
      (a ≤ 2 → 1 ≤ n → n ≤ 4096 → lo < s.attic.nextSeq → found ≠ [] → found.length < n → ordCellsOk q s cell.toNat b.length = true → (cellWrite cell.toNat b (begun q s)).1 = true →
        exec (.tallyRead o area first records cell) s = .next (orderEnds q St.OK
          [(16, BitVec.ofNat 64 found.length), (17, BitVec.ofNat 64 s.attic.nextSeq), (18, BitVec.ofNat 64 (s.attic.nextSeq - lo - (recordsIn (s.attic.evid ++ s.attic.ring) lo s.attic.nextSeq).length))]
          (cellWrite cell.toNat b (begun q s)).2)) ∧
      (∀ r, a ≤ 2 → 1 ≤ n → n ≤ 4096 → lo < s.attic.nextSeq → n ≤ found.length → (found.take n).getLast? = some r → ordCellsOk q s cell.toNat b.length = true → (cellWrite cell.toNat b (begun q s)).1 = true →
        exec (.tallyRead o area first records cell) s = .next (orderEnds q St.OK
          [(16, records), (17, BitVec.ofNat 64 (r.seq + 1)), (18, BitVec.ofNat 64 (r.seq + 1 - lo - (recordsIn (s.attic.evid ++ s.attic.ring) lo (r.seq + 1)).length))]
          (cellWrite cell.toNat b (begun q s)).2))) ∧
    (let q := ordered 0xA08 o [] s;
     let copy := 1 - newestCopy s
     let n := counterOf s 17 + 1
     Accepted q s → claimOn s .profile = none →
     (profileFits s = false → exec (.profileSave o) s = .next (orderEnds q St.UNSUPPORTED [] (begun q s))) ∧
     (profileFits s = true → n < 2 ^ 32 → atticRO s 2 = false → (wearStep 2 (blkProfile copy) s).2 = none → AtticTakes blkCounters s → Completes (.profileSave o) s (fun t => ∃ u v, t = orderEnds q St.OK [] v ∧
       Raised Ev.PROFILE_SAVED [n, copy] u v ∧ counterOf u 17 = n ∧ (∀ j, j ≠ 17 → counterOf u j = counterOf s j) ∧
       (if copy = 0 then u.attic.prof0 = some (captureProfile n s) ∧ u.attic.prof1 = s.attic.prof1 else u.attic.prof1 = some (captureProfile n s) ∧ u.attic.prof0 = s.attic.prof0) ∧
       u = { begun q s with attic := { s.attic with counters := u.attic.counters, prof0 := u.attic.prof0, prof1 := u.attic.prof1, wear := u.attic.wear } })))

/-- Signers, firmware and the life cycle (R215, R227, R446, R451): only a signer with ADMIN adds or revokes a record or moves the life cycle; an image is staged once its signatures verify; Deployed raises every level to its floor, and Enrolled and Retired reset the part. -/
def Obligations.LifeOrders : Prop :=
  ∀ (o : OrdBy) (s : State),
    (∀ (keyId cell : W64) (b : Bytes), let q := ordered 0xA03 o [keyId, cell] s
      let x := parseSigner b
      Accepted q s →
      (q.admin = false → exec (.signerAdd o keyId cell) s = .next (orderEnds q St.DENIED [] (begun q s))) ∧
      (q.admin = true → ordRead q s cell.toNat signerLen = some b → x.keyId = keyId.toNat → x.keyId < 0xFFFF0000 → q.blank = false → signerOf s x.keyId = none →
        (32 ≤ s.attic.signers.length → exec (.signerAdd o keyId cell) s = .next (orderEnds q St.FULL [] (begun q s))) ∧
        (s.attic.signers.length < 32 → AtticTakes blkSigners s → Completes (.signerAdd o keyId cell) s (fun t => ∃ v, Worn (begun q s) v ∧
          t = orderEnds q St.OK [] { v with attic := { v.attic with signers := s.attic.signers ++ [x] } })))) ∧
    (∀ (keyId : W64), let q := ordered 0xA04 o [keyId] s
      Accepted q s →
      (q.admin = false → exec (.signerRevoke o keyId) s = .next (orderEnds q St.DENIED [] (begun q s))) ∧
      (q.admin = true → signerOf s keyId.toNat = none → exec (.signerRevoke o keyId) s = .next (orderEnds q St.NOT_FOUND [] (begun q s))) ∧
      (q.admin = true → (signerOf s keyId.toNat).isSome = true → AtticTakes blkSigners s → Completes (.signerRevoke o keyId) s (fun t => ∃ v,
        Worn { begun q s with fore := { (begun q s).fore with revoked := s.fore.revoked ++ waitingOf s keyId.toNat } } v ∧
        t = orderEnds q St.OK [] { v with attic := { v.attic with signers := s.attic.signers.filter (fun x => x.keyId != keyId.toNat) } }))) ∧
    (∀ (cell cells : W64) (n : Nat) (b : Bytes), n = cells.toNat → let q := ordered 0xA05 o [cell, cells] s
      let base := if s.fld Reg.PWR_STATUS Fd.PWR_STATUS_FW_IMAGE = 0 then 1024 else 0
      let w := writeImageBlocks base n (setInactive ⟨be b 0 4, b, false⟩ (begun q s))
      Accepted q s → 1 ≤ n → n ≤ 1024 → ordRead q s cell.toNat (4096 * n) = some b →
      (Config.firmwareVerifies b = false → exec (.firmwareStage o cell cells) s = .next (orderEnds q St.AUTH_FAIL [] (begun q s))) ∧
      (Config.firmwareVerifies b = true → counterOf s 16 < 2 ^ 32 - 1 → w.1 = true → exec (.firmwareStage o cell cells) s = .next (orderEnds q St.OK [] (setInactive ⟨be b 0 4, b, true⟩ w.2)))) ∧
    (let q := ordered 0xA06 o [2] s;
      Accepted q s →
      (q.admin = false → exec (.lifecycleDeployed o) s = .next (orderEnds q St.DENIED [] (begun q s))) ∧
      (q.admin = true → s.attic.lifecycle ≠ 1 → exec (.lifecycleDeployed o) s = .next (orderEnds q St.UNSUPPORTED [] (begun q s))) ∧
      (q.admin = true → s.attic.lifecycle = 1 → s.fore.claims = [] → AtticTakes blkLife s → takes Ev.LIFECYCLE_CHANGE s = true → Completes (.lifecycleDeployed o) s (fun t => ∃ u,
        t = orderEnds q St.OK [] u ∧ u.attic.lifecycle = 2 ∧ Recorded Ev.LIFECYCLE_CHANGE [1, 2] s u ∧
        (∀ m, m < 24 → u.fld (Reg.TMP_LEVEL m) Fd.TMP_LEVEL_LEVEL = max (s.fld (Reg.TMP_LEVEL m) Fd.TMP_LEVEL_LEVEL) (floorOf u m)) ∧
        RegsBut ((List.range 24).map Reg.TMP_LEVEL ++ tallyRegs) s u ∧ u.vault = s.vault ∧ u.lamp = { s.lamp with levels := u.lamp.levels }))) ∧
    (∀ (cell : W64) (b : Bytes), let q := ordered 0xA06 o [1, cell] s
      let x := parseSigner b
      Accepted q s → q.admin = true → q.blank = false → s.attic.lifecycle = 2 → s.fore.claims = [] → ordRead q s cell.toNat signerLen = some b → x.keyId < 0xFFFF0000 → AtticTakes blkEnrol s →
      takes Ev.LIFECYCLE_CHANGE s = true → Completes (.lifecycleEnrolled o cell) s (fun t =>
        t.attic.lifecycle = 1 ∧ Recorded Ev.LIFECYCLE_CHANGE [2, 1] s t ∧ t.attic.signers = [{ x with admin := true, lastSeq := 0 }] ∧ t.attic.standing = [] ∧ t.attic.owned = true ∧
        t.attic.nonce = (Config.random (s.draws + 1)).setWidth 256 ∧ t.attic.resets = s.attic.resets + 1 ∧ t.lamp.root = some ((Config.random s.draws).setWidth 256) ∧ t.vault.slots = [] ∧ t.vault.deep = [] ∧
        t.mem = Mem.reset ∧ t.fore = Foreman.reset ∧ t.mode = 0 ∧ t.fld Reg.PWR_RESET_CAUSE Fd.PWR_RESET_CAUSE_CAUSE = 3 ∧ t.position = s.position ∧ t.time.now = s.time.now)) ∧
    (let q := ordered 0xA06 o [3] s;
      Accepted q s → q.admin = true → s.attic.lifecycle < 3 → s.fore.claims = [] → AtticTakes blkLife s → takes Ev.LIFECYCLE_CHANGE s = true → Completes (.lifecycleRetired o) s (fun t =>
        t.attic.lifecycle = 3 ∧ Recorded Ev.LIFECYCLE_CHANGE [s.attic.lifecycle, 3] s t ∧ t.vault.identity = false ∧ t.lamp.root = none ∧ t.attic.nonce = 0 ∧ t.attic.owned = false ∧
        t.attic.standing = [] ∧ t.vault.slots = [] ∧ t.vault.deep = [] ∧ t.mode = 0 ∧ t.fld Reg.PWR_RESET_CAUSE Fd.PWR_RESET_CAUSE_CAUSE = 3))

/-- MODE_SET (R27, R441 to R445): the mode that is in force is no change; Test needs its authorisation and leaves no key and no memory behind; Service ends Test and Recovery by a reset and Banked by its restoration; Banked stops traffic and powers the galleries down. The end of Banked (R443): once the way back has been claimed the part is in Service with its galleries online, and the order that asked for it is done. -/
def Obligations.ModeOrders : Prop :=
  (∀ (o : OrdBy) (s : State), claimOn s .mode = none →
      (let q := ordered 0xA07 o [1] s; Accepted q s →
        (s.mode = 1 → exec (.modeSetTest o) s = .next (orderEnds q St.OK [] (begun q s))) ∧
        (s.mode ≠ 1 → testAllowed q s = false → takes (monCode 0x15) s = true → effective s 0x15 ≤ 1 → Completes (.modeSetTest o) s (fun t => ∃ u, t = orderEnds q St.DENIED [] u ∧ Warned 0x15 [1] (begun q s) u)) ∧
        (s.mode = 2 → testAllowed q s = true → resyncOn s = false → Completes (.modeSetTest o) s (fun t => ∃ u, t = orderEnds q St.OK [] u ∧ u.mode = 1 ∧ u.vault.slots = [] ∧ u.vault.fills = [] ∧ u.vault.deep = s.vault.deep ∧
          u.assoc = [] ∧ u.mem.bytes = [] ∧ u.mem.side = [] ∧ (∃ d, ∀ i, i < 256 → tget memKey0 u.vault.memKeys i = Config.random (d + i)) ∧ u.attic.lifecycle = s.attic.lifecycle))) ∧
      (let q := ordered 0xA07 o [2] s; Accepted q s →
        (s.mode = 2 → exec (.modeSetService o) s = .next (orderEnds q St.OK [] (begun q s))) ∧
        (s.mode = 1 → exec (.modeSetService o) s = .next (internalReset 4 0 (begun q s))) ∧
        (s.mode = 4 → exec (.modeSetService o) s = .next (internalReset 5 0 (begun q s))) ∧
        (s.mode = 3 → exec (.modeSetService o) s = .next (waiting q { begun q s with fore := { (begun q s).fore with claims := hwClaim .mode 0x005 :: s.fore.claims } })) ∧
        (s.mode = 1 ∨ s.mode = 4 → Completes (.modeSetService o) s (fun t => t.mode = 0 ∧ t.fld Reg.PWR_RESET_CAUSE Fd.PWR_RESET_CAUSE_CAUSE = (if s.mode = 1 then 4 else 5) ∧
          t.fld Reg.PWR_RESET_CAUSE Fd.PWR_RESET_CAUSE_PREV_MODE = s.mode ∧ t.vault.slots = [] ∧ t.lamp = s.lamp ∧ t.attic = { s.attic with resets := s.attic.resets + 1 }))) ∧
      (let q := ordered 0xA07 o [3] s; Accepted q s →
        (s.mode = 3 → exec (.modeSetBanked o) s = .next (orderEnds q St.OK [] (begun q s))) ∧
        (s.mode = 1 → bankedMeets s = none → exec (.modeSetBanked o) s = .next (orderEnds q St.UNSUPPORTED [] (begun q s))) ∧
        (s.mode = 2 → bankedMeets s = none → Completes (.modeSetBanked o) s (fun t => ∃ u, t = orderEnds q St.OK [] u ∧ u.mode = 3 ∧ u.reg Reg.GAL_ONLINE = 0 ∧ u.gal.jobs = [] ∧ u.gal.restoring = [] ∧
          (∀ (g : Fin 64) (k : Fin 16), (galThread u g.val k.val).tag = none ∧ (galThread u g.val k.val).regs = []) ∧ u.gate.entries = [] ∧ u.twin.xcBuf = [] ∧ (s.gal.jobs = [] → s.fore.deferred = [] → u.mem.bytes = s.mem.bytes) ∧ u.vault.deep = s.vault.deep))) ∧
      (s.live = true → s.mode = 3 → Idles .bankedExitDone s)) ∧
  (∀ (s : State) (c : Claim) (w : OrdReq), s.live = true → s.mode = 3 → s.reg Reg.GAL_ONLINE = 0 → (∀ L, L < 64 → laneUp s L = false) → claimOn s .mode = some c → c.code = 0x005 →
      s.fore.waits.find? (fun o => o.code == 0xA07 && o.arg 0 == 2) = some w → w.t < 4 →
      Completes .bankedExitDone s (fun t => ∃ u : State, t = orderEnds w St.OK [] { u with fore := { u.fore with waits := u.fore.waits.erase w } } ∧ u.mode = 2 ∧ u.reg Reg.GAL_ONLINE = BitVec.ofNat 64 (galPresent s) ∧
        (∀ k ∈ u.fore.claims, k.res = .mode → k.code ≠ 0x005) ∧ u.vault = s.vault ∧ u.mem = s.mem ∧ u.assoc = s.assoc ∧ u.cls = s.cls ∧ u.time = s.time))

/-! ## The path of an order, jobs and management programs (chapters 05, 07) -/

/-- What every order meets before its own rules (R200, R219, R221, R360, R370, R375, R408, R418, Table 07.9): a thread that does not run issues nothing, the program of a reset function ends, a denied order ends with DENIED and a violation of the access table is recorded, the caution state holds the orders it names, a twin without the role refuses, and a running copy defers. ORD (R200, R223): on the foreman it issues the order that its code names with g16 to g23, an undefined code completes with UNSUPPORTED; and a deferred order waits while the caution state holds it, and is reported when it is done. -/
def Obligations.OrderPath : Prop :=
  (∀ (c : Instr) (code : Nat) (o : OrdBy) (args : List W64) (s : State), orderCmd c = some (code, o, args) →
      let q := ordered code o args s
      (foreRuns s o.t.val = false → Idles c s) ∧
      (foreRuns s o.t.val = true → programReset s o.t.val = true → Completes c s (fun t => ∃ r u, running s o.t.val = some r ∧ running t o.t.val = some { r with status := some (r.status.getD St.ABORTED) } ∧
        (∀ j, j ≠ o.t.val → running t j = running s j) ∧ t = { s with fore := { s.fore with running := u } })) ∧
      (foreRuns s o.t.val = true → programReset s o.t.val = false →
        (stateAllows q s = false → exec c s = .next (orderEnds q St.DENIED [] (noteOrder q s))) ∧
        (∀ target perm, stateAllows q s = true → accessDenies q s = some (target, perm) → takes Ev.ACCESS_VIOLATION s = true →
          Completes c s (fun t => ∃ u, Raised Ev.ACCESS_VIOLATION [q.master, target, code] (noteOrder q s) u ∧ t = orderEnds q St.DENIED [] u)) ∧
        (stateAllows q s = true → accessDenies q s = none →
          (inCaution s = true → heldInCaution code = true → Completes c s (fun t => t.guard = { s.guard with held := s.guard.held ++ [.order q] } ∧
            t = { s with guard := t.guard, fore := { s.fore with running := t.fore.running } })) ∧
          (inCaution s = false ∨ heldInCaution code = false →
            (∀ st, roleRefuses q s = some st → exec c s = .next (orderEnds q st [] (begun q s))) ∧
            (roleRefuses q s = none → resyncDefers q s = true → s.fore.deferred.length < 32 → Completes c s (fun t => ∃ u, u = orderEnds q (St.DEFERRED + s.fore.nextTicket * 2 ^ 8) [] (begun q s) ∧
              t = { u with fore := { u.fore with
                deferred := s.fore.deferred ++ [⟨s.fore.nextTicket, { q with t := 4 + s.fore.nextTicket }, false⟩], nextTicket := (s.fore.nextTicket + 1) % 2 ^ 24 } })) ∧
            (∀ k, isActive s = false → s.mode ≠ 3 → (code = 0x101 ∧ args = [BitVec.ofNat 64 k] ∧ laneArg k = none ∧ k < 2 ^ 64 ∨ code = 0x402 ∧ args = [BitVec.ofNat 64 k] ∧ 4 ≤ k ∧ k < 2 ^ 64) → roleRefuses q s = none → resyncDefers q s = false →
              exec c s = .next (orderEnds q St.UNSUPPORTED [] (begun q s))))))) ∧
  ((∀ (k : Fin 4) (gd : Prd) (c : Ctx) (s : State) (code : BitVec 12) (rd : Reg) (ecc : Ecc), Ready (.fore k) gd c s → Issued c (.ord (.fore k) gd code rd ecc slotNop) → programReset s k.val = false →
      let i : Instr := .ord (.fore k) gd code rd ecc slotNop
      let u := setThread (.fore k) (stepped c.h) s
      let g := fun i => c.h.g (16 + i)
      let q := ordered code.toNat ⟨k, rd, ecc⟩ ((List.range 8).map g) u
      (((orderBodiesLow ++ orderBodiesMid ++ orderBodiesHigh).all (fun e => e.1 != code.toNat) = true) → exec i s = .next (orderEnds q St.UNSUPPORTED [] (noteOrder q u))) ∧
      (Accepted q u → code = 0xA02 → (g 0).toNat < 0xF00000 → (g 0).toNat % 8 = 0 →
        exec i s = .next (orderEnds q St.OK [(16, readReg (begun q u) (g 0).toNat)] (afterRead (g 0).toNat (begun q u)))) ∧
      (Accepted q u → code = 0x603 → (g 0).toNat < 1088 → (g 1).toNat ≤ 1600000000 → (g 2).toNat < 2 ^ 24 → exec i s = .next (orderEnds q St.OK [] { begun q u with wnd := { s.wnd with
        shapers := tput shaper0 s.wnd.shapers (g 0).toNat { shaperOf s (g 0).toNat with rate := (g 1).toNat, burst := (g 2).toNat, credit := min (shaperOf s (g 0).toNat).credit ((g 2).toNat * 256 : Nat) } } }))) ∧
    (∀ (ticket : Nat) (d : Deferred) (s : State), s.fore.deferred.find? (fun d => d.ticket == ticket) = some d → s.live = true → foreOn s = true → d.req.t = 4 + ticket →
      (s.fore.waits.any (fun o => o.t == d.req.t) = true → Idles (.deferredOrderRun ticket) s) ∧
      (inCaution s = true → heldInCaution d.req.code = true → Idles (.deferredOrderRun ticket) s) ∧
      (inCaution s = false → s.fore.waits.any (fun o => o.t == d.req.t) = false → roleRefuses d.req s = none → resyncDefers d.req s = true → Idles (.deferredOrderRun ticket) s) ∧
      (inCaution s = false → s.fore.waits.any (fun o => o.t == d.req.t) = false → roleRefuses d.req s = none → resyncDefers d.req s = false → isActive s = false → d.req.code = 0x402 → d.req.arg 0 < 4 →
        d.req.arg 0 = dispatchEpoch s → nbit (loadedMap s) (d.req.arg 0) = true → d.silent = true → Completes (.deferredOrderRun ticket) s (fun t => ∃ u v,
          u = { s with fore := { s.fore with deferred := s.fore.deferred.erase d }, regs := u.regs } ∧ dispatchEpoch u = dispatchEpoch s ∧ RegsBut [Reg.GAL_EPOCH] s u ∧
          Raised Ev.ORDER_DONE [d.req.signer * 2 ^ 32 + d.req.fn, d.req.seq, ticket, 0x402 * 256 + St.OK] u v ∧ t = freeUsed (orderCells d.req v) v))))

/-- Look-aside jobs (R149, R165 to R168): GO marks a slot, the part takes the next waiting job, a job that does not fit or whose cells are not handed over ends at once, a job that runs holds its key, and its end writes its output or zeros. -/
def Obligations.Jobs : Prop :=
  ∀ (fn j : Fin 16) (s : State), s.live = true →
    (fn.val ∉ s.host.flr → ideOk s true = false → losesEvidence Ev.ACCESS_VIOLATION s = false → Completes (.jobGo fn j) s (Violated fn.val 0x30 (pgJob j.val 0) s)) ∧
    (fn.val ∉ s.host.flr → ideOk s true = true → exec (.jobGo fn j) s = .next (s.setPg fn.val (pgJob j.val 0) (s.pg fn.val (pgJob j.val 0) ||| BitVec.ofNat 64 (2 ^ 32)))) ∧
    (fn.val ∈ s.host.flr → Idles (.jobGo fn j) s) ∧
    (∀ (g : Nat) (ok : Bool), jobGallery s = some g → squelched s = false → nextJob s = some (fn.val, j.val) → s.gal.jobs.length < 256 →
      let u := { s with gal := { s.gal with jobRotate := (fn.val + 1) % 16 } }
      (jobFits s fn.val j.val = false → exec (.jobStart fn j ok) s = .next (jobRefuse fn.val j.val 8 u)) ∧
      (∀ c, jobFits s fn.val j.val = true → jobCellsOk s fn.val j.val = false → (jobCells s fn.val j.val).find? (fun c => !ownsCell s fn.val c) = some c → takes Ev.ACCESS_VIOLATION s = true →
        Completes (.jobStart fn j ok) s (fun t => ∃ v, Raised Ev.ACCESS_VIOLATION [fn.val, 0x15, c] u v ∧ t = jobRefuse fn.val j.val 9 v)) ∧
      (jobFits s fn.val j.val = true → jobCellsOk s fn.val j.val = false → (jobCells s fn.val j.val).all (ownsCell s fn.val) = true → exec (.jobStart fn j ok) s = .next (jobRefuse fn.val j.val 9 u)) ∧
      (jobFits s fn.val j.val = true → jobCellsOk s fn.val j.val = true → jobMayUse s fn.val = false → takes Ev.ACCESS_VIOLATION s = true →
        Completes (.jobStart fn j ok) s (fun t => ∃ v, Raised Ev.ACCESS_VIOLATION [fn.val, 0x00, jobSlot s fn.val j.val] u v ∧ t = jobRefuse fn.val j.val 9 v)) ∧
      (jobFits s fn.val j.val = true → jobCellsOk s fn.val j.val = true → jobMayUse s fn.val = true → isXts (jobMode s fn.val j.val) = false → (jobKey fn.val j.val ok u).1 = 0 → (jobKey fn.val j.val ok u).2 = u →
        Completes (.jobStart fn j ok) s (fun v => ∃ t, v = enterUnit g (.job fn.val j.val) t ∧ t.gal.jobs = s.gal.jobs ++ [⟨fn.val, j.val, (slotOf s (jobSlot s fn.val j.val)).key.setWidth 512, jobSlot s fn.val j.val, (slotOf s (jobSlot s fn.val j.val)).g0 TS.LEN == 1, g, false⟩] ∧
          t.gal.jobRotate = (fn.val + 1) % 16 ∧ jobRunning t fn.val j.val = true ∧ (slotOf t (jobSlot s fn.val j.val)).uses = (slotOf s (jobSlot s fn.val j.val)).uses + 1 ∧
          SlotBut (jobSlot s fn.val j.val) s t ∧
          t = { s with page := t.page, vault := { s.vault with slots := t.vault.slots }, gal := { s.gal with jobs := t.gal.jobs, jobRotate := t.gal.jobRotate } }))) ∧
    (∀ (b : Job) (ecc : Ecc), s.gal.jobs.find? (fun b => b.fn == fn.val && b.j == j.val) = some b →
      (unitKey s b.gal (.job fn.val j.val) = none → Idles (.jobDone fn j ecc) s) ∧
      (∀ key, unitKey s b.gal (.job fn.val j.val) = some key →
        let x : Job := { b with key := key }
        let u := unfetchJob x (leaveUnit b.gal (.job fn.val j.val) none { s with gal := { s.gal with jobs := s.gal.jobs.filter (fun y => !(y.fn == fn.val && y.j == j.val)) } })
        let cells := jobCells s fn.val j.val
        (b.silent = true → exec (.jobDone fn j ecc) s = .next (jobSilent x u)) ∧
        (∀ w, b.silent = false → readCells (cellsOf (landingAt (jobSrc s fn.val j.val)) (jobLen s fn.val j.val)) ecc u = (false, w) →
          exec (.jobDone fn j ecc) s = .next (jobEnd fn.val j.val 9 0 cells (zeroOut fn.val j.val w))) ∧
        (∀ w, b.silent = false → readCells (cellsOf (landingAt (jobSrc s fn.val j.val)) (jobLen s fn.val j.val)) ecc u = (true, w) →
          let r := jobRun w x
          (r.status ≠ 0 → exec (.jobDone fn j ecc) s = .next (jobEnd fn.val j.val r.status 0 cells (zeroOut fn.val j.val w))) ∧
          (∀ v, r.status = 0 → r.tag = none → cellWrite (jobDst s fn.val j.val) r.data w = (true, v) → exec (.jobDone fn j ecc) s = .next (jobEnd fn.val j.val 0 r.data.length cells v)) ∧
          (∀ v tag, r.status = 0 → r.tag = some tag → cellWrite (jobDst s fn.val j.val) r.data w = (true, v) →
            exec (.jobDone fn j ecc) s = .next (jobEnd fn.val j.val 0 r.data.length cells (setPg16 fn.val (pgJob j.val 0x30) tag v)))))) ∧
    (∀ status len cells, ∃ v, Counted Reg.GAL_CNT_LA_JOB 1
      ((s.setPg fn.val (pgJob j.val 0) (BitVec.ofNat 64 (nbits (s.pg fn.val (pgJob j.val 0)).toNat 0 32))).setPg fn.val (pgJob j.val 0x40) (BitVec.ofNat 64 (1 + status * 256 + len * 65536))) v ∧
      jobEnd fn.val j.val status len cells s = irq fn.val (jobVector s fn.val j.val) (handBack cells v))

/-- Management programs from the ring to their end (R213, R216 to R221, R396, R397): a doorbell moves the tail or counts a ring fault, a descriptor's bundle is checked and verified, the oldest accepted bundle starts on a fresh thread, its programs run one after another, and each ends with its header, or late with TIMEOUT. -/
def Obligations.Programs : Prop :=
  ∀ (s : State), s.live = true →
    (∀ (fn : Fin 16) (tail : BitVec 6), fn.val ∉ s.host.flr → ideOk s true = false → losesEvidence Ev.ACCESS_VIOLATION s = false → Completes (.orderRingDoorbell fn tail) s (Violated fn.val 0x30 pgOrdDb s)) ∧
    (∀ (fn : Fin 16) (tail : BitVec 6), fn.val ∉ s.host.flr → ideOk s true = true →
      let head := s.pgFld fn.val pgOrdDb RF.ORD_HEAD
      let moved := s.setPgFld fn.val pgOrdDb RF.ORD_TAIL tail.toNat
      (tailFits 64 head (s.pgFld fn.val pgOrdDb RF.ORD_TAIL) tail.toNat = false → exec (.orderRingDoorbell fn tail) s = .next (bumpPg fn.val pgRingFault 1 s)) ∧
      (tailFits 64 head (s.pgFld fn.val pgOrdDb RF.ORD_TAIL) tail.toNat = true → (head = tail.toNat ∨ 32 ≤ s.fore.verify.length) → exec (.orderRingDoorbell fn tail) s = .next moved) ∧
      (∀ first cells result limit (b : Bundle), tailFits 64 head (s.pgFld fn.val pgOrdDb RF.ORD_TAIL) tail.toNat = true → (head + 1) % 64 = tail.toNat → head ≠ tail.toNat → s.fore.verify.length < 32 →
        (s.pg fn.val (0x1000 + 16 * head)).toNat = first + 2 ^ 16 * cells + 2 ^ 32 * result + 2 ^ 48 * limit → first < 2 ^ 16 → cells < 2 ^ 16 → result < 2 ^ 16 → 1 ≤ limit → limit ≤ 10000 →
        s.pg fn.val (0x1000 + 16 * head + 8) = 0 → rangeReady s fn.val first cells = true → readable s (landingAt first) (4096 * cells) = true → bundleFits (cellBytes s first (4096 * cells)) (4096 * cells) = true →
        b = bundleOf (cellBytes s first (4096 * cells)) s.fore.nextTicket fn.val first cells result limit → signerCheck s b = none →
        Completes (.orderRingDoorbell fn tail) s (fun t => t.pgFld fn.val pgOrdDb RF.ORD_HEAD = tail.toNat ∧ t.pgFld fn.val pgOrdDb RF.ORD_TAIL = tail.toNat ∧
          t = { s with page := t.page, fore := { s.fore with verify := s.fore.verify ++ [{ b with blank := (signerOf s b.signer).isNone }], revoked := s.fore.revoked.filter (fun x => x != s.fore.nextTicket), nextTicket := (s.fore.nextTicket + 1) % 2 ^ 24 } }))) ∧
    (∀ (fn : Fin 16) (b : Bundle) (rest : List Bundle), s.fore.verify = b :: rest → s.fore.pkeOk = true → b.fn = fn.val → (∀ f, f < 16 → s.pgFld f pgOrdDb RF.ORD_HEAD = s.pgFld f pgOrdDb RF.ORD_TAIL) →
      (∀ x, signerFor s b = some (x, false) → b.ticket ∉ s.fore.revoked → signerTakes s x b.fn = true → bundleVerifies b x = true → lastSeqOf s x < b.seq → b.progs.all (fun p => codeLoads p.code) = true → b.blank = false →
        (inCaution s = false → AtticTakes blkSigners s → Completes (.bundleVerifyDone fn b.ticket) s (fun t => ∃ v, Worn s v ∧ Raised Ev.MP_ACCEPTED [b.signer * 2 ^ 32 + b.fn, b.seq] { v with
          fore := { s.fore with verify := rest, accepted := s.fore.accepted ++ [{ b with raw := [] }] }
          attic := { v.attic with signers := s.attic.signers.map (fun y => if y.keyId = b.signer then { y with lastSeq := max y.lastSeq b.seq } else y) } } t)) ∧
        (inCaution s = true → exec (.bundleVerifyDone fn b.ticket) s = .next { s with
          fore := { s.fore with verify := rest, accepted := s.fore.accepted ++ [{ b with raw := [] }] }, guard := { s.guard with held := s.guard.held ++ [.bundleSeq b.ticket] } })) ∧
      (signerFor s b = none ∨ b.ticket ∈ s.fore.revoked → b.fn < 16 → exec (.bundleVerifyDone fn b.ticket) s = .next (refuseBundle b St.NO_SIGNER { s with fore := { s.fore with verify := rest } }))) ∧
    (∀ (t : Fin 4) (b : Bundle) (rest : List Bundle), s.fore.accepted = b :: rest → foreOn s = true → inCaution s = false → t.val ≠ 0 → running s t.val = none →
      (∀ x, startSigner s b = some x → Completes (.programStart t) s (fun u => u.fore.accepted = rest ∧
        running u t.val = some ⟨b, 0, none, 0, s.time.now, s.time.up, 0, none, 0, 0, 0, false, none, x.admin, x.test, x.orderMask, []⟩ ∧ foreThread u t.val = thread0 t.val ∧
        (∀ a, a < 0x10000 → tget byte0 u.fore.scratch (t.val * 0x10000 + a) = 0) ∧ (∀ k, k ≠ t.val → running u k = running s k ∧ foreThread u k = foreThread s k) ∧
        u = { s with fore := { s.fore with accepted := rest, running := u.fore.running, threads := u.fore.threads, scratch := u.fore.scratch } })) ∧
      (startSigner s b = none → exec (.programStart t) s = .next (refuseBundle b St.NO_SIGNER { s with fore := { s.fore with accepted := rest } }))) ∧
    (∀ (t : Fin 4) (r : Running) (st : Nat), running s t.val = some r → orderIdle s t.val = true →
      let h := foreThread s t.val
      let u := writeHeader r.b r.idx (resultHeader r.b r.idx st (if st = St.FAULT then h.fcode else 0) h.fpc r.orders r.lastOrder r.lastStatus r.start s.time.now) s
      let worst := if r.worst.isSome ∨ st = 0 then r.worst else some st
      (r.aborted = false → (r.status = some st ∨ (r.status = none ∧ st = St.OK ∧ ranOut s t.val r = true)) →
        (r.b.progs.length ≤ r.idx + 1 → exec (.programEnd t) s = .next (threadDone t.val r worst u)) ∧
        (r.idx + 1 < r.b.progs.length → (r.b.stopOnFail = false ∨ worst = none) → exec (.programEnd t) s = .next (nextProgram t.val r worst u)) ∧
        (r.idx + 1 < r.b.progs.length → r.b.stopOnFail = true → worst ≠ none → exec (.programEnd t) s = .next (threadDone t.val r worst (unrun r.b St.SKIPPED (r.idx + 1) u)))) ∧
      (r.aborted = false → r.status = none → ranOut s t.val r = false → Idles (.programEnd t) s) ∧
      (r.aborted = true → Completes (.programEnd t) s (fun v => running v t.val = none ∧ foreThread v t.val = thread0 t.val))) ∧
    (∀ (t : Fin 4) (r : Running), running s t.val = some r → r.status = none →
      (r.b.limit * 1000000 < ranFor s r → Completes (.programTimeout t) s (fun u => running u t.val = some { r with status := some St.TIMEOUT } ∧ (∀ k, k ≠ t.val → running u k = running s k) ∧
        (∀ o ∈ u.fore.waits, o.t ≠ t.val) ∧ u.fore.waits.length = s.fore.waits.length ∧
        u = { s with fore := { s.fore with running := u.fore.running, waits := u.fore.waits }, guard := { s.guard with held := u.guard.held } })) ∧
      (ranFor s r ≤ r.b.limit * 1000000 → Idles (.programTimeout t) s))

/-! ## Frames on their way in, the dispatcher and the screen (chapters 01, 02, 05, 08, 09) -/

/-- Frames as they arrive (R12, R35, R47, R142, R271, R273, Tables 01.1, 02.5, 11.6): what the MAC discards or pauses, the way of a client frame into its domain's backlog, and line frames without a usable SecTAG. -/
def Obligations.FrameEntry : Prop :=
  ∀ (s : State) (data : Bytes) (ts : Nat),
    (∀ (p : Fin 32) (chk : RxCheck) (ecc : List (Nat × Nat)) (wr : Bool), let n := data.length + 4
      (s.live = false ∨ s.mode ≠ 2 ∨ portUp s p.val = false → Idles (.clientFrameRx p data chk ts ecc wr) s) ∧
      (trafficOn s = false ∨ portUp s (32 + p.val) = false → Idles (.lineFrameRx p data chk ts ecc) s) ∧
      (trafficOn s = true → s.flag Reg.WND_DN_CFG Fd.WND_DN_CFG_EN = false → ∀ (c : Instr) (P : Nat),
        (c = .clientFrameRx p data chk ts ecc wr ∧ P = p.val ∨ c = .lineFrameRx p data chk ts ecc ∧ P = 32 + p.val) → portUp s P = true →
        (chk = .codeErr → Completes c s (fun t => ∃ u, Counted (Reg.MAC_CNT_RX_CODE_ERR P) 1 s u ∧ DropCounted P 0x0D none u t)) ∧
        (chk = .badFcs → n < 64 → Completes c s (fun t => ∃ u, Counted (Reg.MAC_CNT_RX_FRAGMENT P) 1 s u ∧ DropCounted P 0x0D none u t)) ∧
        (chk = .badFcs → 64 ≤ n → effMax s P < n → Completes c s (fun t => ∃ u, Counted (Reg.MAC_CNT_RX_JABBER P) 1 s u ∧ DropCounted P 0x0D none u t)) ∧
        (chk = .badFcs → 64 ≤ n → n ≤ effMax s P → Completes c s (fun t => ∃ u v, Counted (Reg.MAC_CNT_RX_FCS_ERR P) 1 s u ∧
          Counted (Reg.MAC_CNT_RX_SIZE P (sizeBin n)) 1 u v ∧ DropCounted P 0x0D none v t)) ∧
        (chk = .good → n < 64 → Completes c s (fun t => ∃ u, Counted (Reg.MAC_CNT_RX_RUNT P) 1 s u ∧ DropCounted P 0x0E none u t)) ∧
        (chk = .good → 64 ≤ n → effMax s P < n → Completes c s (fun t => ∃ u, Counted (Reg.MAC_CNT_RX_OVERSIZE P) 1 s u ∧ DropCounted P 0x0E none u t)))) ∧
    (∀ (p : Fin 32) (wr : Bool) (line a : Nat) (k : Sys2Proof.Machine.Class) (v : State), trafficOn s = true → portUp s p.val = true → 64 ≤ data.length + 4 → data.length + 4 ≤ effMax s p.val → isControl data = false →
      s.flag Reg.TBL_CFG Fd.TBL_CFG_LEARN_EN = false → classify p.val data true (macCountRx p.val data .good s) = (k, v) → fget k.res RR.DROP = 0 → lineFramed v p.val = false →
      boundLine v p.val = some line → clientAssoc v p.val line k = some a → isRepl v p.val = false → let w := police p.val k data (requestAssoc a v)
      w.1 ≠ 2 → backlogRoom w.2 p.val data.length = true →
      Completes (.clientFrameRx p data .good ts [] wr) s (fun t => ∃ it, t = backlogPush it w.2 ∧
        it.dom = p.val ∧ it.port = p.val ∧ it.data = data ∧ it.len = data.length ∧ it.assoc = some a ∧ it.cls = classOf v p.val k data ∧ it.color = w.1 ∧ it.mscCfg = s.reg (Reg.MSC_PORT_CFG line) ∧ it.tpid = s.reg Reg.MSC_TPID ∧
        it.queue = queueFor v p.val k (32 + line) (classOf v p.val k data) ∧ it.target = 32 + line ∧ it.rule = k.rule ∧ it.flags = k.flags ∧ it.ts = ts ∧ it.st = .waiting ∧ it.key = none ∧
        t.vault = s.vault ∧ t.assoc = s.assoc ∧ t.mem = s.mem ∧ t.lanes = s.lanes ∧ t.lfr = s.lfr ∧ t.time = s.time ∧ t.fore = s.fore ∧ t.gate = s.gate ∧ t.pending = s.pending)) ∧
    (∀ (p : Fin 32) (wr : Bool) (k : Sys2Proof.Machine.Class) (v : State), trafficOn s = true → portUp s p.val = true → 64 ≤ data.length + 4 → data.length + 4 ≤ effMax s p.val → isControl data = false →
      classify p.val data true (macCountRx p.val data .good s) = (k, v) → fget k.res RR.DROP = 1 → s.flag Reg.WND_DN_CFG Fd.WND_DN_CFG_EN = false →
      Completes (.clientFrameRx p data .good ts [] wr) s (DropCounted p.val 0x09 none v)) ∧
    (∀ (p : Fin 32) (k : Sys2Proof.Machine.Class) (v : State), let P := 32 + p.val
      trafficOn s = true → portUp s P = true → 64 ≤ data.length + 4 → data.length + 4 ≤ effMax s P → isControl data = false → s.flag Reg.WND_DN_CFG Fd.WND_DN_CFG_EN = false →
      macsecOn s p.val = false ∨ etype s data ≠ 0x88E5 → classify P data (macsecOn s p.val) (macCountRx P data .good s) = (k, v) → hasFlag k.flags fEapol = false →
      (fget k.res RR.DROP = 1 → Completes (.lineFrameRx p data .good ts []) s (fun t => ∃ u, Counted (Reg.MSC_CNT p.val MP.IN_NO_TAG) 1 v u ∧ DropCounted P 0x09 none u t)) ∧
      (fget k.res RR.DROP = 0 → boundClient s p.val = none → Completes (.lineFrameRx p data .good ts []) s (fun t => ∃ u, Counted (Reg.MSC_CNT p.val MP.IN_NO_TAG) 1 v u ∧ DropCounted P 0x09 none u t)) ∧
      (∀ c, fget k.res RR.DROP = 0 → boundClient s p.val = some c → fget k.res RR.CLEAR_OK = 0 → Completes (.lineFrameRx p data .good ts []) s (fun t => ∃ u, Counted (Reg.MSC_CNT p.val MP.IN_NO_TAG) 1 v u ∧ DropCounted P 0x09 none u t)) ∧
      (∀ c, fget k.res RR.DROP = 0 → boundClient s p.val = some c → fget k.res RR.CLEAR_OK = 1 → exec (.lineFrameRx p data .good ts []) s = .next (lineItem p.val c k (newItem P P data ts) v))) ∧
    (∀ (p : Fin 32) (c : Nat) (k : Sys2Proof.Machine.Class) (v : State), let P := 32 + p.val
      trafficOn s = true → portUp s P = true → 64 ≤ data.length + 4 → data.length + 4 ≤ effMax s P → isControl data = false → s.flag Reg.WND_DN_CFG Fd.WND_DN_CFG_EN = false →
      macsecOn s p.val = true → etype s data = 0x88E5 → classify P data true (macCountRx P data .good s) = (k, v) → fget k.res RR.DROP = 0 → boundClient s p.val = some c →
      (badTag s p.val data (l2Off s data) = true → Completes (.lineFrameRx p data .good ts []) s (fun t => ∃ u, Counted (Reg.MSC_CNT p.val MP.IN_BAD_TAG) 1 v u ∧ DropCounted P 0x09 none u t)) ∧
      (badTag s p.val data (l2Off s data) = false → findSci v p.val (frameSci s p.val data (l2Off s data)) = none → Completes (.lineFrameRx p data .good ts []) s (fun t => ∃ u,
        Counted (Reg.MSC_CNT p.val (if tciBit data (l2Off s data) 5 then MP.IN_UNKNOWN_SCI else MP.IN_NO_SCI)) 1 v u ∧ DropCounted P 0x09 none u t)))

/-- Pauses toward the part and from it, learns and the association cache (R235, R240, R270, R271, R277, Table 08.5). -/
def Obligations.PausesAndLearns : Prop :=
  ∀ (s : State),
    (∀ (p : Fin 64) (pause : Option (BitVec 16)) (en : Byte) (quanta : List (BitVec 16)), trafficOn s = true → portUp s p.val = true → 32 ≤ p.val →
      Completes (.pfcRx p pause en quanta) s (fun t => ∃ u, Counted (Reg.MAC_CNT_RX_SIZE p.val 0) 1 s u ∧ Counted (Reg.MAC_CNT_RX_CTRL_DISCARD p.val) 1 u t)) ∧
    (∀ (p : Fin 64) (q : BitVec 16) (en : Byte) (quanta : List (BitVec 16)), trafficOn s = true → portUp s p.val = true → p.val < 32 → portRate s p.val ≠ 0 →
      Completes (.pfcRx p (some q) en quanta) s (fun t =>
        t.reg (Reg.MAC_CNT_RX_PAUSE p.val) = BitVec.ofNat 64 (count40 (s.reg (Reg.MAC_CNT_RX_PAUSE p.val)).toNat 1) ∧
        (∀ c, c < 8 → pfcField s p.val Fd.WND_PFC_CFG_PAUSE_RX = 1 → (queueOf t (queueAt p.val c)).pausedUntil = (if q.toNat = 0 then none else some (s.time.up + ceilDiv (q.toNat * 512000) (portRate s p.val)))) ∧
        (∀ n, (queueOf t n).frames = (queueOf s n).frames ∧ (pfcField s p.val Fd.WND_PFC_CFG_PAUSE_RX = 0 ∨ (∀ c, c < 8 → n ≠ queueAt p.val c) → queueOf t n = queueOf s n)) ∧
        t = { s with regs := t.regs, page := t.page, out := t.out, wnd := { s.wnd with queues := t.wnd.queues } })) ∧
    (∀ (p : Fin 64) (en : Byte) (quanta : List (BitVec 16)), trafficOn s = true → portUp s p.val = true → p.val < 32 → portRate s p.val ≠ 0 →
      Completes (.pfcRx p none en quanta) s (fun t =>
        (∀ c, c < 8 → t.reg (Reg.MAC_CNT_RX_PFC p.val c) = if en.getLsbD c then BitVec.ofNat 64 (count40 (s.reg (Reg.MAC_CNT_RX_PFC p.val c)).toNat 1) else s.reg (Reg.MAC_CNT_RX_PFC p.val c)) ∧
        (∀ c, c < 8 → queueOf t (queueAt p.val c) = (let x := queueOf s (queueAt p.val c); let q := (quanta.getD c 0).toNat
          if en.getLsbD c && nbit (pfcField s p.val Fd.WND_PFC_CFG_RX_EN) c then
            if q = 0 then (if x.pausedUntil.isSome then { x with pausedUntil := none, pausedLong := false, pausedNs := pausedFor s x % 1000 } else x)
            else { x with pausedUntil := some (s.time.up + ceilDiv (q * 512000) (portRate s p.val)), pausedAt := if x.pausedUntil.isSome then x.pausedAt else s.time.up }
          else x)) ∧
        (∀ n, (∀ c, c < 8 → n ≠ queueAt p.val c) → queueOf t n = queueOf s n) ∧
        t = { s with regs := t.regs, page := t.page, out := t.out, wnd := { s.wnd with queues := t.wnd.queues } })) ∧
    (∀ (p : Fin 32) (c : Fin 8) (till : Nat), let q := queueAt p.val c.val
      s.live = true → (queueOf s q).pausedUntil = some till →
      (till ≤ s.time.up → Completes (.pauseExpire p c) s (Counted (Reg.Q_CNT_PAUSED_US q) ((pausedFor s (queueOf s q)) / 1000)
        { s with wnd := { s.wnd with queues := tput queue0 s.wnd.queues q { queueOf s q with pausedUntil := none, pausedLong := false, pausedNs := pausedFor s (queueOf s q) % 1000 } } })) ∧
      (s.time.up < till → Idles (.pauseExpire p c) s) ∧
      ((queueOf s q).pausedLong = false → (queueOf s q).pausedAt + 100000000 ≤ s.time.up → Completes (.pauseLong p c) s (Raised Ev.PAUSE_LONG [p.val, q]
        { s with wnd := { s.wnd with queues := tput queue0 s.wnd.queues q { queueOf s q with pausedLong := true } } }))) ∧
    (∀ (p : Fin 32) (c : Fin 8), trafficOn s = true →
      (priorityHeld s p.val c.val = true → pfcDue s p.val c.val = true → Completes (.pfcRefresh p c) s (Counted (Reg.MAC_CNT_TX_PFC p.val c.val) 1
        { s with out := .pfc p.val (2 ^ c.val) (pfcField s p.val Fd.WND_PFC_CFG_QUANTA) :: s.out, wnd := { s.wnd with pfcAt := tput nat0 s.wnd.pfcAt (8 * p.val + c.val) s.time.up } })) ∧
      (priorityHeld s p.val c.val = false ∨ pfcDue s p.val c.val = false → Idles (.pfcRefresh p c) s)) ∧
    (∀ (a : Nat) (ecc : Ecc), s.live = true →
      (s.cls.fetching.contains a = false → Idles (.acacheFetchDone a ecc) s) ∧
      (∀ ok w, s.cls.fetching.contains a = true → (s.cls.cached.erase a).length < 32768 → readCells [recordAt a / 256, mapWordAt a / 256] ecc s = (ok, w) →
        let u := { w with cls := { s.cls with cached := s.cls.cached.erase a ++ [a], fetching := s.cls.fetching.erase a } }
        (ok = true → exec (.acacheFetchDone a ecc) s = .next u) ∧
        (ok = false → exec (.acacheFetchDone a ecc) s = .next { u with assoc := tput assoc0 s.assoc a { arec s a with memBad := true } }))) ∧
    (∀ (l : List Nat) (ecc : Ecc), ecc ≠ .bad → (∀ n ∈ l, keyHeld s (sectorAt s n).mkey (sectorAt s n).kgen = true ∧ (sectorAt s n).poison = false) → readCells l ecc s = (true, s)) ∧
    (s.cls.learnQ = [] → Idles (.learnCommit 0) s) ∧ (∀ table : Fin 3, table ≠ 0 → Idles (.learnCommit table) s) ∧
    (∀ (l : Learn) (rest : List Learn), s.live = true → s.cls.learnQ = l :: rest → let v := { s with cls := { s.cls with learnQ := rest } }
      let now := tblStamp s
      (findPeer s l.key = none → ∀ i, placeIn s.cls.peers (peerBuckets l.key) = some i → Completes (.learnCommit 0) s (Counted Reg.TBL_CNT_LEARN 1
        { v with cls := { v.cls with peers := tset s.cls.peers i ⟨l.key, l.res, now, now, false, none⟩ } })) ∧
      (findPeer s l.key = none → placeIn s.cls.peers (peerBuckets l.key) = none → Completes (.learnCommit 0) s (fun t => ∃ u, Counted Reg.TBL_CNT_LEARN_FULL 1 v u ∧ Raised Ev.TABLE_FULL [0, l.key, l.loc] u t)) ∧
      (∀ i p, findPeer s l.key = some (i, p) →
        (fget p.res PR.LOC = l.loc → exec (.learnCommit 0) s = .next v) ∧
        (fget p.res PR.LOC ≠ l.loc → fget p.res PR.STATIC = 1 → takes Ev.STATIC_CONFLICT s = true → Completes (.learnCommit 0) s (fun t => ∃ u,
          Counted Reg.TBL_CNT_STATIC_CONFLICT 1 v u ∧ Raised Ev.STATIC_CONFLICT [0, l.key, fget p.res PR.LOC, l.loc] u t)) ∧
        (fget p.res PR.LOC ≠ l.loc → fget p.res PR.STATIC = 0 → now - p.learned < s.fld Reg.TBL_CFG Fd.TBL_CFG_MOVE_HOLD → ∀ c, p.contendedAt = some c → now < c + s.fld Reg.TBL_CFG Fd.TBL_CFG_MOVE_HOLD →
          Completes (.learnCommit 0) s (Counted Reg.TBL_CNT_CONTENDED 1 v)) ∧
        (fget p.res PR.LOC ≠ l.loc → fget p.res PR.STATIC = 0 → now - p.learned < s.fld Reg.TBL_CFG Fd.TBL_CFG_MOVE_HOLD → p.contendedAt = none →
          Completes (.learnCommit 0) s (fun t => ∃ u, Counted Reg.TBL_CNT_CONTENDED 1 v u ∧ Raised Ev.CONTENDED_LEARN [0, l.key, fget p.res PR.LOC, l.loc]
            { u with cls := { u.cls with peers := tset s.cls.peers i { p with contendedAt := some now } } } t)) ∧
        (fget p.res PR.LOC ≠ l.loc → fget p.res PR.STATIC = 0 → s.fld Reg.TBL_CFG Fd.TBL_CFG_MOVE_HOLD ≤ now - p.learned → Completes (.learnCommit 0) s (fun t => ∃ u, Counted Reg.TBL_CNT_MOVE 1
          { v with cls := { v.cls with peers := tset s.cls.peers i { p with res := l.res, learned := now, contendedAt := none } } } u ∧ Raised Ev.STATION_MOVE [0, l.key, fget p.res PR.LOC, l.loc] u t))))

/-- The dispatcher (R22, R44, R119, R143 to R145, R157): a client frame with a resident key takes its tag, its packet number, its epoch and a gallery; it stalls without one of them, parks without its key, and waits for its record. -/
def Obligations.Dispatcher : Prop :=
  ∀ (s : State) (d : Fin 112) (tag : Fin 65536) (keyOk : Bool) (ecc : Ecc),
    (trafficOn s = false → Idles (.dispatch d tag keyOk ecc) s) ∧
    (s.gal.parked = [] → backlogOf s d.val = [] → Idles (.dispatch d tag keyOk ecc) s) ∧
    (∀ (it : Item) (rest : List Item), trafficOn s = true → s.gal.parked = [] → backlogOf s d.val = it :: rest → it.dom = d.val →
      (planOf s it = .wait → Idles (.dispatch d tag keyOk ecc) s) ∧
      (∀ h, planOf s it = .park (some h) → 32 ≤ d.val → ceilDiv it.len 256 ≤ parkRoom s → s.vault.fills.contains h = false → s.flag Reg.SRM_CFG Fd.SRM_CFG_FILL_EN = true →
        let i := regionKey s 2
        let l := pickCells 2 (ceilDiv it.len 256) s
        Completes (.dispatch d tag keyOk ecc) s (fun t => ∃ u, Counted Reg.SRM_CNT_MISS 1 s u ∧
          (∀ n ∈ l, regionOfCell n = 2 ∧ n ∉ usedCells s ∧ n ∉ s.mem.withheld) ∧ (∀ n, sectorAt t n = if n ∈ l then ⟨i, kgenOf s i, false, true⟩ else sectorAt s n) ∧
          t = { u with
            draws := s.draws + 1, mem := { s.mem with side := t.mem.side }
            gal := { s.gal with backlog := tput nil0 s.gal.backlog d.val rest, parked := [{ it with flags := it.flags ||| fParked, mkey := i, kgen := kgenOf s i, cells := l }] }
            vault := { s.vault with fills := s.vault.fills ++ [h] } })) ∧
      (∀ r, planOf s it = .drop r false → 32 ≤ d.val → d.val < 64 → s.flag Reg.WND_DN_CFG Fd.WND_DN_CFG_EN = false → r ≠ 6 →
        Completes (.dispatch d tag keyOk ecc) s (DropCounted it.port r (some it.queue) { s with gal := { s.gal with backlog := tput nil0 s.gal.backlog d.val rest } })) ∧
      (∀ (a : Nat) (r : ARec) (e : AnEnt) (n : Nat), it.assoc = some a → s.cls.fetching.contains a = false → arec s a = r → r.memBad = false → r.ans.length = 4 → r.c AC.STATE = 1 → r.c AC.CUR_AN = n → r.an n = e →
        e.valid = true → e.retiring = false → e.handle = none → e.nextPn ≤ r.limit → (e.warned = true ∨ e.nextPn + 1 < r.limit - r.warn) → (slotOf s e.slot).valid = true →
        (parentSame s (slotOf s e.slot) = true ∨ (slotOf s e.slot).g0 TS.WOP = 0) → reached s ((slotOf s e.slot).g2 TS.EXPIRY) = false → (slotOf s e.slot).bit TS.U_AEAD = true →
        d.val < 32 → s.gal.paused.contains d.val = false → pfcField s d.val Fd.WND_PFC_CFG_TX_EN = 0 → ptpFind s it.data = none → itemOf s tag.val = none →
        (mayGo s it = false → Completes (.dispatch d tag true ecc) s (fun t => ∃ u, Counted Reg.GAL_CNT_STALL 1 u t ∧ u = { s with assoc := u.assoc } ∧ ∀ b, arec u b = arec s b)) ∧
        (∀ g, mayGo s it = true → pickGallery s = some g → Completes (.dispatch d tag true ecc) s (fun t => ∃ x,
          itemOf t tag.val = some x ∧ x.data = it.data ∧ x.dom = it.dom ∧ x.tag = tag.val ∧ x.gal = g ∧ x.st = .queued ∧ x.epoch = dispatchEpoch s ∧ x.an = n ∧ x.pn = e.nextPn ∧ x.counted = true ∧
          x.key = some ⟨e.slot, (slotOf s e.slot).key, (slotOf s e.slot).g0 TS.LEN == 1⟩ ∧ x.salt = e.salt ∧ x.ssci = e.ssci ∧ x.ctrl = r.ctrl ∧ x.sci = r.sci ∧
          (∀ k, k ≠ tag.val → itemOf t k = itemOf s k) ∧ tagsOf t d.val = tagsOf s d.val ++ [tag.val] ∧ (∀ b, b ≠ d.val → tagsOf t b = tagsOf s b) ∧
          tget nil0 t.gal.queues g = tget nil0 s.gal.queues g ++ [tag.val] ∧ (∀ b, b ≠ g → tget nil0 t.gal.queues b = tget nil0 s.gal.queues b) ∧ backlogOf t d.val = rest ∧
          (∀ b, b ≠ d.val → backlogOf t b = backlogOf s b) ∧ t.gal.rotate = (s.gal.rotate + 1) % 64 ∧
          (arec t a).an n = { e with nextPn := e.nextPn + 1, inflight := e.inflight + 1 } ∧ (∀ j, j ≠ n → (arec t a).an j = r.an j) ∧ RecordBut a s t ∧
          slotOf t e.slot = { slotOf s e.slot with uses := (slotOf s e.slot).uses + 1, refd := true } ∧ SlotBut e.slot s t ∧
          t.reg Reg.GAL_CNT_DISPATCH = BitVec.ofNat 64 (count40 (s.reg Reg.GAL_CNT_DISPATCH).toNat 1) ∧
          RegsBut [Reg.GAL_CNT_DISPATCH, halfWord Reg.GAL_CNT_DISPATCH, Reg.GAL_EPOCH_INFLIGHT (dispatchEpoch s), Reg.GAL_TAGS] s t ∧
          t = { s with
            regs := t.regs, page := t.page, out := t.out, assoc := t.assoc, vault := { s.vault with slots := t.vault.slots }
            gal := { s.gal with items := t.gal.items, tags := t.gal.tags, queues := t.gal.queues, backlog := t.gal.backlog, rotate := t.gal.rotate, stallAt := t.gal.stallAt } })))) ∧
    ((∃ at_, s.gal.stallAt = some at_ ∧ at_ + 10000 ≤ s.time.up) → s.live = true → tagsFree s = 0 →
      (s.gal.stallRaised = none → Completes .tagStall s (Raised Ev.TAG_STALL [] { s with gal := { s.gal with stallRaised := some s.time.up } })) ∧
      (∀ r, s.gal.stallRaised = some r → s.time.up < r + 1000000000 → Idles .tagStall s)) ∧
    (s.gal.stallAt = none ∨ tagsFree s ≠ 0 → Idles .tagStall s)

/-- The cipher units and the screen (R36, R65, R150 to R155, R160): what leaves a SEAL, what an OPEN finds, the release of a domain's head, its timeout, and a gallery that goes offline. -/
def Obligations.CipherAndScreen : Prop :=
  ∀ (s : State),
    (∀ (tag : Fin 65536), (unitItem s tag.val .sealing = none → Idles (.sealHandover tag) s) ∧ (unitItem s tag.val .opening = none → ∀ a b, Idles (.openVerified tag a b) s)) ∧
    (∀ (tag : Fin 65536) (it : Item) (key : BitVec 512), s.live = true → unitItem s tag.val .sealing = some it →
      (unitKey s it.gal (.item it.tag) = none → Idles (.sealHandover tag) s) ∧
      (unitKey s it.gal (.item it.tag) = some key →
        (∀ k0, it.key = some k0 → it.gone = none →
          let k : KeyUse := { k0 with key := key.setWidth 256 }
          let v := asClassified (it.target - 32) it s
          let out := if isTub it then sealTub s it k else sealFrame v (it.target - 32) it k
          Completes (.sealHandover tag) s (fun t => ∃ u,
            (out.length ≤ 256 → slotOf u k0.slot = { slotOf s k0.slot with uses := (slotOf s k0.slot).uses - 1 } ∧ SlotBut k0.slot s u) ∧ (256 < out.length → u.vault = s.vault) ∧
            (∀ k', ctxOfWork s it.gal (.item it.tag) = some k' → (256 < out.length → (unitCtx u it.gal k').work = some (.rest k0.slot (s.time.up + restNs out.length))) ∧
              (out.length ≤ 256 → tget nil0 s.gal.unitQ it.gal = [] → (unitCtx u it.gal k').work = none)) ∧
            itemOf u it.tag = some { it with data := out, st := .done, key := none, sealBy := if out.length ≤ 256 then none else some (it.gal, s.time.up + restNs out.length) } ∧ (∀ j, j ≠ it.tag → itemOf u j = itemOf s j) ∧
            u = { s with vault := { s.vault with slots := u.vault.slots }, gal := { s.gal with items := u.gal.items, ctxs := u.gal.ctxs, unitQ := u.gal.unitQ } } ∧
            t = if isTub it then u else countSealed it (userLen v (it.target - 32) it) u)) ∧
        (it.key.isSome = true → it.gone.isSome = true → exec (.sealHandover tag) s = .next (discard it (leaveUnit it.gal (.item it.tag) none s))) ∧
        (it.key = none → it.gone = none → s.flag Reg.WND_DN_CFG Fd.WND_DN_CFG_EN = false → Completes (.sealHandover tag) s (fun t => ∃ u,
          DropCounted it.port 0x09 (if it.dom < 64 ∨ 96 ≤ it.dom then some it.queue else none) (leaveUnit it.gal (.item it.tag) none s) u ∧
          t = { u with gal := { u.gal with items := tput none0 s.gal.items it.tag (some { it with st := .dropped 0x09 0, key := none }) } })))) ∧
    (∀ (tag : Fin 65536) (it : Item) (key : BitVec 512), s.live = true → unitItem s tag.val .opening = some it →
      (unitKey s it.gal (.item it.tag) = none → ∀ a b, Idles (.openVerified tag a b) s) ∧
      (unitKey s it.gal (.item it.tag) = some key →
        let r := openOf s { it with key := it.key.map (fun k => { k with key := key.setWidth 256 }) }
        let u := leaveUnit it.gal (.item it.tag) none s
        (∀ k, it.key = some k → it.gone = none → r.ok = true → Completes (.openVerified tag false false) s (fun t =>
          itemOf t it.tag = some { it with
            data := r.data, st := .done, key := none
            flags := if isTub it = false ∧ (ptpEvent (asClassified (it.port - 32) it s) r.data).isSome = true then it.flags ||| fPtp else it.flags } ∧
          (∀ j, j ≠ it.tag → itemOf t j = itemOf s j) ∧ slotOf t k.slot = { slotOf s k.slot with uses := (slotOf s k.slot).uses - 1 } ∧ SlotBut k.slot s t ∧
          t = { u with vault := { s.vault with slots := t.vault.slots }, gal := { u.gal with items := t.gal.items } })) ∧
        (∀ a, (r.ok != a) = false → exec (.openVerified tag a a) s = .next (authFail it u)) ∧
        (∀ a b, a ≠ b → exec (.openVerified tag a b) s = .next (galleryOff it.gal 2 (authFail it u))))) ∧
    (∀ (it : Item), it.gone = none → s.flag Reg.WND_DN_CFG Fd.WND_DN_CFG_EN = false → it.key = none → isTub it = false → it.assoc = none → ∃ u v, DropCounted it.port 0x0A (if it.dom < 64 ∨ 96 ≤ it.dom then some it.queue else none) s u ∧
      Counted Reg.GAL_CNT_AUTH_FAIL 1 v (authFail it s) ∧ v = { u with gal := { u.gal with items := tput none0 s.gal.items it.tag (some { it with st := .dropped 0x0A 0 }) } }) ∧
    (∀ (g : Fin 64) (cause : GalCause), s.live = true →
      ((s.reg Reg.GAL_ONLINE).getLsbD g.val = false → Idles (.galleryFault g cause) s) ∧
      ((s.reg Reg.GAL_ONLINE).getLsbD g.val = true → cause = .corrected → Completes (.galleryFault g cause) s (fun t => ∃ u, Counted Reg.GAL_CNT_ECC_CORR 1 s u ∧ Raised Ev.ECC_CORRECTED [g.val] u t)) ∧
      ((s.reg Reg.GAL_ONLINE).getLsbD g.val = true → cause ≠ .corrected → (∀ e ∈ s.gal.items, ∀ it, e.2 = some it → atGallery g.val it = false ∧ sealingYet s g.val it.sealBy = false) → (∀ b ∈ s.gal.jobs, b.gal ≠ g.val) →
        (∀ e ∈ s.gal.ctxs, e.1 / 4 = g.val → ∀ a b, e.2.work ≠ some (.rest a b)) → takes (monCode 0x12) s = true → effective s 0x12 ≤ 1 →
        Completes (.galleryFault g cause) s (fun t => ∃ (x : W64) (u v : State), Counted Reg.GAL_CNT_FAULT 1 (s.setReg Reg.GAL_ONLINE x) u ∧ Warned 0x12 [g.val, causeCode cause] v t ∧
          (∀ k, x.getLsbD k = ((s.reg Reg.GAL_ONLINE).getLsbD k && decide (k ≠ g.val))) ∧ tget nil0 v.gal.queues g.val = [] ∧ (∀ j, j ≠ g.val → tget nil0 v.gal.queues j = tget nil0 s.gal.queues j) ∧
          tget nil0 v.gal.unitQ g.val = [] ∧ (∀ j, j ≠ g.val → tget nil0 v.gal.unitQ j = tget nil0 s.gal.unitQ j) ∧
          (Table.wf thread0 s.gal.threads = true → ∀ (j : Fin 64) (k : Fin 16), galThread v j.val k.val = if j = g then clearThread (galThread s j.val k.val) else galThread s j.val k.val) ∧
          (Table.wf ctx0 s.gal.ctxs = true → ∀ (j : Fin 64) (k : Fin 4), unitCtx v j.val k.val = if j = g then ctx0 0 else unitCtx s j.val k.val) ∧
          (Table.wf queue0 s.wnd.queues = true → ∀ q, queueOf v q = { queueOf s q with frames := (queueOf s q).frames.map (cutFrame g.val s) }) ∧
          (Table.wf egress0 s.wnd.egress = true → ∀ e, egressAt v e = { egressAt s e with busy := (egressAt s e).busy.map (cutFrame g.val s) }) ∧
          v = { u with
            gal := { u.gal with threads := v.gal.threads, queues := v.gal.queues, ctxs := v.gal.ctxs, unitQ := v.gal.unitQ }
            wnd := { u.wnd with queues := v.wnd.queues, egress := v.wnd.egress } }))) ∧
    (∀ (d : Fin 112) (wr : Bool) (ecc : Ecc), tagsOf s d.val = [] → Idles (.screenRelease d wr ecc) s ∧ Idles (.screenTimeout d) s) ∧
    (∀ (d : Fin 112) (wr : Bool) (ecc : Ecc) (tag : Nat) (rest : List Nat) (it : Item), trafficOn s = true → tagsOf s d.val = tag :: rest → itemOf s tag = some it → it.dom = d.val → it.tag = tag →
      (complete it = false → Idles (.screenRelease d wr ecc) s) ∧ (complete it = true → Idles (.screenTimeout d) s) ∧
      (it.st = .done → exec (.screenRelease d wr ecc) s = .next (passOn it wr ecc (returnTag tag it s))) ∧
      (it.st = .punted ∨ (∃ r c, it.st = .dropped r c) → it.assoc = none ∨ it.counted = false → it.epoch = dispatchEpoch s → Completes (.screenRelease d wr ecc) s (fun t =>
        itemOf t tag = none ∧ (∀ j, j ≠ tag → itemOf t j = itemOf s j) ∧ tagsOf t d.val = rest ∧ (∀ b, b ≠ d.val → tagsOf t b = tagsOf s b) ∧
        t.fld (Reg.GAL_EPOCH_INFLIGHT it.epoch) Fd.GAL_EPOCH_INFLIGHT_COUNT = s.fld (Reg.GAL_EPOCH_INFLIGHT it.epoch) Fd.GAL_EPOCH_INFLIGHT_COUNT - 1 ∧
        RegsBut [Reg.GAL_EPOCH_INFLIGHT it.epoch, Reg.GAL_TAGS] s t ∧ t = { s with regs := t.regs, gal := { s.gal with items := t.gal.items, tags := t.gal.tags, stallAt := t.gal.stallAt } })) ∧
      (complete it = false → s.time.up < it.at_ + 1000 * s.fld Reg.GAL_CFG Fd.GAL_CFG_SCREEN_TMO → Idles (.screenTimeout d) s) ∧
      (complete it = false → it.at_ + 1000 * s.fld Reg.GAL_CFG Fd.GAL_CFG_SCREEN_TMO ≤ s.time.up → s.flag Reg.WND_DN_CFG Fd.WND_DN_CFG_EN = false → it.counted = false → it.epoch = dispatchEpoch s → it.port < noPort →
        Completes (.screenTimeout d) s (fun t => ∃ u n, Raised Ev.SCREEN_TIMEOUT [d.val] u t ∧ n % 65536 = tag % 65536 ∧ n ≠ tag ∧ itemOf s n = none ∧
          itemOf u tag = none ∧ itemOf u n = some { it with tag := n, gone := some (0x11, 0xFD) } ∧ (∀ j, j ≠ tag → j ≠ n → itemOf u j = itemOf s j) ∧ tagsOf u d.val = rest ∧ (∀ b, b ≠ d.val → tagsOf u b = tagsOf s b) ∧
          tget nil0 u.gal.queues it.gal = (tget nil0 s.gal.queues it.gal).map (fun x => if x = tag then n else x) ∧ (∀ g, g ≠ it.gal → tget nil0 u.gal.queues g = tget nil0 s.gal.queues g) ∧
          (Table.wf thread0 s.gal.threads = true → ∀ (j : Fin 64) (k : Fin 16), galThread u j.val k.val =
            if j.val = it.gal then { galThread s j.val k.val with tag := (galThread s j.val k.val).tag.map (fun x => if x = tag then n else x) } else galThread s j.val k.val) ∧
          (Table.wf ctx0 s.gal.ctxs = true → ∀ (j : Fin 64) (k : Fin 4), (unitCtx u j.val k.val).key = (unitCtx s j.val k.val).key ∧
            (unitCtx u j.val k.val).work = if j.val = it.gal ∧ (unitCtx s j.val k.val).work = some (.item tag) then some (.item n) else (unitCtx s j.val k.val).work) ∧
          u.reg Reg.GAL_CNT_SCREEN_TMO = BitVec.ofNat 64 (count40 (s.reg Reg.GAL_CNT_SCREEN_TMO).toNat 1) ∧
          u.reg (Reg.WND_CNT_PORT_DROP it.port 0x11) = BitVec.ofNat 64 (count40 (s.reg (Reg.WND_CNT_PORT_DROP it.port 0x11)).toNat 1) ∧
          u = { s with regs := u.regs, page := u.page, out := u.out
                       gal := { s.gal with items := u.gal.items, tags := u.gal.tags, queues := u.gal.queues, threads := u.gal.threads, ctxs := u.gal.ctxs, unitQ := u.gal.unitQ, stallAt := u.gal.stallAt } })))

/-- The replay windows (R48, R103): a packet number below the lowest acceptable is late, one marked within the last 128 is a duplicate, every other moves NEXT_PN and LOWEST_PN and is marked; a tub's SEQ is accepted above the highest, within a merge window once, and refused else. -/
def Obligations.ReplayWindows : Prop :=
  (∀ (ctrl : W32) (window pn : Nat) (e : AnEnt), let late := cfield ctrl AC.REPLAY = 1 ∧ pn < e.lowestPn
    let dup := cfield ctrl AC.DUP = 1 ∧ pn < e.nextPn ∧ e.nextPn ≤ pn + 128 ∧ nbit e.dupMap (e.nextPn - 1 - pn) = true
    (late → replayStep ctrl window e pn = .late) ∧ (¬late → dup → replayStep ctrl window e pn = .dup) ∧
    (¬late → ¬dup → ∃ e' : AnEnt, replayStep ctrl window e pn = .ok e' (e.nextPn - 1 - pn) ∧ e'.nextPn = max e.nextPn (pn + 1) ∧
      e'.lowestPn = max e.lowestPn (e'.nextPn - window) ∧
      (∀ q, q < e'.nextPn → e'.nextPn ≤ q + 128 → nbit e'.dupMap (e'.nextPn - 1 - q) = (decide (q = pn) || (decide (q < e.nextPn) && decide (e.nextPn ≤ q + 128) && nbit e.dupMap (e.nextPn - 1 - q)))) ∧
      e' = { e with nextPn := e'.nextPn, lowestPn := e'.lowestPn, dupMap := e'.dupMap })) ∧
  (∀ (merge : Bool) (e : AnEnt) (q : Nat),
    (e.nextPn < q → ∃ e' : AnEnt, tubStep merge e q = .ok e' ∧ e'.nextPn = q ∧ e' = { e with nextPn := q, seen := e'.seen } ∧
      ∀ x, x ≤ q → q < x + 16384 → nbit e'.seen (q - x) = (decide (x = q) || (decide (x ≤ e.nextPn) && nbit e.seen (e.nextPn - x)))) ∧
    (q ≤ e.nextPn → merge = false ∨ q + 16384 ≤ e.nextPn → tubStep merge e q = .old) ∧
    (q ≤ e.nextPn → merge = true → e.nextPn < q + 16384 →
      (nbit e.seen (e.nextPn - q) = true → tubStep merge e q = .copy) ∧
      (nbit e.seen (e.nextPn - q) = false → ∃ e' : AnEnt, tubStep merge e q = .ok e' ∧ e' = { e with seen := e'.seen } ∧
        ∀ x, x ≤ e.nextPn → nbit e'.seen (e.nextPn - x) = (decide (x = q) || nbit e.seen (e.nextPn - x)))))

/-! ## The schedulers of the winder (chapter 09) -/

/-- What an egress sends (R251, R260, R286, R311, R314, R349): the end of a frame, the class that goes first, what is never chosen, a frame from buffer memory, an underrun, and a PTP event message at its instant. -/
def Obligations.EgressSends : Prop :=
  ∀ (s : State) (e : Fin 64),
    (trafficOn s = false ∨ portUp s e.val = false → Idles (.egressSelect e) s) ∧
    ((egressAt s e.val).busy = none → (egressAt s e.val).fetch ≠ none ∨ (∀ c, c < 8 → (queueOf s (queueAt e.val c)).frames = []) → Idles (.egressSelect e) s) ∧
    (∀ f, trafficOn s = true → portUp s e.val = true → (egressAt s e.val).busy = some f → (∀ c, c < 8 → (queueOf s (queueAt e.val c)).frames = []) →
      (f.cut = false → Completes (.egressSelect e) s (fun t => Out.frame e.val (padFrame f.data) true ∈ t.out ∧ egressAt t e.val = { egressAt s e.val with busy := none } ∧
        (∀ k, k ≠ e.val → egressAt t k = egressAt s k) ∧
        t.reg (Reg.MAC_CNT_TX_FRAMES_OK e.val) = BitVec.ofNat 64 (count40 (s.reg (Reg.MAC_CNT_TX_FRAMES_OK e.val)).toNat 1) ∧
        t.reg (Reg.MAC_CNT_TX_OCTETS_OK e.val) = BitVec.ofNat 64 (count40 (s.reg (Reg.MAC_CNT_TX_OCTETS_OK e.val)).toNat (max 64 (f.data.length + 4))) ∧
        RegsBut (macTxRegs e.val) s t ∧ t = { s with regs := t.regs, page := t.page, out := t.out, wnd := { s.wnd with egress := t.wnd.egress } })) ∧
      (f.cut = true → Completes (.egressSelect e) s (fun t => ∃ n, 256 ≤ n ∧ Counted (Reg.MAC_CNT_TX_FCS_INVERTED e.val) 1 { s with
        out := .frame e.val (f.data.take n) false :: s.out, draws := s.draws + 1
        wnd := { s.wnd with egress := tput egress0 s.wnd.egress e.val { egressAt s e.val with busy := none } } } t))) ∧
    (∀ c f, trafficOn s = true → portUp s e.val = true → (egressAt s e.val).busy = none → (egressAt s e.val).fetch = none → FirstToGo e.val c f s →
      Completes (.egressSelect e) s (fun t => Served e.val c f s t ∧ (egressAt t e.val).busy = some f ∧ (egressAt t e.val).busyQ = queueAt e.val c ∧ (egressAt t e.val).fetch = none ∧
        (∀ k, k ≠ e.val → egressAt t k = egressAt s k) ∧
        t = { s with regs := t.regs, page := t.page, out := t.out, wnd := { s.wnd with egress := t.wnd.egress, queues := t.wnd.queues, shapers := t.wnd.shapers, pfcAt := t.wnd.pfcAt } })) ∧
    (∀ t q, (egressAt s e.val).busy = none → (egressAt s e.val).fetch = none → exec (.egressSelect e) s = .next t → ((egressAt t e.val).busy ≠ none ∧ (egressAt t e.val).busyQ = q ∨ (egressAt t e.val).fetch = some q) →
      ∃ c, c < 8 ∧ startable s e.val (egressAt s e.val) c = true ∧ (schedOpen s (egressAt s e.val) c = true ∨ shapersAllow s e.val (queueAt e.val c) = true) ∧ q = queueAt e.val c) ∧
    ((egressAt s e.val).fetch = none ∨ (egressAt s e.val).busy ≠ none → ∀ ecc, Idles (.hbmStreamStart e ecc) s) ∧
    (∀ q ecc, trafficOn s = true → portUp s e.val = true → (egressAt s e.val).busy = none → (egressAt s e.val).fetch = some q →
      let u := setEgress e.val { egressAt s e.val with fetch := none } s
      (headFrame s q = none → exec (.hbmStreamStart e ecc) s = .next u) ∧
      (∀ f, headFrame s q = some f → f.hbm = false → exec (.hbmStreamStart e ecc) s = .next u) ∧
      (∀ f v, headFrame s q = some f → f.hbm = true → readCells f.cells ecc u = (true, v) →
        (mayServe v e.val (q % 8) = false → exec (.hbmStreamStart e ecc) s = .next v) ∧
        (mayServe v e.val (q % 8) = true → f.tsKind = 0 → Completes (.hbmStreamStart e ecc) s (fun t => (egressAt t e.val).busy = some f ∧ (egressAt t e.val).busyQ = q ∧ (egressAt t e.val).fetch = none ∧
          (∀ k, k ≠ e.val → egressAt t k = egressAt v k) ∧ (queueOf t q).frames = (queueOf s q).frames.tail ∧ (∀ n, n ≠ q → queueOf t n = queueOf v n) ∧
          t.reg (Reg.Q_CNT_TX_FRAMES q) = BitVec.ofNat 64 (count40 (v.reg (Reg.Q_CNT_TX_FRAMES q)).toNat 1) ∧
          t.reg (Reg.Q_CNT_TX_BYTES q) = BitVec.ofNat 64 (count40 (v.reg (Reg.Q_CNT_TX_BYTES q)).toNat f.data.length) ∧
          t = { v with regs := t.regs, page := t.page, out := t.out, wnd := { v.wnd with egress := t.wnd.egress, queues := t.wnd.queues, shapers := t.wnd.shapers, pfcAt := t.wnd.pfcAt } }))) ∧
      (∀ f v, headFrame s q = some f → f.hbm = true → readCells f.cells ecc u = (false, v) → v.flag Reg.WND_DN_CFG Fd.WND_DN_CFG_EN = false →
        Completes (.hbmStreamStart e ecc) s (DropCounted f.port 0x0F (some q) (leaveQueue q f v)))) ∧
    (∀ f sent, trafficOn s = true → (egressAt s e.val).busy = some f → f.hbm = true →
      (sent < f.data.length → s.fld (Reg.MEM_START e.val) Fd.MEM_START_START ≤ sent → Completes (.txUnderrun e sent) s (fun t => ∃ u v w,
        Counted (Reg.MAC_CNT_TX_UNDERRUN e.val) 1 { s with
          out := .frame e.val (f.data.take sent) false :: s.out
          wnd := { s.wnd with egress := tput egress0 s.wnd.egress e.val { egressAt s e.val with busy := none } } } u ∧
        Counted (Reg.MAC_CNT_TX_FCS_INVERTED e.val) 1 u v ∧ Raised Ev.TX_UNDERRUN [e.val] v w ∧
        t.fld (Reg.MEM_START e.val) Fd.MEM_START_START = max (s.fld (Reg.MEM_START e.val) Fd.MEM_START_START) (min (s.fld (Reg.MEM_START e.val) Fd.MEM_START_START + 256) (effMax s e.val)) ∧
        RegsBut [Reg.MEM_START e.val] w t ∧ t = { w with regs := t.regs })) ∧
      (f.data.length ≤ sent ∨ sent < s.fld (Reg.MEM_START e.val) Fd.MEM_START_START → Idles (.txUnderrun e sent) s)) ∧
    (∀ ecc, dueFrame s e.val = none → Idles (.ptpDepartureInstant e ecc) s) ∧
    (∀ q f ecc, trafficOn s = true → dueFrame s e.val = some (q, f) →
      (portUp s e.val = false ∨ missedInstant s f = true → s.flag Reg.WND_DN_CFG Fd.WND_DN_CFG_EN = false → Completes (.ptpDepartureInstant e ecc) s (fun t => ∃ u,
        DropCounted f.port 0x04 (some q) (leaveQueue q f s) u ∧ Counted Reg.TIM_CNT_PTP_LATE 1 u t)) ∧
      (portUp s e.val = true → missedInstant s f = false → (egressAt s e.val).busy = none → f.tsKind = 0 → f.hbm = false → Completes (.ptpDepartureInstant e ecc) s (fun t =>
        (egressAt t e.val).busyQ = q ∧ ((egressAt t e.val).busy.map (·.data)) = some f.data ∧ (∀ k, k ≠ e.val → egressAt t k = egressAt s k) ∧
        (queueOf t q).frames = (queueOf s q).frames.erase f ∧ (∀ n, n ≠ q → queueOf t n = queueOf s n) ∧
        t = { s with regs := t.regs, page := t.page, out := t.out, wnd := { s.wnd with egress := t.wnd.egress, queues := t.wnd.queues, shapers := t.wnd.shapers, pfcAt := t.wnd.pfcAt } })) ∧
      (∀ v, portUp s e.val = true → missedInstant s f = false → (egressAt s e.val).busy = none → f.hbm = true → readCells f.cells ecc s = (false, v) → v.flag Reg.WND_DN_CFG Fd.WND_DN_CFG_EN = false →
        Completes (.ptpDepartureInstant e ecc) s (DropCounted f.port 0x0F (some q) (leaveQueue q f v))))

/-- Time gates and shapers as time goes on (R261, R262, R265 to R269): the entry in force, a pending list, stale lists, stale frames, and the credit of 8 ns. -/
def Obligations.GatesAndShapers : Prop :=
  ∀ (s : State),
    (∀ (e : Fin 64), ((egressAt s e.val).list = none → Idles (.gateListEntry e) s) ∧ ((egressAt s e.val).next = none → Idles (.tgListActive e) s) ∧
      (∀ l, s.live = true → (egressAt s e.val).list = some l → (∀ h, (egressAt s e.val).holdTill = some h → h ≤ s.time.now) → staleNow s (egressAt s e.val) = false → l.entries ≠ [] →
        Completes (.gateListEntry e) s (fun t => (egressAt t e.val).entry = (l.entryAt s.time.now).1 ∧ egressAt t e.val = { egressAt s e.val with entry := (egressAt t e.val).entry, holdTill := none } ∧
          (∀ k, k ≠ e.val → egressAt t k = egressAt s k) ∧ t = { s with wnd := { s.wnd with egress := t.wnd.egress } })) ∧
      (∀ l h, (egressAt s e.val).list = some l → (egressAt s e.val).holdTill = some h → s.time.now < h → Idles (.gateListEntry e) s) ∧
      (∀ l at_, s.live = true → (egressAt s e.val).next = some (l, at_) →
        (s.time.now < at_ → Idles (.tgListActive e) s) ∧
        (at_ ≤ s.time.now → Completes (.tgListActive e) s (fun t => ∃ u, Raised Ev.TG_LIST_ACTIVE [e.val] u t ∧
          egressAt u e.val = { egressAt s e.val with list := l, next := none, entry := (match l with | some l => (l.entryAt s.time.now).1 | none => 0), holdTill := none, stale := l.isSome && heldTooLong s } ∧
          (∀ k, k ≠ e.val → egressAt u k = egressAt s k) ∧ claimOn u (.gateList e.val) = none ∧ (∀ c ∈ s.fore.claims, c.res ≠ .gateList e.val → c ∈ u.fore.claims) ∧
          u = { s with wnd := { s.wnd with egress := u.wnd.egress }, fore := { s.fore with claims := u.fore.claims } })))) ∧
    (s.live = true →
      (heldTooLong s = false ∨ (∀ k ∈ listed s, (egressAt s k).stale = true) → Idles .tgStaleState s) ∧
      (locked s = false → 1000000000 * s.fld Reg.WND_TG_CFG Fd.WND_TG_CFG_HO_MAX ≤ heldOver s → Completes .tgStaleState s (fun t => ∃ u, Logged u t ∧
        (∀ k, (listed s).filter (fun e => !(egressAt s e).stale) = [k] → Raised Ev.TG_STALE_STATE [k] u t) ∧
        (∀ j, egressAt u j = if j ∈ listed s then { egressAt s j with stale := true } else egressAt s j) ∧ u = { s with wnd := { s.wnd with egress := u.wnd.egress } }))) ∧
    (∀ (q : Fin 1024), (headFrame s q.val = none → Idles (.tgStaleDrop q) s) ∧
      (∀ f l, s.live = true → headFrame s q.val = some f → (egressAt s (egressOf q.val)).list = some l → q.val < 512 → f.resv = false → isControlFlags f.flags = false →
        (queueOf s q.val).headAt + s.fld Reg.WND_TG_CFG Fd.WND_TG_CFG_STALE_CYCLES * l.cycle < s.time.up → s.flag Reg.WND_DN_CFG Fd.WND_DN_CFG_EN = false →
        Completes (.tgStaleDrop q) s (DropCounted f.port 0x04 (some q.val) (leaveQueue q.val f s))) ∧
      (∀ f, headFrame s q.val = some f → (egressAt s (egressOf q.val)).list = none ∨ f.resv = true ∨ isControlFlags f.flags = true ∨ 512 ≤ q.val → Idles (.tgStaleDrop q) s)) ∧
    (s.time.up < s.wnd.lastTick + 8 → Idles .shaperTick s) ∧
    (s.live = true → s.wnd.lastTick + 8 ≤ s.time.up → Table.wf shaper0 s.wnd.shapers = true → Table.wf queue0 s.wnd.queues = true → Completes .shaperTick s (fun t => t.wnd.lastTick = s.wnd.lastTick + 8 ∧
      (∀ i, (shaperOf s i).rate = 0 → shaperOf t i = shaperOf s i) ∧
      (∀ i, (shaperOf s i).rate ≠ 0 → let k := (shaperOf s i).frac + (shaperOf s i).rate * 256
        (shaperOf t i).frac = k % 1000000 ∧ (shaperOf t i).credit = min ((shaperOf s i).credit + (k / 1000000 : Nat)) (max ((shaperOf s i).burst * 256 : Nat) (shaperOf s i).credit) ∧
        (shaperOf t i).rate = (shaperOf s i).rate ∧ (shaperOf t i).burst = (shaperOf s i).burst) ∧
      (∀ q, (q % 8 ≠ 5 ∧ q % 8 ≠ 4) → queueOf t q = queueOf s q) ∧
      (∀ q, (q % 8 = 5 ∨ q % 8 = 4) → (egressAt s (egressOf q)).list = none → (egressAt s (egressOf q)).busy = none →
        ((queueOf s q).frames = [] → 0 ≤ (queueOf s q).credit → queueOf t q = { queueOf s q with credit := 0, creditFrac := 0 }) ∧
        ((queueOf s q).frames ≠ [] ∨ (queueOf s q).credit < 0 → let k := (queueOf s q).creditFrac + s.fld (Reg.Q_SCHED q) Fd.Q_SCHED_IDLE_SLOPE * 256;
          queueOf t q = { queueOf s q with credit := (queueOf s q).credit + (k / 1000000 : Nat), creditFrac := k % 1000000 })) ∧
      t = { s with wnd := { s.wnd with shapers := t.wnd.shapers, queues := t.wnd.queues, lastTick := t.wnd.lastTick } }))

/-! ## The line framer (chapter 03) -/

/-- The transmit side of the line framer (R70, R71, R85, R89, R90, R96, R99, Tables 03.3, 03.6, 03.7): a frame packed into a tub, early closes, a lane's line frame, an announced switch, and a committed slot map. -/
def Obligations.LineTransmit : Prop :=
  ∀ (s : State),
    (∀ (x : Fin 64) (ecc : Ecc), let e := 64 + x.val
      (trafficOn s = false ∨ tribOn s 0 x.val = false ∨ tribHeld s x.val = true → Idles (.tubAssemblerDraw x ecc) s) ∧
      ((∀ c, c < 8 → (queueOf s (queueAt e c)).frames = []) → Idles (.tubAssemblerDraw x ecc) s) ∧
      (∀ c f, trafficOn s = true → tribOn s 0 x.val = true → tribHeld s x.val = false → FirstToGo e c f s → let o := openTubOf x.val s
        o.data.length + 16 + f.data.length ≤ tubSize s 0 x.val → Completes (.tubAssemblerDraw x ecc) s (fun t => Served e c f s t ∧
          txTribOf t x.val = { txTribOf s x.val with open_ := some { o with data := o.data ++ natBe 8 (tubShim f) ++ f.data, first := some (o.first.getD o.data.length), lastAt := s.time.up } } ∧
          (∀ y, y ≠ x.val → txTribOf t y = txTribOf s y) ∧ t = { s with
            regs := t.regs, page := t.page, out := t.out, lfr := { s.lfr with txTribs := t.lfr.txTribs }
            wnd := { s.wnd with egress := t.wnd.egress, queues := t.wnd.queues, shapers := t.wnd.shapers, pfcAt := t.wnd.pfcAt } })) ∧
      ((txTribOf s x.val).open_ = none → Idles (.tubFlush x) s ∧ Idles (.tubMaxAge x) s) ∧
      (∀ o, trafficOn s = true → (txTribOf s x.val).open_ = some o → let n := tribTrunk s 0 x.val
        (s.time.up < o.lastAt + 10 * s.fld Reg.LFR_TUB_FLUSH Fd.LFR_TUB_FLUSH_FLUSH → Idles (.tubFlush x) s) ∧ (s.time.up < o.firstAt + 10 * s.fld Reg.LFR_TUB_FLUSH Fd.LFR_TUB_FLUSH_MAX_AGE → Idles (.tubMaxAge x) s) ∧
        (∀ c : Instr, c = .tubFlush x ∧ o.lastAt + 10 * s.fld Reg.LFR_TUB_FLUSH Fd.LFR_TUB_FLUSH_FLUSH ≤ s.time.up ∨ c = .tubMaxAge x ∧ o.firstAt + 10 * s.fld Reg.LFR_TUB_FLUSH Fd.LFR_TUB_FLUSH_MAX_AGE ≤ s.time.up →
          backlogRoom s (64 + n) (tubSize s 0 x.val) = true → Completes c s (fun t => ∃ it,
            backlogOf t (64 + n) = backlogOf s (64 + n) ++ [it] ∧ (∀ d, d ≠ 64 + n → backlogOf t d = backlogOf s d) ∧
            it.data = slice (o.data ++ natBe 8 (2 ^ 48)) 0 (tubSize s 0 x.val) ∧ it.trib = x.val ∧ it.assoc = some (tribAssoc s 0 x.val) ∧ it.dom = 64 + n ∧ it.port = trunkPort s n ∧
            b8 it.hdr 1 = 128 + b2n o.cont * 64 + b2n (tribMerge s 0 x.val) * 32 ∧ b16 it.hdr 2 = o.first.getD o.data.length % 2 ^ 16 ∧ it.hdr.length = 16 ∧
            txTribOf t x.val = { txTribOf s x.val with open_ := none } ∧ (∀ y, y ≠ x.val → txTribOf t y = txTribOf s y) ∧
            t = { s with lfr := { s.lfr with txTribs := t.lfr.txTribs }, gal := { s.gal with backlog := t.gal.backlog } })))) ∧
    (∀ (lane : Fin 32), (laneTx s lane.val = none → Idles (.lineFrameTx lane) s) ∧
      (∀ n i, trafficOn s = true → framed s lane.val = true → laneTx s lane.val = some (n, i) → let x := txTrunkOf s n
        let header := fun (h : Bytes) => h.length = 16 ∧ hdrAlign h = true ∧ hdrGood h = true ∧ hdrMfc h = x.mfc % 256 ∧ b8 h 9 = (n * 16 + i) % 256 ∧ b8 h 10 = s.fld (Reg.LFR_TRUNK_SWREQ n) Fd.LFR_TRUNK_SWREQ_TX_SWREQ / 256 ∧
          nbit (b8 h 11) 7 = !lfrUp s n ∧ nbit (b8 h 11) 6 = trunkDegraded s n ∧ b8 h 11 % 64 = 0 ∧ b8 h 12 = epochTx s n % 256 ∧ nbit (b8 h 13) 7 = x.announcing ∧ b8 h 13 % 128 = 0
        let pin := reversed s Fd.LAN_GRP_CFG_TX_REVERSE lane.val
        let ended := { x with sent := [], row := [], mfc := (x.mfc + 1) % 256, mf := x.mf + (x.mfc + 1) / 256 }
        (i ∈ x.sent → Idles (.lineFrameTx lane) s) ∧
        (i ∉ x.sent → x.sent ≠ [] → Completes (.lineFrameTx lane) s (fun t => (∃ h, header h ∧ t.out = .lineFrame pin h ((x.row.drop (8 * i)).take 8).flatten :: s.out) ∧
          (x.sent.length + 1 < txWidth s n → txTrunkOf t n = { x with sent := x.sent ++ [i] }) ∧ (txWidth s n ≤ x.sent.length + 1 → txTrunkOf t n = ended) ∧
          (∀ m, m ≠ n → txTrunkOf t m = txTrunkOf s m) ∧ t = { s with out := t.out, lfr := { s.lfr with tx := t.lfr.tx } })) ∧
        (∀ row v, x.sent = [] → x.mfc ≠ 0 ∨ s.lfr.waiting = [] → x.lastSwitch ≠ none → buildRow n s = (row, v) → let ann := if x.announcing then x.announced + 1 else 0
          Completes (.lineFrameTx lane) s (fun t => (∃ h, header h ∧ t.out = .lineFrame pin h ((row.drop (8 * i)).take 8).flatten :: s.out) ∧
          (1 < txWidth s n → txTrunkOf t n = { x with sent := [i], row := row, announced := ann }) ∧ (txWidth s n ≤ 1 → txTrunkOf t n = { ended with announced := ann }) ∧
          (∀ m, m ≠ n → txTrunkOf t m = txTrunkOf s m) ∧ t = { v with out := t.out, lfr := { v.lfr with tx := t.lfr.tx } } ∧ v = { s with draws := v.draws, lfr := { s.lfr with txTribs := v.lfr.txTribs } })))) ∧
    (∀ (n : Fin 16), let x := txTrunkOf s n.val
      (atMfStart s n.val = false → Idles (.epochSwitch n) s) ∧
      (groupOf s 0 n.val = [n.val] → x.announced < 16 ∨ x.announcing = false ∨ (∃ k, x.lastSwitch = some k ∧ x.mf < k + 2) → Idles (.epochSwitch n) s) ∧
      (trafficOn s = true → atMfStart s n.val = true → groupOf s 0 n.val = [n.val] → x.announcing = true → 16 ≤ x.announced → (∀ k, x.lastSwitch = some k → k + 2 ≤ x.mf) →
        let switched := fun (e : Nat) (t : State) => ∃ u, Raised Ev.EPOCH_SWITCH [n.val, (trunkLane s n.val 0).getD 0, 0, e] u t ∧
          epochTx u n.val = e % 2 ^ 32 ∧ (∀ m, m ≠ n.val → epochTx u m = epochTx s m ∧ txTrunkOf u m = txTrunkOf s m) ∧
          txTrunkOf u n.val = { x with announcing := false, announced := 0, counted := false, lastSwitch := some x.mf } ∧
          (∀ y, y ∈ tribsOn s 0 [n.val] → (arec u (tribAssoc s 0 y)).c AC.TUB_STATE = 1 ∧
            (epochTx s n.val % 4 ≠ e % 4 → (arec s (tribAssoc s 0 y)).ans.length = 4 → ((arec u (tribAssoc s 0 y)).an (epochTx s n.val % 4)).retiring = true)) ∧
          (∀ a, (∀ y, y ∈ tribsOn s 0 [n.val] → tribAssoc s 0 y ≠ a) → arec u a = arec s a) ∧ claimOn u (.txTrunk n.val) = (s.fore.claims.filter (fun c => !(c.code == 0x202 || c.code == 0x004))).find? (fun c => c.res == .txTrunk n.val) ∧
          counterOf u n.val = e ∧ (∀ m, m ≠ n.val → counterOf u m = counterOf s m) ∧ RegsBut [Reg.LFR_TRUNK_EPOCH n.val] s u ∧ u = { s with
            regs := u.regs, assoc := u.assoc, fore := { s.fore with claims := u.fore.claims }, lfr := { s.lfr with tx := u.lfr.tx, txTribs := u.lfr.txTribs }
            attic := { s.attic with counters := u.attic.counters, wear := u.attic.wear } }
        (x.counted = true → (∀ o ∈ s.fore.waits, o.code ≠ 0x202) → Completes (.epochSwitch n) s (switched (counterOf s n.val))) ∧
        (x.counted = false → inCaution s = false → counterOf s n.val < 2 ^ 32 - 1 → AtticTakes blkCounters s → (∀ o ∈ s.fore.waits, o.code ≠ 0x202) → Completes (.epochSwitch n) s (switched (counterOf s n.val + 1))) ∧
        (x.counted = false → inCaution s = true → s.guard.held.contains (.epochTx n.val) = false → exec (.epochSwitch n) s = .next { s with guard := { s.guard with held := s.guard.held ++ [.epochTx n.val] } }))) ∧
    (∀ (rx : Bool) (x : Fin 64), (s.lfr.remaps.find? (fun m => m.1 == b2n rx && m.2.1 == x.val) = none → Idles (.tribRemapApply rx x) s) ∧
      (∀ d y lo hi, s.live = true → s.lfr.remaps.find? (fun m => m.1 == b2n rx && m.2.1 == x.val) = some (d, y, lo, hi) →
        (remapDue s (b2n rx) x.val = false → Idles (.tribRemapApply rx x) s) ∧
        (remapDue s (b2n rx) x.val = true → Completes (.tribRemapApply rx x) s (fun t => t.reg (Reg.LFR_TRIB_SLOTS_LO (b2n rx) x.val) = BitVec.ofNat 64 lo ∧ t.reg (Reg.LFR_TRIB_SLOTS_HI (b2n rx) x.val) = BitVec.ofNat 64 hi ∧
          RegsBut [Reg.LFR_TRIB_SLOTS_LO (b2n rx) x.val, Reg.LFR_TRIB_SLOTS_HI (b2n rx) x.val] s t ∧ t = { s with regs := t.regs, lfr := { s.lfr with remaps := s.lfr.remaps.erase (d, y, lo, hi) } }))))

/-- Acquisition and the checks of a lane in frame (R71, R74 to R79, R82, R84, R303, R304): a tracker starts, counts on, confirms or is freed; frame and multiframe are lost after their runs; the identity check passes and fails after three; a row delivers its slots; a trunk goes down and comes up. -/
def Obligations.LaneAcquisition : Prop :=
  ∀ (s : State),
    (∀ (l : Fin 32) (pos : Nat) (h : Bytes), let x := rxLaneOf s l.val
      let st := Reg.LAN_LANE_STATUS (32 + l.val)
      let c := (tget laneRun0 s.lanes (32 + l.val)).cfg
      (laneLive s l.val = false ∨ x.inFrame = true → Idles (.alignCandidate l pos h) s) ∧
      (hdrInverted h = false → hdrAlign h = false ∨ hdrGood h = false → Idles (.alignCandidate l pos h) s) ∧
      (laneLive s l.val = true → x.inFrame = false → hdrAlign h = true → hdrGood h = true → (∀ y, some y ∈ x.trackers → y.next ≠ pos) → Completes (.alignCandidate l pos h) s (fun t =>
        (∀ k, k < 4 → x.trackers.getD k none = none → (∀ j, j < k → x.trackers.getD j none ≠ none) → rxLaneOf t l.val = { x with trackers := x.trackers.set k (some ⟨1, hdrMfc h, pos + 65536⟩) }) ∧
        ((∀ k, k < 4 → x.trackers.getD k none ≠ none) → rxLaneOf t l.val = { x with candOvf := x.candOvf + 1 }) ∧
        (∀ m, m ≠ l.val → rxLaneOf t m = rxLaneOf s m) ∧ t = { s with lfr := { s.lfr with lanes := t.lfr.lanes } })) ∧
      (∀ y, hdrAlign h = true → hdrGood h = true → some y ∈ x.trackers → y.next = pos → Idles (.alignCandidate l pos h) s) ∧
      (laneLive s l.val = true → x.inFrame = false → hdrInverted h = true →
        (fget c Fd.LAN_LANE_CFG_RX_POL_AUTO = 1 → fget c Fd.LAN_LANE_CFG_TRAIN_EN = 0 → Completes (.alignCandidate l pos h) s (fun t => ∃ u, Raised Ev.POL_CORRECTED [32 + l.val] u t ∧
          u.flag st Fd.LAN_LANE_STATUS_RX_INVERTED = !s.flag st Fd.LAN_LANE_STATUS_RX_INVERTED ∧ RegsBut [st] s u ∧ u = { s with regs := u.regs })) ∧
        (fget c Fd.LAN_LANE_CFG_RX_POL_AUTO ≠ 1 ∨ fget c Fd.LAN_LANE_CFG_TRAIN_EN ≠ 0 → Idles (.alignCandidate l pos h) s))) ∧
    (∀ (l : Fin 32) (k : Fin 4) (h : Bytes), let x := rxLaneOf s l.val
      (x.trackers.getD k.val none = none ∨ laneLive s l.val = false ∨ x.inFrame = true → Idles (.trackerConfirm l k h) s) ∧
      (∀ y, laneLive s l.val = true → x.inFrame = false → x.trackers.getD k.val none = some y → let good := hdrAlign h && hdrGood h && hdrMfc h == (y.mfc + 1) % 256
        Completes (.trackerConfirm l k h) s (fun t =>
          (good = false → rxLaneOf t l.val = { x with trackers := x.trackers.set k.val none }) ∧
          (good = true → y.count ≠ 2 → rxLaneOf t l.val = { x with trackers := x.trackers.set k.val (some ⟨y.count + 1, hdrMfc h, y.next + 65536⟩) }) ∧
          (good = true → y.count = 2 → rxLaneOf t l.val = { x with inFrame := true, trackers := [none, none, none, none], next := y.next + 65536, mfc := hdrMfc h, lof := 0, mfm := 0 }) ∧
          (∀ m, m ≠ l.val → rxLaneOf t m = rxLaneOf s m) ∧ t = { s with lfr := { s.lfr with lanes := t.lfr.lanes } }))) ∧
    (∀ (l : Fin 32) (frame : Bytes) (skew : Nat), (rxPlace s l.val = none ∨ laneLive s l.val = false ∨ (rxLaneOf s l.val).inFrame = false → Idles (.laneFrameCheck l frame skew) s) ∧
      (∀ n i, laneLive s l.val = true → (rxLaneOf s l.val).inFrame = true → rxPlace s l.val = some (n, i) → let x := rxLaneOf s l.val
        let h := slice frame 0 16
        let good := hdrAlign h && hdrGood h
        let went := { x with mfc := (x.mfc + 1) % 256, next := x.next + 65536, hcrcErr := x.hcrcErr + b2n (!hdrGood h) }
        let hunts := { went with inFrame := false, trackers := [none, none, none, none], next := 0, mfc := 0, lof := 0, mfm := 0, req := 0, reqRun := 0, annRun := 0, revRun := 0 }
        let others := fun (t : State) => ∀ m, m ≠ l.val → rxLaneOf t m = rxLaneOf s m
        ((∀ m, m < 16 → lfrUp s m = false) →
          (hdrAlign h = false → x.lof = 3 → skew ≤ 4000 → Completes (.laneFrameCheck l frame skew) s (fun t => ∃ u v, rxLaneOf u l.val = hunts ∧ others u ∧ u = { s with lfr := { s.lfr with lanes := u.lfr.lanes } } ∧ Raised Ev.LANE_LOF [n, l.val] u v ∧
            rxLaneOf t l.val = { hunts with late := false } ∧ others t ∧ t = { v with lfr := { v.lfr with lanes := t.lfr.lanes } })) ∧
          (hdrAlign h = false → x.lof < 3 → hdrGood h = false → hdrInverted h = false → skew ≤ 4000 → Completes (.laneFrameCheck l frame skew) s (fun t => rxLaneOf t l.val = { went with lof := x.lof + 1, late := false } ∧
            others t ∧ t = { s with lfr := { s.lfr with lanes := t.lfr.lanes } })) ∧
          (hdrAlign h = true → hdrGood h = false → skew ≤ 4000 ∨ x.late = true → Completes (.laneFrameCheck l frame skew) s (fun t => rxLaneOf t l.val = { went with lof := 0, late := decide (4000 < skew) } ∧
            others t ∧ t = { s with lfr := { s.lfr with lanes := t.lfr.lanes } })) ∧
          (hdrAlign h = true → hdrGood h = false → 4000 < skew → x.late = false → Completes (.laneFrameCheck l frame skew) s (fun t => ∃ u, Raised Ev.SKEW_EXCEEDED [n, l.val] u t ∧ rxLaneOf u l.val = { went with lof := 0, late := true } ∧
            others u ∧ u = { s with lfr := { s.lfr with lanes := u.lfr.lanes } })) ∧
          (good = true → hdrMfc h ≠ (x.mfc + 1) % 256 → x.mfm = 2 → skew ≤ 4000 → Completes (.laneFrameCheck l frame skew) s (fun t => ∃ u v, rxLaneOf u l.val = hunts ∧ others u ∧ u = { s with lfr := { s.lfr with lanes := u.lfr.lanes } } ∧ Raised Ev.LANE_LOM [n, l.val] u v ∧
            rxLaneOf t l.val = { hunts with late := false } ∧ others t ∧ t = { v with lfr := { v.lfr with lanes := t.lfr.lanes } })) ∧
          (good = true → hdrMfc h ≠ (x.mfc + 1) % 256 → x.mfm < 2 → Completes (.laneFrameCheck l frame skew) s (fun t => (rxLaneOf t l.val).inFrame = true ∧ (rxLaneOf t l.val).mfm = x.mfm + 1 ∧ (rxLaneOf t l.val).mfc = (x.mfc + 1) % 256)) ∧
          (good = true → hdrMfc h = (x.mfc + 1) % 256 → b8 h 9 = idByte s n i → Completes (.laneFrameCheck l frame skew) s (fun t => (rxLaneOf t l.val).inFrame = true ∧ (rxLaneOf t l.val).mfc = hdrMfc h ∧ (rxLaneOf t l.val).lof = 0 ∧
            (rxLaneOf t l.val).mfm = 0 ∧ (rxLaneOf t l.val).epoch = some (b8 h 12) ∧ (rxLaneOf t l.val).idBad = 0 ∧ (2 ≤ x.idGood → (rxLaneOf t l.val).idOk = true) ∧ (x.idGood < 2 → (rxLaneOf t l.val).idOk = x.idOk ∧
            (rxLaneOf t l.val).idGood = x.idGood + 1) ∧ (rxLaneOf t l.val).late = decide (4000 < skew) ∧ (∀ m, m ≠ l.val → rxLaneOf t m = rxLaneOf s m) ∧ t.vault = s.vault ∧ t.gal = s.gal)) ∧
          (good = true → hdrMfc h = (x.mfc + 1) % 256 → b8 h 9 ≠ idByte s n i → x.idBad = 2 → hdrReq h = s.fld (Reg.LFR_TRUNK_STATUS n) Fd.LFR_TRUNK_STATUS_RX_SWREQ → skew ≤ 4000 →
            s.flag (Reg.LAN_GRP_CFG (lineGroup l.val)) Fd.LAN_GRP_CFG_AUTO_REV = false → Completes (.laneFrameCheck l frame skew) s (fun t => (rxLaneOf t l.val).idOk = false ∧ (rxLaneOf t l.val).idBad = 3 ∧ (rxLaneOf t l.val).idGood = 0 ∧
            (takes Ev.TRUNK_MISMATCH s = true → Recorded Ev.TRUNK_MISMATCH [n, l.val] s t) ∧ others t ∧ t.vault = s.vault ∧ t.gal = s.gal))) ∧
        ((∀ m, m < 16 → m ≠ n → lfrUp s m = false) → n < 16 → lfrUp s n = true → rxPhys s n i = some l.val →
          (hdrAlign h = false → x.lof = 3 → i < rxWidth s n → s.lfr.waiting = [] → Completes (.laneFrameCheck l frame skew) s (fun t => lfrUp t n = false ∧ (rxTrunkOf t n).rows = [] ∧ (rxLaneOf t l.val).inFrame = false ∧ (∀ y, rxTribOf t y = rxTribOf s y))) ∧
          (good = true → hdrMfc h = (x.mfc + 1) % 256 → hdrMfc h ≠ 0 → b8 h 9 = idByte s n i → hdrReq h = s.fld (Reg.LFR_TRUNK_STATUS n) Fd.LFR_TRUNK_STATUS_RX_SWREQ → nbit (b8 h 13) 7 = false →
            x.idOk = true → skew ≤ 4000 → rxOn s n = true → rxWidth s n = 1 → i = 0 → (rxTrunkOf s n).rows = [] → Completes (.laneFrameCheck l frame skew) s (fun t =>
            (∀ y, y ∈ servedBy s n → tribTrunk s 1 y = n → rxTribOf t y = { rxTribOf s y with
              stream0 := (rxTribOf s y).stream0 ++ (tribSlots s 1 y).flatMap (fun m => if m / 8 = 0 then slice (frame.drop 16) (1022 * (m % 8)) 1022 else zeros 1022) }) ∧
            (∀ y, y ∉ servedBy s n → rxTribOf t y = rxTribOf s y) ∧ rxTrunkOf t n = { rxTrunkOf s n with row := hdrMfc h } ∧ lfrUp t n = true ∧ others t ∧ RegsBut [] s t ∧
            t = { s with lfr := { s.lfr with lanes := t.lfr.lanes, rx := t.lfr.rx, rxTribs := t.lfr.rxTribs } }))))) ∧
    (∀ (n : Fin 16), (trafficOn s = true → lfrUp s n.val = false → trunkGood s n.val = true → Completes (.trunkUp n) s (fun t => ∃ u, Raised Ev.TRUNK_UP [n.val, (rxPhys s n.val 0).getD 0] u t ∧ lfrUp u n.val = true ∧
        RegsBut [Reg.LFR_TRUNK_STATUS n.val] s u ∧ u = { s with regs := u.regs })) ∧
      (trafficOn s = false ∨ lfrUp s n.val = true ∨ trunkGood s n.val = false → Idles (.trunkUp n) s))

/-- Received tubs and their keys (R84, R91, R97, R100, R101, R104): delineation, a good block goes to dispatch, three bad headers lose delineation, a shown epoch is followed or refused, a key is derived, the old pointer and its key end, and a missing tub is declared lost. -/
def Obligations.TubReceive : Prop :=
  ∀ (s : State),
    (∀ (x : Fin 64) (n : Fin 16) (ts : Nat), let t0 := x.val
      let r := rxTribOf s t0
      let size := tubSize s 1 t0 + 32
      let others := fun (t : State) => ∀ y, y ≠ t0 → rxTribOf t y = rxTribOf s y
      let tribs := fun (t : State) => t = { s with lfr := { s.lfr with rxTribs := t.lfr.rxTribs } }
      (trafficOn s = false ∨ tribOn s 1 t0 = false ∨ lfrUp s n.val = false ∨ (n.val ≠ tribTrunk s 1 t0 ∧ (tribMerge s 1 t0 = false ∨ n.val ≠ tribMate s 1 t0)) → Idles (.tubBlockRx x n ts) s) ∧
      (trafficOn s = true → tribOn s 1 t0 = true → n.val = tribTrunk s 1 t0 → lfrUp s n.val = true → shownEpoch s n.val = none →
        (r.delin0.ok = false →
          (∀ p, (List.range (r.stream0.length - (size + 15))).find? (joinsAt s n.val t0 r.stream0) = some p → Completes (.tubBlockRx x n ts) s (fun t =>
            rxTribOf t t0 = { r with delin0 := ⟨true, 0, some (headerMark (slice r.stream0 p 16))⟩, stream0 := r.stream0.drop (p + size) } ∧ others t ∧ tribs t)) ∧
          ((∀ p, p < r.stream0.length - (size + 15) → joinsAt s n.val t0 r.stream0 p = false) → Completes (.tubBlockRx x n ts) s (fun t =>
            rxTribOf t t0 = { r with stream0 := r.stream0.drop (r.stream0.length - (size + 15)) } ∧ others t ∧ tribs t))) ∧
        (r.delin0.ok = true → r.stream0.length < size → Idles (.tubBlockRx x n ts) s) ∧
        (r.delin0.ok = true → size ≤ r.stream0.length → let b := r.stream0.take size
          let rest := r.stream0.drop size
          let mark := (b8 b 0 / 64, beNat (slice b 4 6), nbit (b8 b 1) 4)
          (∀ e, tubEpoch s n.val t0 b = some e → headerForm s t0 b = true → (∀ m, r.delin0.last = some m → m.1 = mark.1) →
            (nbit (b8 b 1) 4 = true ∨ ignored s t0 n.val = true → Completes (.tubBlockRx x n ts) s (fun t => rxTribOf t t0 = { r with delin0 := ⟨true, 0, some mark⟩, stream0 := rest } ∧ others t ∧ tribs t)) ∧
            (nbit (b8 b 1) 4 = false → tribMerge s 1 t0 = false → s.cls.cached.contains (tribAssoc s 1 t0) = true → backlogRoom s (80 + n.val) (size - 16) = true → Completes (.tubBlockRx x n ts) s (fun t => ∃ it,
              backlogOf t (80 + n.val) = backlogOf s (80 + n.val) ++ [it] ∧ (∀ k, k ≠ 80 + n.val → backlogOf t k = backlogOf s k) ∧ it.data = b.drop 16 ∧ it.hdr = slice b 0 16 ∧ it.trib = t0 ∧
              it.assoc = some (tribAssoc s 1 t0) ∧ it.dom = 80 + n.val ∧ it.port = trunkPort s n.val ∧ it.path = n.val ∧ it.kepoch = e ∧ it.pn = beNat (slice b 4 6) ∧ it.ts = ts ∧
              rxTribOf t t0 = { r with delin0 := ⟨true, 0, some mark⟩, stream0 := rest } ∧ others t ∧ t = { s with lfr := { s.lfr with rxTribs := t.lfr.rxTribs }, gal := { s.gal with backlog := t.gal.backlog } }))) ∧
          (∀ e m, tubEpoch s n.val t0 b = some e → headerForm s t0 b = true → nbit (b8 b 1) 4 = true → r.delin0.last = some m → m.1 ≠ mark.1 → Completes (.tubBlockRx x n ts) s (fun t =>
            rxTribOf t t0 = { r with delin0 := ⟨true, 0, some mark⟩, stream0 := rest, ends := r.ends ++ [(e - (e % 4 + 4 - m.1) % 4, m.2.1)], arrived := [] } ∧ others t ∧ tribs t)) ∧
          (tubEpoch s n.val t0 b = none ∨ headerForm s t0 b = false →
            (r.delin0.fails = 2 → Completes (.tubBlockRx x n ts) s (fun t => ∃ u, Raised Ev.LOD [t0, n.val] u t ∧ rxTribOf u t0 = { r with delin0 := ⟨false, 0, none⟩, stream0 := rest } ∧ others u ∧ tribs u)) ∧
            (r.delin0.fails < 2 → Completes (.tubBlockRx x n ts) s (fun t => rxTribOf t t0 =
              { r with delin0 := ⟨true, r.delin0.fails + 1, r.delin0.last.map (fun m => (m.1, m.2.1 + 1, m.2.2))⟩, stream0 := rest } ∧ others t ∧ tribs t))))) ∧
      (∀ lane k, trafficOn s = true → tribOn s 1 t0 = true → n.val = tribTrunk s 1 t0 → lfrUp s n.val = true → r.delin0.ok = true → r.stream0.length < size → shownEpoch s n.val = some (lane, k) →
        (rxTrunkOf s n.val).reject = true → Idles (.tubBlockRx x n ts) s) ∧
      (∀ lane k, trafficOn s = true → tribOn s 1 t0 = true → n.val = tribTrunk s 1 t0 → lfrUp s n.val = true → r.delin0.ok = true → r.stream0.length < size → shownEpoch s n.val = some (lane, k) →
        (rxTrunkOf s n.val).reject = false → let e := recoverEpoch (epochRx s n.val) k
        (epochRx s n.val + 128 < e ∨ 2 ^ 32 ≤ e → Completes (.tubBlockRx x n ts) s (fun t => ∃ u, Raised Ev.EPOCH_REJECT [n.val, lane, k] u t ∧ rxTrunkOf u n.val = { rxTrunkOf s n.val with reject := true } ∧
          (∀ m, m ≠ n.val → rxTrunkOf u m = rxTrunkOf s m) ∧ u = { s with lfr := { s.lfr with rx := u.lfr.rx } })) ∧
        (e ≤ epochRx s n.val + 128 → e < 2 ^ 32 → inCaution s = true ∨ AtticTakes blkEpochs s → Completes (.tubBlockRx x n ts) s (fun t => ∃ u, Raised Ev.EPOCH_SWITCH [n.val, lane, 1, e] u t ∧ epochRx u n.val = e ∧
          rxTrunkOf u n.val = { rxTrunkOf s n.val with olds := (rxTrunkOf s n.val).olds ++ [⟨epochRx s n.val, s.time.up, false⟩], reject := false, announced := false } ∧
          (∀ m, m ≠ n.val → rxTrunkOf u m = rxTrunkOf s m ∧ epochRx u m = epochRx s m) ∧ (inCaution s = true → u.guard.held = s.guard.held ++ [.rxEpoch n.val e] ∧ u.attic = s.attic) ∧
          (inCaution s = false → tget nat0 u.attic.rxEpochs n.val = e ∧ u.guard = s.guard) ∧ RegsBut [Reg.LFR_TRUNK_EPOCH n.val] s u ∧
          u = { s with regs := u.regs, guard := { s.guard with held := u.guard.held }, attic := { s.attic with rxEpochs := u.attic.rxEpochs, wear := u.attic.wear }, lfr := { s.lfr with rx := u.lfr.rx } })))) ∧
    (∀ (n : Fin 16), let x := rxTrunkOf s n.val
      let ns := mfNs (rxCfg s n.val Fd.LFR_TRUNK_RXCFG_RATE)
      (s.live = true → Completes (.oldPointerEnd n) s (fun t => rxTrunkOf t n.val = { x with olds := x.olds.map (fun o => if o.at_ + ns ≤ s.time.up then { o with dropped := true } else o) } ∧
        (∀ m, m ≠ n.val → rxTrunkOf t m = rxTrunkOf s m) ∧ t = { s with lfr := { s.lfr with rx := t.lfr.rx } })) ∧
      ((∀ o ∈ x.olds, o.dropped = true ∨ s.time.up < o.at_ + ns) → Idles (.oldPointerEnd n) s) ∧
      (oldKeyDue s n.val = false → oldTxDue s n.val = false → Idles (.oldKeyZeroize n) s) ∧
      (s.live = true → oldKeyDue s n.val = true ∨ oldTxDue s n.val = true → inCaution s = true → s.guard.held.contains (.oldKeys n.val) = false →
        exec (.oldKeyZeroize n) s = .next { s with guard := { s.guard with held := s.guard.held ++ [.oldKeys n.val] } }) ∧
      (s.live = true → inCaution s = false → oldTxDue s n.val = false → groupOf s 1 n.val = [n.val] → (∃ o ∈ x.olds, o.at_ + 4 * ns ≤ s.time.up) → Completes (.oldKeyZeroize n) s (fun t =>
        rxTrunkOf t n.val = { x with olds := x.olds.filter (fun o => decide (s.time.up < o.at_ + 4 * ns) && x.olds.all (fun q => q.epoch != o.epoch || decide (s.time.up < q.at_ + 4 * ns))) } ∧
        (∀ m, m ≠ n.val → rxTrunkOf t m = rxTrunkOf s m) ∧
        (∀ y i o, y ∈ tribsOn s 1 [n.val] → i < 4 → o ∈ x.olds → o.at_ + 4 * ns ≤ s.time.up → ((arec s (tribAssoc s 1 y)).an i).valid = true → ((arec s (tribAssoc s 1 y)).an i).epoch = o.epoch →
          ((arec t (tribAssoc s 1 y)).an i).valid = false ∧ (slotOf t ((arec s (tribAssoc s 1 y)).an i).slot).valid = false) ∧
        (∀ y i, (∀ o ∈ x.olds, o.at_ + 4 * ns ≤ s.time.up → ((arec s (tribAssoc s 1 y)).an i).epoch ≠ o.epoch) →
          (arec t (tribAssoc s 1 y)).an i = (arec s (tribAssoc s 1 y)).an i) ∧
        (∀ a, (∀ y, y ∈ tribsOn s 1 [n.val] → tribAssoc s 1 y ≠ a) → arec t a = arec s a) ∧
        t = { s with assoc := t.assoc, vault := { s.vault with slots := t.vault.slots, sweeps := t.vault.sweeps }, lfr := { s.lfr with rx := t.lfr.rx } }))) ∧
    (∀ (rx : Bool) (x : Fin 64) (epoch : W32) (n a i slot base : Nat), n = tribTrunk s (b2n rx) x.val → a = tribAssoc s (b2n rx) x.val → i = epoch.toNat % 4 →
      base = (if rx then rxCfg s n Fd.LFR_TRUNK_RXCFG_BASE_SLOT else txCfg s n Fd.LFR_TRUNK_CFG_BASE_SLOT) →
      (derives s rx n epoch.toNat = false → Idles (.tubKeyDerived rx x epoch) s) ∧
      (s.live = true → tubKeyDue rx x.val epoch.toNat s = true → inCaution s = true → s.guard.held.contains (.tubKey rx x.val epoch.toNat) = false →
        exec (.tubKeyDerived rx x epoch) s = .next { s with guard := { s.guard with held := s.guard.held ++ [.tubKey rx x.val epoch.toNat] } }) ∧
      (s.live = true → inCaution s = false → tribOn s (b2n rx) x.val = true → derives s rx n epoch.toNat = true → ¬(((arec s a).an i).valid = true ∧ ((arec s a).an i).epoch = epoch.toNat) → (arec s a).ans.length = 4 →
        (slotOf s base).g0 TS.ORPHAN = 0 → useKey base (some TS.U_DERIVE) 16 (slotWhole s base) s = (0, s) → allocSlot s = some slot → let k := kdf (slotOf s base).bytes (ascii "BD3208 TUB") (natBe 1 x.val ++ natBe 4 epoch.toNat) 288
        Completes (.tubKeyDerived rx x epoch) s (fun t => ∃ u, KeyWritten slot (k.take 32) 0x10D40 0 (some ⟨false, base, (slotOf s base).g1 TS.GEN, (slotOf s base).g0 TS.CASCADE⟩) none s u ∧
          (arec t a).an i = { (arec s a).an i with
            slot := slot, valid := true, retiring := false, salt := beNat (slice k 32 4), epoch := epoch.toNat, nextPn := if rx then 0 else 1, seen := 0, warned := false } ∧
          (∀ j, j ≠ i → (arec t a).an j = (arec s a).an j) ∧ RecordBut a s t ∧ t = { u with assoc := t.assoc }))) ∧
    (∀ (x : Fin 64) (ecc : Ecc), (mergeDue s x.val = false → Idles (.mergeWaitExpire x ecc) s) ∧
      (trafficOn s = true → mergeDue s x.val = true → exec (.mergeWaitExpire x ecc) s = .next (declareLost x.val true ecc s)) ∧
      (∀ u ok v, trafficOn s = true → (rxTribOf s x.val).holds = [u] → u.at_ + 1000 * tribF s 1 x.val Fd.LFR_TRIB_CFG_MERGE_WAIT ≤ s.time.up →
        readCells u.cells ecc (setRxTrib x.val { rxTribOf s x.val with holds := [] } s) = (ok, v) →
        (ok = true → (rxTribOf s x.val).part = none → u.cont = false → 8 ≤ u.data.length → shimType (beNat (slice u.data 0 8)) = 1 → shimLen (beNat (slice u.data 0 8)) = 0 → Completes (.mergeWaitExpire x ecc) s (fun t =>
          (rxTribOf t x.val).holds = [] ∧ (rxTribOf t x.val).expect = some (u.epoch, u.seq + 1) ∧ (rxTribOf t x.val).broken = none ∧ (∀ y, y ≠ x.val → rxTribOf t y = rxTribOf s y) ∧
          t = { v with lfr := { v.lfr with rxTribs := t.lfr.rxTribs } })) ∧
        (ok = false → v.flag Reg.WND_DN_CFG Fd.WND_DN_CFG_EN = false → Completes (.mergeWaitExpire x ecc) s (DropCounted (tribPort s x.val) 0x0F none v))))

/-! ## Twins and the shaft (chapter 14) -/

/-- The session of the twins (R363 to R366, R368, R379): HELLO and its timer, heartbeats and theirs, what every sealed message must pass, silence, and a crosscut message of frames. -/
def Obligations.Crosscut : Prop :=
  ∀ (s : State),
    (∀ (pos : Bool) (serial nonce : BitVec 128) (roleSel variant : Byte), let p : PeerHello := ⟨serial.toNat, roleSel.toNat, variant.toNat, nonce.toNat⟩
      (xcOn s = false → Met 64 72 (.hello pos serial roleSel variant nonce) s (· = s)) ∧
      (xcOn s = true → b2n pos = s.position → Met 64 72 (.hello pos serial roleSel variant nonce) s (Raised Ev.TWIN_STRAP_CONFLICT [b2n pos] { s with twin := { s.twin with ownPos := true } })) ∧
      (b2n pos ≠ s.position → s.twin.link.up = true → Met 64 72 (.hello pos serial roleSel variant nonce) s (· = s)) ∧
      (xcOn s = true → b2n pos ≠ s.position → s.twin.link.up = false → s.twin.link.slot = none → s.twin.link.nonce = none → Met 64 72 (.hello pos serial roleSel variant nonce) s (fun t =>
        t.fld Reg.TWN_STATUS Fd.TWN_STATUS_PEER = (if twinF s Fd.TWN_STATUS_PEER = 3 then 3 else 1) ∧ RegsBut [Reg.TWN_STATUS] s t ∧
        t = { s with regs := t.regs, twin := { s.twin with ownPos := false, link := { s.twin.link with peer := some p } } })) ∧
      (∀ own n d, xcOn s = true → b2n pos ≠ s.position → s.twin.link.up = false → s.twin.link.slot = none → s.twin.link.nonce = some own → deepParent s 5 = (d, s) → d.st = 0 → allocSlot s = some n →
        Met 64 72 (.hello pos serial roleSel variant nonce) s (fun t => ∃ v u, v.fld Reg.TWN_STATUS Fd.TWN_STATUS_PEER = (if twinF s Fd.TWN_STATUS_PEER = 3 then 3 else 1) ∧ RegsBut [Reg.TWN_STATUS] s v ∧
          v = { s with regs := v.regs, twin := { s.twin with ownPos := false, link := { s.twin.link with peer := some p } } } ∧
          KeyWritten n (kdf d.key (ascii "BD3208 DERIVE") (twinContext s.position own nonce.toNat) 256) sessionAttr 0 (some d.src) none v u ∧
          t = { u with twin := { u.twin with link := { u.twin.link with slot := some n, tx := 0, rx := 0 } } }))) ∧
    ((xcOn s = false ∨ helloDue s s.twin.link = false) → isHewer s = false → Idles .helloTimer s) ∧
    (∀ n, xcOn s = true → isHewer s = false → helloDue s s.twin.link = true → s.twin.link.peer = none →
      let frame := linkHeader (xcAddr (1 - s.position)) (xcAddr s.position) 0x58 0x10 (xcFlags s) (roleEpoch s) 0 34 ++ helloBytes s n
      (s.twin.link.nonce = some n → Completes .helloTimer s (FrameSent 64 (.xc 0x10 frame) 72 { s with twin := { s.twin with link := { s.twin.link with lastAt := s.time.up } } })) ∧
      (s.twin.link.nonce = none → n = nonce128 s → Completes .helloTimer s (FrameSent 64 (.xc 0x10 frame) 72 { s with
        draws := s.draws + 1, twin := { s.twin with link := { s.twin.link with nonce := some n, lastAt := s.time.up } } }))) ∧
    (∀ (c : Instr) (h : XcHdr), xcCmd c = some h → (isActive s = false ∨ ∀ ok, c ≠ .resyncDone h ok) →
      (xcOn s = false → XcMet c s (· = s)) ∧
      (xcOn s = true →
        (keyed s s.twin.link = false → XcMet c s (Counted Reg.TWN_CNT_XC_AUTH_FAIL 1 s)) ∧
        (keyed s s.twin.link = true → h.auth = false → takes Ev.XC_AUTH_FAIL s = true → XcMet c s (fun t => ∃ u, Counted Reg.TWN_CNT_XC_AUTH_FAIL 1 s u ∧ Raised Ev.XC_AUTH_FAIL [roleEpoch s] u t)) ∧
        (keyed s s.twin.link = true → h.auth = true → h.seq ≤ s.twin.link.rx → XcMet c s (Counted Reg.TWN_CNT_XC_AUTH_FAIL 1 s)) ∧
        (keyed s s.twin.link = true → h.auth = true → s.twin.link.rx < h.seq → b2n h.pos = s.position → XcMet c s (Counted Reg.TWN_CNT_XC_AUTH_FAIL 1 { s with twin := { s.twin with ownPos := true } })) ∧
        (Fresh h s → s.twin.link.up = false → XcMet c s (· = heard h s)))) ∧
    (∀ (h : XcHdr) (p : Beat) (arrive : Nat), (xcOn s = false → Met 64 118 (.heartbeat h p arrive) s (· = s)) ∧
      (xcOn s = true → keyed s s.twin.link = false → Met 64 118 (.heartbeat h p arrive) s (fun t => ∃ u, Counted Reg.TWN_CNT_HB_MISS 1 s u ∧ Counted Reg.TWN_CNT_XC_AUTH_FAIL 1 u t)) ∧
      (xcOn s = true → keyed s s.twin.link = true → h.auth = false → takes Ev.XC_AUTH_FAIL s = true → Met 64 118 (.heartbeat h p arrive) s (fun t => ∃ u v, Counted Reg.TWN_CNT_HB_MISS 1 s u ∧
        Counted Reg.TWN_CNT_XC_AUTH_FAIL 1 u v ∧ Raised Ev.XC_AUTH_FAIL [roleEpoch s] v t)) ∧
      (xcOn s = true → Fresh h s → isActive s = true → h.claim = false → s.twin.overlapAt = none →
        (s.twin.link.up = true → Met 64 118 (.heartbeat h p arrive) s (fun t => RegsBut [Reg.TIM_XC] s t ∧ t = { s with
          regs := t.regs
          twin := { (heard h s).twin with
            link := { s.twin.link with rx := h.seq, lastAt := s.time.up }, peerState := p.state.val + 4 * b2n p.healthOk + 8 * b2n p.caution + 16 * p.level.val
            peerTally := p.tallyNext, peerGen := p.imageGen, hbRx := arrive, hbRxSeq := h.seq } })) ∧
        (s.twin.link.up = false → Met 64 118 (.heartbeat h p arrive) s (fun t => ∃ u, Raised Ev.PEER_ALIVE [h.epoch % 2 ^ 32] u t ∧ u.fld Reg.TWN_STATUS Fd.TWN_STATUS_PEER = 2 ∧ u.twin.link.up = true ∧
          u.twin.releaseAt = none ∧ u.twin.peerTally = p.tallyNext ∧ RegsBut [Reg.TIM_XC, Reg.TWN_STATUS] s u ∧ u = { s with regs := u.regs, twin := u.twin })))) ∧
    ((xcOn s = false ∨ keyed s s.twin.link = false ∨ s.time.up < s.twin.hbAt + 10000) → Idles .heartbeatTimer s) ∧
    (xcOn s = true → keyed s s.twin.link = true → s.twin.hbAt + 10000 ≤ s.time.up → exec .heartbeatTimer s = .next { xcPost 0x01 (beatBytes s) s with
      twin := { s.twin with link := { s.twin.link with tx := s.twin.link.tx + 1 }, hbAt := s.time.up, hbSeqPrev := s.twin.hbSeq, hbTxPrev := s.twin.hbTx, hbSeq := s.twin.link.tx + 1, hbTx := 4 * s.time.now } }) ∧
    ((s.twin.link.up = false ∨ s.time.up < s.twin.link.lastAt + 30000) → Idles .peerSilent s) ∧
    (s.live = true → twinOn s = true → s.twin.link.up = true → s.twin.link.lastAt + 30000 ≤ s.time.up → s.twin.overlapAt = none → (∀ o ∈ s.fore.waits, movesRole o = false) →
      Completes .peerSilent s (fun t => t.twin.link = .reset ∧ t.fld Reg.TWN_STATUS Fd.TWN_STATUS_PEER = 3 ∧ t.twin.xcBuf = [] ∧ (takes Ev.PEER_SILENT s = true → Recorded Ev.PEER_SILENT [roleEpoch s] s t) ∧
        t.reg Reg.TWN_CNT_HB_MISS = BitVec.ofNat 64 (count40 (s.reg Reg.TWN_CNT_HB_MISS).toNat 3) ∧
        t.reg Reg.TWN_CNT_XC_DROP = BitVec.ofNat 64 (count40 (s.reg Reg.TWN_CNT_XC_DROP).toNat s.twin.xcBuf.length) ∧ (∀ n, s.twin.link.slot = some n → (slotOf t n).valid = false) ∧
        t.mem = s.mem ∧ t.gal = s.gal ∧ t.assoc = s.assoc ∧ t.wnd = s.wnd)) ∧
    ((s.twin.xcBuf = [] ∨ s.twin.link.up = false) → Idles .xcDataClose s) ∧
    (xcOn s = true → s.twin.link.up = true → keyed s s.twin.link = true → s.twin.xcBuf ≠ [] →
      (s.time.up < s.twin.xcAt + 200 → xcBytes s < 16329 → Idles .xcDataClose s) ∧
      (s.twin.xcAt + 200 ≤ s.time.up ∨ 16329 ≤ xcBytes s → let l := fitting 16329 s.twin.xcBuf
        exec .xcDataClose s = .next { xcPost 0x09 (l.flatMap (fun f => natBe 8 f.shim ++ f.data)) s with
          twin := { s.twin with link := { s.twin.link with tx := s.twin.link.tx + 1 }, xcBuf := s.twin.xcBuf.drop l.length, xcAt := s.time.up } }))

/-- The control role and the control image (R367 to R373, R375, R376, R378): yields, claims, the role input, the start rule, DOUT, deltas and copies, and frames from the crosscut. -/
def Obligations.TwinRoles : Prop :=
  ∀ (s : State),
    (∀ cause : Fin 8, (isActive s = false ∨ twinOn s = false ∨ yieldTrigger s cause.val = false → Idles (.roleYield cause) s) ∧
      (s.live = true → twinOn s = true → isActive s = true → yieldTrigger s cause.val = true → s.twin.overlapAt = none → s.twin.blobRun = none → resyncOn s = false → Completes (.roleYield cause) s (fun t =>
        ctrlOf t = 3 ∧ twinF t Fd.TWN_STATUS_ROLE_OUT = 0 ∧ synced t = false ∧ t.twin.driving = true ∧ t.twin.dout = doutNow s ∧ (takes Ev.ROLE_YIELD s = true → Recorded Ev.ROLE_YIELD [cause.val, roleEpoch s] s t) ∧
        t.mem = s.mem ∧ t.gal = s.gal ∧ t.assoc = s.assoc ∧ t.wnd = s.wnd ∧ t.fore = s.fore))) ∧
    (ctrlOf s ≠ 3 → Idles .yieldComplete s) ∧
    (s.live = true → ctrlOf s = 3 → Completes .yieldComplete s (fun t => ctrlOf t = 1 ∧ RegsBut [Reg.TWN_STATUS] s t ∧ t = { s with regs := t.regs })) ∧
    (∀ a : Bool, (roleIn s = a → Idles (.roleInFiltered a) s) ∧
      (s.live = true → roleIn s ≠ a → twinOn s = false → Completes (.roleInFiltered a) s (fun t => roleIn t = a ∧ RegsBut [Reg.TWN_STATUS] s t ∧ t = { s with regs := t.regs })) ∧
      (s.live = true → roleIn s ≠ a → twinOn s = true → a = true → s.position = 1 → isActive s = true → s.twin.overlapAt = none → s.twin.blobRun = none → resyncOn s = false → Completes (.roleInFiltered a) s (fun t =>
        roleIn t = true ∧ ctrlOf t = 3 ∧ twinF t Fd.TWN_STATUS_ROLE_OUT = 0 ∧ synced t = synced s ∧ (takes Ev.ROLE_YIELD s = true → Recorded Ev.ROLE_YIELD [7, roleEpoch s] s t)))) ∧
    (isStandby s = false ∨ startWaitOver s = false → Idles .startWaitExpire s) ∧
    (s.live = true → twinOn s = true → isStandby s = true → startWaitOver s = true → synced s = false →
      (roleIn s = true ∨ s.twin.peerClaim = true → exec .startWaitExpire s = .next { s with twin := { s.twin with startAt := none, startDue := true } }) ∧
      (roleIn s = false → s.twin.peerClaim = false → s.mode = 2 → selfFault s = false → s.twin.ownPos = false → s.twin.link.up = false → Completes .startWaitExpire s (fun t => ∃ u v, Counted Reg.TWN_CNT_SWITCH 1 u v ∧
        Raised Ev.ROLE_ACTIVE [(max (roleEpoch s) s.twin.peerEpoch + 1) % 2 ^ 32] v t ∧ ctrlOf u = 2 ∧ twinF u Fd.TWN_STATUS_ROLE_OUT = 1 ∧ roleEpoch u = (max (roleEpoch s) s.twin.peerEpoch + 1) % 2 ^ 32 ∧
        RegsBut [Reg.TWN_STATUS] s u ∧ u = { s with regs := u.regs, twin := { s.twin with startAt := none, startDue := false, peerYield := false, driving := true, releaseAt := none, overlapAt := none } }))) ∧
    (isStandby s = false ∨ s.twin.releaseAt = none → Idles .doutRelease s) ∧
    (∀ r, s.live = true → twinOn s = true → isStandby s = true → s.twin.releaseAt = some r → (s.time.up < r → Idles .doutRelease s) ∧
      (r ≤ s.time.up → exec .doutRelease s = .next { s with twin := { s.twin with driving := false, releaseAt := none } })) ∧
    (∀ h : XcHdr, xcOn s = true → Fresh h s → s.twin.link.up = true → let v := heard h s
      (∀ cause : Byte, s.twin.overlapAt = none → isStandby s = false → XcMet (.yieldMsg h cause) s (· = { v with
        twin := { v.twin with peerYield := true, peerClaim := false, peerSynced := if cause.toNat = 6 ∨ cause.toNat = 7 then h.synced else false } })) ∧
      (∀ cause : Byte, s.twin.overlapAt = none → isStandby s = true → synced s = true → roleIn s = false → s.mode = 2 → selfFault s = false → XcMet (.yieldMsg h cause) s (fun t =>
        ctrlOf t = 2 ∧ twinF t Fd.TWN_STATUS_ROLE_OUT = 1 ∧ roleEpoch t = (max (roleEpoch s) (h.epoch % 2 ^ 32) + 1) % 2 ^ 32 ∧ t.twin.driving = true ∧ t.twin.peerYield = false ∧ t.twin.overlapAt = none ∧
        t.reg Reg.TWN_CNT_SWITCH = BitVec.ofNat 64 (count40 (s.reg Reg.TWN_CNT_SWITCH).toNat 1) ∧
        (∃ frame, Out.xc 0x03 frame ∈ t.out) ∧
        (takes Ev.ROLE_ACTIVE s = true → Recorded Ev.ROLE_ACTIVE [(max (roleEpoch s) (h.epoch % 2 ^ 32) + 1) % 2 ^ 32] s t) ∧ t.vault = s.vault ∧ t.mem = s.mem ∧ t.gal = s.gal ∧ t.fore = s.fore)) ∧
      ((∀ o ∈ s.fore.waits, movesRole o = false) → isActive s = false → s.twin.overlapAt = none → XcMet (.takeover h) s (· = { v with
        twin := { v.twin with peerClaim := true, peerYield := false, driving := s.twin.driving && !(isStandby s && !synced s), releaseAt := if isStandby s && !synced s then none else s.twin.releaseAt } })) ∧
      ((∀ o ∈ s.fore.waits, movesRole o = false) → isActive s = true → XcMet (.takeover h) s (· = { v with
        twin := { v.twin with peerClaim := true, peerYield := false, overlapAt := some (s.twin.overlapAt.getD s.time.up) } })) ∧
      (∀ d : Byte, (isStandby s = true → synced s = true → XcMet (.doutUpdate h d) s (· = { v with twin := { v.twin with dout := d.toNat, driving := true } })) ∧
        (isStandby s = false ∨ synced s = false → XcMet (.doutUpdate h d) s (· = v))) ∧
      (∀ (gen : Nat) (item : ImageItem), (h.epoch < roleEpoch s ∨ isStandby s = false ∨ synced s = false → XcMet (.imageDelta h gen item) s (· = v)) ∧
        (roleEpoch s ≤ h.epoch → isStandby s = true → synced s = true → gen ≠ s.twin.gen + 1 → XcMet (.imageDelta h gen item) s (fun t => ∃ u, Raised Ev.RESYNC_FAIL [roleEpoch s, s.twin.gen] u t ∧ synced u = false ∧
          RegsBut [Reg.TWN_STATUS] s u ∧ u = { v with regs := u.regs, twin := { v.twin with driving := false, releaseAt := none } })) ∧
        (∀ u, roleEpoch s ≤ h.epoch → isStandby s = true → synced s = true → gen = s.twin.gen + 1 → applyItem item v = (true, u) → XcMet (.imageDelta h gen item) s (· = { u with twin := { u.twin with gen := gen } }))) ∧
      ((isActive s = false → XcMet (.resyncReq h) s (· = v)) ∧ (isActive s = true → XcMet (.resyncReq h) s (fun t => t = startCopy v ∧ resyncOn t = true ∧ (claimOn t .image).isSome = true ∧ t.vault = s.vault ∧ t.mem = s.mem))) ∧
      (∀ item : ImageItem, (isStandby s = false ∨ resyncOn s = false → XcMet (.resyncData h item) s (· = v)) ∧
        (∀ u, isStandby s = true → resyncOn s = true → applyItem item v = (true, u) → XcMet (.resyncData h item) s (· = { u with
          twin := { u.twin with copied := u.twin.copied ++ [(item.code.toNat, (item.args.getD 0 0).toNat)] } }))) ∧
      (isActive s = false → isStandby s = false ∨ resyncOn s = false → ∀ ok, XcMet (.resyncDone h ok) s (· = v)) ∧
      (isStandby s = true → resyncOn s = true → XcMet (.resyncDone h false) s (fun t => ∃ u w, Raised Ev.RESYNC_FAIL [roleEpoch s, s.twin.gen] u w ∧ t = { w with twin := { w.twin with driving := false, releaseAt := none } } ∧
        resyncOn u = false ∧ synced u = false ∧ RegsBut [Reg.TWN_STATUS] s u ∧ u = { v with regs := u.regs, fore := { s.fore with claims := u.fore.claims }, twin := { v.twin with copied := [] } })) ∧
      (isStandby s = true → resyncOn s = true → XcMet (.resyncDone h true) s (· = (standbyDone true v))) ∧
      (∀ (ts : Nat) (wr : Bool), (XcMet (.xcData h [] ts wr) s (· = v)) ∧ (∀ fs, trafficOn s = false → XcMet (.xcData h fs ts wr) s (· = v)) ∧
        (∀ f : XcFrame, trafficOn s = true → s.flag Reg.WND_DN_CFG Fd.WND_DN_CFG_EN = false → (f.decrypt = false ∧ isProxy s f.port.val = false) ∨ (f.decrypt = true ∧ clientEnabled s f.port.val = false) →
          XcMet (.xcData h [f] ts wr) s (DropCounted noPort 0x09 none v)) ∧
        (∀ f : XcFrame, trafficOn s = true → f.decrypt = true → clientEnabled s f.port.val = true → f.stream = none → XcMet (.xcData h [f] ts wr) s (· = (admitFrame (queueAt f.port.val f.cls.val)
          ⟨copyFrame f ts v, b2n f.yellow, isControlFlags (preFlags v f.data true), wr⟩ v))) ∧
        (∀ f : XcFrame, trafficOn s = true → f.decrypt = false → isProxy s f.port.val = true → clientEnabled s f.port.val = false → XcMet (.xcData h [f] ts wr) s (· = (clientIngress f.port.val (some ⟨f.cls.val, f.yellow⟩) f.data ts wr v))))) ∧
    (∀ h ok, isActive s = true → resyncOn s = false → Idles (.resyncDone h ok) s) ∧
    (∀ h, isActive s = true → resyncOn s = true → xcOn s = true → Completes (.resyncDone h true) s (fun t => resyncOn t = false ∧ synced t = true ∧ t.twin.copied = [] ∧ RegsBut (Reg.TWN_STATUS :: macTxRegs 64) s t ∧
      (s.twin.link.up = true → keyed s s.twin.link = true → ∃ frame, Out.xc 0x08 frame ∈ t.out) ∧
      (∀ c ∈ t.fore.claims, ¬(c.src = 3 ∧ c.code = 0x007)) ∧ t = { s with regs := t.regs, page := t.page, out := t.out, fore := { s.fore with claims := t.fore.claims }, twin := { s.twin with copied := [], link := t.twin.link } }))

/-- The shaft (R381 to R383): the overman's answer to HELLO, ACCEPT, STATUS and its timer, sessions that are lost, keys that come in BLOB messages and their answers. -/
def Obligations.Shaft : Prop :=
  ∀ (s : State),
    (∀ (id : Fin 64) (serial nonce : BitVec 128) (sa : BitVec 48),
      (overmanOn s = true → (hewerOf s id.val = none ∨ ∃ x, hewerOf s id.val = some x ∧ x.serial ≠ serial.toNat) → takes Ev.HEWER_REFUSED s = true →
        Met 65 72 (.shaftHello id serial sa nonce) s (Raised Ev.HEWER_REFUSED [id.val] s)) ∧
      (∀ x n d, overmanOn s = true → hewerOf s id.val = some x → x.serial = serial.toNat → x.link.slot = none → deepParent s 6 = (d, s) → d.st = 0 → allocSlot s = some n → Met 65 72 (.shaftHello id serial sa nonce) s (fun t =>
        ∃ y u v, Raised Ev.HEWER_UP [id.val] v t ∧ KeyWritten n (kdf d.key (ascii "BD3208 DERIVE") (natBe 16 (nonce128 s) ++ natBe 16 nonce.toNat) 256) sessionAttr 0 (some d.src) none { s with draws := s.draws + 1 } u ∧
          hewerOf v id.val = some y ∧ y.serial = x.serial ∧ y.addr = x.addr ∧ y.link.slot = some n ∧ y.link.up = true ∧ y.link.nonce = some (nonce128 s) ∧ y.link.rx = 0 ∧ y.link.tx = 1 ∧ y.link.lastAt = s.time.up ∧
          (∀ k, k ≠ id.val → hewerOf v k = hewerOf s k) ∧ v.fld (Reg.TWN_HEWER_STATUS id.val) Fd.TWN_HEWER_STATUS_UP = 1 ∧ RegsBut (Reg.TWN_HEWER_STATUS id.val :: macTxRegs 65) s v ∧
          Out.shaft 0x10 (linkHeader x.addr (shaftMac s) 0x53 0x10 (shaftFlags s 0) id.val 0 34 ++ helloBytes s (nonce128 s)) ∈ v.out ∧ (∃ frame, Out.shaft 0x02 frame ∈ v.out) ∧
          v.reg (Reg.MAC_CNT_TX_FRAMES_OK 65) = BitVec.ofNat 64 (count40 (s.reg (Reg.MAC_CNT_TX_FRAMES_OK 65)).toNat 2) ∧
          v = { u with regs := v.regs, page := v.page, out := v.out, twin := { s.twin with hewers := v.twin.hewers } })) ∧
      (∀ x d, overmanOn s = true → hewerOf s id.val = some x → x.serial = serial.toNat → x.link.slot = none → deepParent s 6 = (d, s) → d.st ≠ 0 → Met 65 72 (.shaftHello id serial sa nonce) s (fun t =>
        hewerOf t id.val = some { x with link := .reset } ∧ (∀ k, k ≠ id.val → hewerOf t k = hewerOf s k) ∧ t.fld (Reg.TWN_HEWER_STATUS id.val) Fd.TWN_HEWER_STATUS_UP = 0 ∧ RegsBut [Reg.TWN_HEWER_STATUS id.val] s t ∧
        t = { s with draws := s.draws + 1, regs := t.regs, twin := { s.twin with hewers := t.twin.hewers } })) ∧
      (overmanOn s = false → isHewer s = false ∨ id.val ≠ hewerId s ∨ sa.toNat ≠ shaftPeer s ∨ s.twin.overman.nonce = none ∨ s.twin.overman.up = true → Met 65 72 (.shaftHello id serial sa nonce) s (· = s)) ∧
      (∀ own n u, overmanOn s = false → isHewer s = true → shaftOn s = true → sa.toNat = shaftPeer s → id.val = hewerId s → s.twin.overman.nonce = some own → s.twin.overman.up = false → s.twin.overman.slot = none →
        sessionKey 6 (natBe 16 nonce.toNat ++ natBe 16 own) s = (some n, u) → Met 65 72 (.shaftHello id serial sa nonce) s (· = { u with
          twin := { u.twin with overman := { u.twin.overman with peer := some ⟨serial.toNat, 1, 0, nonce.toNat⟩, slot := some n, tx := 0, rx := 0 } } }))) ∧
    (∀ (seq : Nat) (id : Fin 64) (serial : BitVec 128), let l := s.twin.overman
      (∀ p, isHewer s = true → shaftOn s = true → keyed s l = true → l.rx < seq → id.val = hewerId s → l.peer = some p → p.serial = serial.toNat →
        Met 65 71 (.acceptMsg seq true id serial) s (· = { s with twin := { s.twin with overman := { l with up := true, rx := seq, lastAt := s.time.up } } })) ∧
      (∀ auth, auth = false ∨ seq ≤ l.rx ∨ keyed s l = false ∨ isHewer s = false ∨ id.val ≠ hewerId s ∨ (∀ p, l.peer = some p → p.serial ≠ serial.toNat) → Met 65 71 (.acceptMsg seq auth id serial) s (· = s))) ∧
    (s.time.up < s.twin.statusAt + 10000000 → Idles .statusTimer s) ∧
    (s.twin.statusAt + 10000000 ≤ s.time.up →
      (overmanOn s = true → Completes .statusTimer s (fun t => t.twin.statusAt = s.time.up ∧ (∃ l, t.out = l ++ s.out) ∧ (∀ k, (hewerOf t k).isSome = (hewerOf s k).isSome) ∧
        RegsBut (macTxRegs 65) s t ∧
        (Table.wf none0 s.twin.hewers = true → ∀ k x, hewerOf s k = some x → x.link.up = false → hewerOf t k = some x) ∧ t = { s with regs := t.regs, page := t.page, out := t.out, twin := { s.twin with statusAt := s.time.up, hewers := t.twin.hewers } })) ∧
      (overmanOn s = false → isHewer s = true → shaftOn s = true → s.twin.overman.up = true → exec .statusTimer s = .next { (shaftPost (shaftPeer s) 0x01 (hewerId s) 1 s.twin.overman (statusBytes s) s).2 with
        twin := { s.twin with statusAt := s.time.up, overman := { s.twin.overman with tx := s.twin.overman.tx + 1 } } })) ∧
    (∀ (id : Fin 64) (seq : Nat) (level : Fin 8),
      (∀ x, overmanOn s = true → hewerOf s id.val = some x → x.link.up = true → keyed s x.link = true → x.link.rx < seq → Met 65 (54 + (statusBytes s).length) (.statusMsg id seq true level) s (fun t =>
        hewerOf t id.val = some { x with link := { x.link with rx := seq, lastAt := s.time.up } } ∧ (∀ k, k ≠ id.val → hewerOf t k = hewerOf s k) ∧
        t.fld (Reg.TWN_HEWER_STATUS id.val) Fd.TWN_HEWER_STATUS_LEVEL = level.val ∧ RegsBut [Reg.TWN_HEWER_STATUS id.val] s t ∧ t = { s with regs := t.regs, twin := { s.twin with hewers := t.twin.hewers } })) ∧
      (overmanOn s = false → isHewer s = true → shaftOn s = true → s.twin.overman.up = true → keyed s s.twin.overman = true → s.twin.overman.rx < seq → id.val = hewerId s →
        Met 65 (54 + (statusBytes s).length) (.statusMsg id seq true level) s (· = { s with twin := { s.twin with overman := { s.twin.overman with rx := seq, lastAt := s.time.up } } })) ∧
      Met 65 (54 + (statusBytes s).length) (.statusMsg id seq false level) s (· = s)) ∧
    (∀ id : Fin 64, (hewerOf s id.val = none → Idles (.hewerLost id) s) ∧
      (∀ x, hewerOf s id.val = some x → (shaftLost s x.link = false → Idles (.hewerLost id) s) ∧
        (overmanOn s = true → x.link.up = true → x.link.lastAt + 30000000 ≤ s.time.up → Completes (.hewerLost id) s (fun t => ∃ u, Raised Ev.HEWER_LOST [id.val] u t ∧ hewerOf u id.val = some { x with link := .reset } ∧
          (∀ k, k ≠ id.val → hewerOf u k = hewerOf s k) ∧ u.fld (Reg.TWN_HEWER_STATUS id.val) Fd.TWN_HEWER_STATUS_UP = 0 ∧ (∀ n, x.link.slot = some n → (slotOf u n).valid = false) ∧
          RegsBut [Reg.TWN_HEWER_STATUS id.val] s u ∧ u = { s with regs := u.regs, vault := { s.vault with slots := u.vault.slots, sweeps := u.vault.sweeps }, twin := { s.twin with hewers := u.twin.hewers } })))) ∧
    (shaftLost s s.twin.overman = false → Idles .overmanLost s) ∧
    (isHewer s = true → s.live = true → s.twin.overman.up = true → s.twin.overman.lastAt + 30000000 ≤ s.time.up → Completes .overmanLost s (fun t => ∃ u, Raised Ev.OVERMAN_LOST [hewerId s] u t ∧ u.twin.overman = .reset ∧
      (∀ n, s.twin.overman.slot = some n → (slotOf u n).valid = false) ∧ u = { s with vault := { s.vault with slots := u.vault.slots, sweeps := u.vault.sweeps }, twin := { s.twin with overman := .reset } })) ∧
    (∀ (seq : Nat) (e : BlobEntry), isHewer s = true → shaftOn s = true → s.twin.overman.up = true → keyed s s.twin.overman = true → s.twin.overman.rx < seq →
      let v : State := { s with twin := { s.twin with overman := { s.twin.overman with rx := seq } } }
      let answers := fun (st : Nat) (u t : State) => ∃ frame, FrameSent 65 (.shaft 0x04 frame) frame.length { u with twin := { u.twin with overman := { u.twin.overman with tx := u.twin.overman.tx + 1 } } } t ∧
        frame = sealedFrame (linkHeader (shaftPeer s) (shaftMac s) 0x53 0x04 (shaftFlags s 1) (hewerId s) (s.twin.overman.tx + 1) 8) (linkKey s s.twin.overman) (natBe 4 e.handle ++ natBe 1 st ++ zeros 3)
          (2 ^ 95 + s.position * 2 ^ 94) (s.twin.overman.tx + 1)
      (permits s 0x11 mShaft 1 = false → takes Ev.ACCESS_VIOLATION s = true → fetchDeep 3 v = v → Met 65 110 (.blob seq true [e]) s (fun t => ∃ u, Raised Ev.ACCESS_VIOLATION [mShaft, 0x11, e.handle] v u ∧ answers St.DENIED u t)) ∧
      (permits s 0x11 mShaft 1 = true → fetchDeep 3 v = v →
        (2 ^ 20 ≤ e.handle → Met 65 110 (.blob seq true [e]) s (answers St.UNSUPPORTED v)) ∧
        (e.handle < 2 ^ 20 → cellarUsed s e.handle = true ∨ claimOn s (.handle e.handle) ≠ none → Met 65 110 (.blob seq true [e]) s (answers St.BUSY v)) ∧
        (e.handle < 2 ^ 20 → cellarUsed s e.handle = false → claimOn s (.handle e.handle) = none → deepParentOk s 3 DS.U_WRAP = false → Met 65 110 (.blob seq true [e]) s (answers St.KEK_INVALID v)) ∧
        (∀ u ok, e.handle < 2 ^ 20 → cellarUsed s e.handle = false → claimOn s (.handle e.handle) = none → deepParentOk s 3 DS.U_WRAP = true → memWrite (blobAt e.handle) (cellarBlob v e ++ zeros 48) .good v = (ok, u) →
          Met 65 110 (.blob seq true [e]) s (answers (if ok then St.OK else St.ABORTED) u)))) ∧
    (∀ seq entries, let n := 62 + 48 * entries.length
      Met 65 n (.blob seq false entries) s (· = s) ∧ (64 < entries.length ∨ seq ≤ s.twin.overman.rx → ∀ auth, Met 65 n (.blob seq auth entries) s (· = s))) ∧
    (∀ (id : Fin 64) (seq : Nat) (acks : List (Nat × Nat)), let n := 54 + 8 * acks.length
      Met 65 n (.blobAck id seq false acks) s (· = s) ∧
      (∀ x, overmanOn s = true → hewerOf s id.val = some x → x.link.up = true → keyed s x.link = true → x.link.rx < seq →
        (s.twin.blobRun = none → Met 65 n (.blobAck id seq true acks) s (fun t => hewerOf t id.val = some { x with link := { x.link with rx := seq } } ∧ (∀ k, k ≠ id.val → hewerOf t k = hewerOf s k) ∧
          t = { s with twin := { s.twin with hewers := t.twin.hewers } })) ∧
        (∀ r, s.twin.blobRun = some r → r.waiting = [(id.val, 1)] → Met 65 n (.blobAck id seq true acks) s (fun t => ∃ r', t.twin.blobRun = some r' ∧ r'.waiting = [] ∧ r'.req = r.req ∧ r'.mask = r.mask ∧
          r'.accepted = r.accepted + (acks.filter (fun a => a.2 == 0)).length ∧ r'.accepted + r'.refused = r.accepted + r.refused + acks.length ∧
          (∀ k, k ≠ id.val → hewerOf t k = hewerOf s k) ∧ t = { s with twin := { s.twin with hewers := t.twin.hewers, blobRun := t.twin.blobRun } }))))

/-! ## Resets, Start-up and the lamp room (chapters 16, 17 and 18) -/

/-- The reset commands (R453, R454, R466, R467, Table 17.5): each leaves the state of a device reset with its cause, or, where its condition fails, nothing. Start-up (R99, R101, R131, R293, R344, R450 to R452, Table 17.4), from a part with an empty tail and room in its attic: it reaches Service with fresh memory keys and the running VERSION in counter 16, or Recovery when no image, a self-test, HBM, the root key or every profile copy fails. The epoch counts of the trunks come back from the attic. -/
def Obligations.ResetsAndStartUp : Prop :=
  (∀ (s : State) (st : Straps),
      (s.mainOn = false → Completes (.powerOnReset st) s (ResetBy 0 0 (b2n st.twinPos) st.roleSel.val { s with lamp := { s.lamp with onVbat := false } })) ∧
      (s.mainOn = true → Idles (.powerOnReset st) s) ∧
      (s.mainOn = false → exec .sequencingFault s = .next { s with held := true }) ∧
      (s.mainOn = true → Idles .sequencingFault s) ∧
      (∀ ns, 1000 ≤ ns → s.mainOn = true → Completes (.resetNAssert ns st) s (ResetBy 1 0 (b2n st.twinPos) st.roleSel.val s)) ∧
      (∀ ns, ns < 1000 ∨ s.mainOn = false → Idles (.resetNAssert ns st) s) ∧
      (s.live = true → Completes .watchdog s (ResetBy 6 0 s.position (s.fld Reg.TWN_STATUS Fd.TWN_STATUS_ROLE_SEL) s)) ∧
      (s.live = false → Idles .watchdog s) ∧
      (∀ r : Fin 9, r.val ≠ 8 → s.live = true → effective s 0 ≤ 1 → s.lamp.tail.length < 64 →
        Completes (.supplyReset r) s (fun t => ∃ u, Tailed Ev.SUPPLY_RESET (effective s 0) [r.val] { s with out := t.out } u ∧
          ResetBy 2 r.val s.position (s.fld Reg.TWN_STATUS Fd.TWN_STATUS_ROLE_SEL) u t ∧ ∃ l, t.out = l ++ s.out)) ∧
      (∀ r : Fin 9, r.val = 8 ∨ s.live = false → Idles (.supplyReset r) s)) ∧
  (∀ (s : State) (i : StartIn),
      (s.live = false ∨ s.mode ≠ 0 → Idles (.startup i) s) ∧
      (s.live = true → s.mode = 0 → s.lamp.alive = true → s.lamp.tail = [] → s.lamp.tailLost = 0 → s.attic.readonly = 0 → s.attic.spares ≤ 100 →
        s.attic.evid.length ≤ 16000 → tornCount s = 0 → s.attic.standing = [] → (∀ L, L < 73 → laneUp s L = false) →
        (∀ k c p root, chooseImage s = some k → chooseProfile s = some (c, p, true) → p.regs = [] → s.fld Reg.PWR_CFG Fd.PWR_CFG_AUTOSTART = 0 → s.lamp.root = some root →
          i.selfTest = true → i.hbm = true → i.memCheck = false → i.galBad = [] →
          Completes (.startup i) s (fun t => t.mode = 2 ∧ t.live = true ∧ t.vault.memPresent = true ∧ t.mem.noKey = false ∧ t.fld Reg.MEM_STATUS Fd.MEM_STATUS_KEYS_PRESENT = 1 ∧
            t.assoc = [] ∧ t.time.now = s.lamp.rtc ∧ t.time.up = s.time.up ∧ t.fld Reg.PWR_STATUS Fd.PWR_STATUS_FW_IMAGE = k ∧
            counterOf t 16 = max (counterOf s 16) (if k = 0 then s.attic.fwA.version else s.attic.fwB.version) ∧
            (∀ d, d < 5 → (deepOf t d).g DS.VALID = 1) ∧ t.vault.slots = s.vault.slots ∧ t.vault.identity = s.vault.identity ∧
            (∀ g, g < 64 → nbit (galPresent s) g = true → nbit (t.reg Reg.GAL_ONLINE).toNat g = true) ∧
            (∀ n, n < 16 → epochTx t n = counterOf s n % 2 ^ 32 ∧ epochRx t n = tget nat0 s.attic.rxEpochs n % 2 ^ 32) ∧ (takes Ev.RESET s = true → s.attic.nextSeq < t.attic.nextSeq))) ∧
        (chooseImage s = none ∨ i.selfTest = false ∨ i.hbm = false ∨ s.lamp.root = none ∨ chooseProfile s = none → i.memCheck = false →
          Completes (.startup i) s (fun t => t.mode = 4 ∧ t.vault.slots = s.vault.slots ∧ t.mem.bytes = [] ∧ t.mem.noKey = true ∧ t.lamp.root = s.lamp.root ∧
            t.fld Reg.MEM_STATUS Fd.MEM_STATUS_KEYS_PRESENT = 0))))

/-- The lamp room while main supplies are off (R425 to R427, R429): each trigger leaves its record in the tail with the room's own time, at L4 the root key goes with a record of its own, VBAT too low takes the root key, and the switch of its supply loses none of its state. -/
def Obligations.LampRoom : Prop :=
  ∀ (s : State),
    (s.mainOn = false → s.lamp.tail.length < 63 → ∀ m : Fin 32, lampMonitors.contains m.val = true → (9 ≤ m.val → m.val ≤ 12 → loopOn s (m.val - 9) = true) →
      let v := { s with lamp := { s.lamp with rtcRun := s.lamp.rtcRun && m.val != 0x17 } }
      (tget nat0 s.lamp.levels m.val < 4 → Completes (.lampMonitorTrigger m) s (Tailed (monCode m.val) (tget nat0 s.lamp.levels m.val) [m.val] v)) ∧
      (tget nat0 s.lamp.levels m.val = 4 → Completes (.lampMonitorTrigger m) s (fun t => t.lamp.root = none ∧
        ∃ u, Tailed (monCode m.val) 4 [m.val] v u ∧ Tailed Ev.ROOT_ERASED 4 [m.val] { u with lamp := { u.lamp with root := none } } t))) ∧
    (s.mainOn = false → ∀ m : Fin 32, lampMonitors.contains m.val = true → (9 ≤ m.val → m.val ≤ 12 → loopOn s (m.val - 9) = true) → tget nat0 s.lamp.levels m.val = 4 →
      Completes (.lampMonitorTrigger m) s (fun t => t.lamp.root = none)) ∧
    (∀ m : Fin 32, s.mainOn = true ∨ lampMonitors.contains m.val = false ∨ (9 ≤ m.val ∧ m.val ≤ 12 ∧ loopOn s (m.val - 9) = false) → Idles (.lampMonitorTrigger m) s) ∧
    (∀ code level vals, 64 ≤ s.lamp.tail.length → let t := lampRecord code level vals s
      (∀ a o b, s.lamp.tail = a ++ o :: b → (∀ x ∈ a, (evInfo code).1 < x.sev) → o.sev ≤ (evInfo code).1 → t.lamp.tailLost = s.lamp.tailLost ∧
        ∃ r, t.lamp.tail = a ++ b ++ [r] ∧ r.code = code ∧ r.slot = o.slot ∧ r.seq = s.lamp.tailSeq % 65536 ∧ r.time = s.lamp.rtc ∧ r.data = evData vals) ∧
      ((∀ x ∈ s.lamp.tail, (evInfo code).1 < x.sev) → t.lamp.tail = s.lamp.tail ∧ t.lamp.tailLost = min (s.lamp.tailLost + 1) 0xFFFF)) ∧
    (∀ b : BitVec 4, s.mainOn = true ∨ s.lamp.rtcRun = false ∨ pollDue s = false → Idles (.lampLoopPoll b) s) ∧
    (∀ b : BitVec 4, s.mainOn = false → pollDue s = true →
      ((∀ i, i < 4 → nbit b.toNat i = true → loopOn s i = false) → Idles (.lampLoopPoll b) s) ∧
      (∀ i : Fin 4, (∀ j, j < 4 → (nbit b.toNat j && loopOn s j) = (j == i.val)) → s.lamp.tail.length < 63 →
        (tget nat0 s.lamp.levels (9 + i.val) < 4 → Completes (.lampLoopPoll b) s (Tailed Ev.TAMPER_LOOP (tget nat0 s.lamp.levels (9 + i.val)) [9 + i.val] s)) ∧
        (tget nat0 s.lamp.levels (9 + i.val) = 4 → Completes (.lampLoopPoll b) s (fun t => t.lamp.root = none ∧
          ∃ u, Tailed Ev.TAMPER_LOOP 4 [9 + i.val] s u ∧ Tailed Ev.ROOT_ERASED 4 [9 + i.val] { u with lamp := { u.lamp with root := none } } t)))) ∧
    (s.mainOn = false → s.lamp.tail.length < 64 → Completes .vbatRootErase s (fun t => t.lamp.root = none ∧
      Tailed Ev.ROOT_ERASED 0 [8] { s with lamp := { s.lamp with root := none, vbatOk := false } } t)) ∧
    (s.mainOn = true → Idles .vbatRootErase s) ∧
    exec (.lampSupplySwitch false) s = .next { s with lamp := { s.lamp with onVbat := false } } ∧
    (s.mainOn = false → exec (.lampSupplySwitch true) s = .next { s with lamp := { s.lamp with onVbat := true } }) ∧
    (s.mainOn = true → Completes (.lampSupplySwitch true) s (fun t => t.mainOn = false ∧ t.lamp = { s.lamp with onVbat := true } ∧ t.attic = s.attic ∧
      t.vault.slots = [] ∧ t.vault.deep = [] ∧ t.vault.memPresent = false ∧ t.mem.bytes = [] ∧ t.host.sessions = [] ∧ (∀ off, t.reg off = regReset off) ∧
      t = { State.reset with
        variant := s.variant, serial := s.serial, mainOn := false, regs := [], time := t.time, lamp := t.lamp, attic := s.attic, vault := t.vault
        out := s.out, draws := s.draws, pending := s.pending } ∧
      t.time.now = s.time.now ∧ t.time.up = s.time.up))

/-! ## The host at its BARs (chapter 15) -/

/-- Landing cells and tokens (R389, R393 to R395, R403, R411, Table 15.5): an owner with permission reads and writes a HOST cell, a cell handed over or poisoned is a token fault, a cell out of range a violation, a token changes only as Table 15.5 states, and a cleared cell holds zeros. -/
def Obligations.LandingCells : Prop :=
  ∀ (s : State) (fn : Fin 16),
    (∀ (off : Nat) (data : Bytes) (ide : Bool) (ecc : Ecc), data = [] ∨ 4096 < off % 4096 + data.length ∨ (if fn = 0 then 2 ^ 28 else 2 ^ 26) ≤ off ∨ s.live = false ∨ s.host.flr.contains fn.val = true →
      Idles (.landingWrite fn off data ide ecc) s) ∧
    (∀ (off len : Nat) (ide : Bool) (ecc : Ecc), len = 0 ∨ 4096 < off % 4096 + len ∨ (if fn = 0 then 2 ^ 28 else 2 ^ 26) ≤ off ∨ s.live = false → Idles (.landingRead fn off len ide ecc) s) ∧
    (s.live = true → ∀ (off cell : Nat) (ide : Bool) (ecc : Ecc), off < (if fn = 0 then 2 ^ 28 else 2 ^ 26) → cell = (if fn = 0 then off / 4096 else cellBase s fn.val + off / 4096) →
      let a := landingAt cell + off % 4096
      (∀ data : Bytes, data ≠ [] → off % 4096 + data.length ≤ 4096 → s.host.flr.contains fn.val = false →
        (ideOk s ide = true → ownsCell s fn.val cell = true → permits s 0x15 fn.val 1 = true → tokenOf s cell = 0 → readable s a data.length = true → keyHeld s (regionKey s 5) (kgenOf s (regionKey s 5)) = true → s.mem.opens.length ≤ 60 →
          Completes (.landingWrite fn off data ide ecc) s (Stored a data s)) ∧
        (ideOk s ide = true → ownsCell s fn.val cell = true → permits s 0x15 fn.val 1 = true → tokenOf s cell ≠ 0 → Completes (.landingWrite fn off data ide ecc) s (TokenFaulted fn.val cell s)) ∧
        (ideOk s ide = false ∨ ownsCell s fn.val cell = false ∨ permits s 0x15 fn.val 1 = false → losesEvidence Ev.ACCESS_VIOLATION s = false →
          Completes (.landingWrite fn off data ide ecc) s (Violated fn.val 0x15 cell s))) ∧
      (∀ len, 0 < len → off % 4096 + len ≤ 4096 →
        (ideOk s ide = true → s.host.flr.contains fn.val = true → exec (.landingRead fn off len ide ecc) s = .next (s.emit (.read fn.val (zeros len) false))) ∧
        (ideOk s ide = true → s.host.flr.contains fn.val = false → ownsCell s fn.val cell = true → permits s 0x15 fn.val 0 = true → tokenOf s cell = 0 → readable s a len = true → ecc ≠ .bad →
          exec (.landingRead fn off len ide ecc) s = .next (s.emit (.read fn.val (memBytes s a len) false))) ∧
        (∀ v, ideOk s ide = true → s.host.flr.contains fn.val = false → ownsCell s fn.val cell = true → permits s 0x15 fn.val 0 = true → tokenOf s cell = 0 → readCells (cellsOf a len) ecc s = (false, v) →
          Completes (.landingRead fn off len ide ecc) s (fun t => ∃ data : Bytes, data.length = len ∧ t = { v.emit (.read fn.val data true) with draws := v.draws + len })) ∧
        (ideOk s ide = true → s.host.flr.contains fn.val = false → ownsCell s fn.val cell = true → permits s 0x15 fn.val 0 = true → tokenOf s cell ≠ 0 →
          Completes (.landingRead fn off len ide ecc) s (fun t => ∃ v, TokenFaulted fn.val cell s v ∧ t = v.emit (.read fn.val (deadBytes len) true))) ∧
        (ideOk s ide = false ∨ s.host.flr.contains fn.val = false ∧ (ownsCell s fn.val cell = false ∨ permits s 0x15 fn.val 0 = false) → losesEvidence Ev.ACCESS_VIOLATION s = false →
          Completes (.landingRead fn off len ide ecc) s (fun t => ∃ v, Violated fn.val 0x15 cell s v ∧ t = v.emit (.read fn.val (deadBytes len) true))))) ∧
    (∀ (k : Nat) (value : Byte) (ide : Bool), s.live = false ∨ s.host.flr.contains fn.val = true ∨ 0x4000 ≤ k ∨ (ideOk s ide = true ∧ cellCount s fn.val ≤ k) → Idles (.tokenWrite fn k value ide) s) ∧
    (∀ (k cell : Nat) (value : Byte) (ide : Bool), s.live = true → s.host.flr.contains fn.val = false → k < 0x4000 → cell = cellBase s fn.val + k →
      (ideOk s ide = false → losesEvidence Ev.ACCESS_VIOLATION s = false → Completes (.tokenWrite fn k value ide) s (Violated fn.val 0x30 (0xC000 + k) s)) ∧
      (ideOk s ide = true → k < cellCount s fn.val →
        (tokenOf s cell = 0 → value = 1 → Completes (.tokenWrite fn k value ide) s (fun t => tokenOf t cell = 1 ∧ (∀ c, c ≠ cell → tokenOf t c = tokenOf s c) ∧
          t = { s with host := { s.host with tokens := t.host.tokens } })) ∧
        (tokenOf s cell = 2 → value = 0 → Completes (.tokenWrite fn k value ide) s (fun t => t.host.clearing.contains cell = true ∧ t = { s with host := { s.host with clearing := t.host.clearing } })) ∧
        (¬(tokenOf s cell = 0 ∧ value = 1) → ¬(tokenOf s cell = 2 ∧ value = 0) → Completes (.tokenWrite fn k value ide) s (TokenFaulted fn.val cell s)))) ∧
    (∀ c : Fin 65536, s.live = true → s.host.clearing.contains c.val = true → Completes (.poisonCleared c) s (fun t => tokenOf t c.val = 0 ∧ (∀ d, d ≠ c.val → tokenOf t d = tokenOf s d) ∧
      memBytes t (landingAt c.val) 4096 = zeros 4096 ∧ (∀ x, x < landingAt c.val ∨ landingAt c.val + 4096 ≤ x → tget byte0 t.mem.bytes x = tget byte0 s.mem.bytes x) ∧
      (∀ n, n < 16 → (sectorAt t (landingAt c.val / 256 + n)).poison = false) ∧ t.host.clearing = s.host.clearing.erase c.val ∧
      t = { s with mem := { s.mem with bytes := t.mem.bytes, side := t.mem.side, opens := t.mem.opens }, host := { s.host with tokens := t.host.tokens, clearing := t.host.clearing } })) ∧
    (∀ c : Fin 65536, s.live = false ∨ s.host.clearing.contains c.val = false → Idles (.poisonCleared c) s)

/-- Rings, vectors and register writes (R2, R9, R390, R396, R398, R400, R401): a doorbell moves the producer index or counts a ring fault, a transmit entry becomes an item of its function's domain or is skipped, a moderated vector is sent once its time is over, an unmasked pending vector is sent, and a register takes what its fields' types let the host write. -/
def Obligations.HostRings : Prop :=
  ∀ (s : State) (fn : Fin 16), let busy := s.host.flr.contains fn.val
    (∀ tail : BitVec 8, (s.live = false ∨ busy = true → Idles (.transmitRingDoorbell fn tail) s) ∧
      (s.live = true → busy = false → ideOk s true = false → losesEvidence Ev.ACCESS_VIOLATION s = false → Completes (.transmitRingDoorbell fn tail) s (Violated fn.val 0x30 pgTxDb s)) ∧
      (s.live = true → busy = false → ideOk s true = true → let h := s.pgFld fn.val pgTxDb RF.TX_HEAD
        let used := (s.pgFld fn.val pgTxDb RF.TX_TAIL + 256 - h) % 256
        (used ≤ (tail.toNat + 256 - h) % 256 → Completes (.transmitRingDoorbell fn tail) s (fun t => t.pgFld fn.val pgTxDb RF.TX_TAIL = tail.toNat ∧ t.pgFld fn.val pgTxDb RF.TX_HEAD = h ∧
          (∀ k, k ≠ fn.val * 0x10000 + pgTxDb → tget pageReset t.page k = tget pageReset s.page k) ∧ t = { s with page := t.page })) ∧
        ((tail.toNat + 256 - h) % 256 < used → Completes (.transmitRingDoorbell fn tail) s (PgCounted fn.val pgRingFault 1 s)))) ∧
    (∀ tail : BitVec 10, (s.live = false ∨ busy = true → Idles (.freeRingDoorbell fn tail) s) ∧
      (s.live = true → busy = false → ideOk s true = false → losesEvidence Ev.ACCESS_VIOLATION s = false → Completes (.freeRingDoorbell fn tail) s (Violated fn.val 0x30 pgRxf s)) ∧
      (s.live = true → busy = false → ideOk s true = true → let h := s.pgFld fn.val pgRxf RF.RXF_HEAD
        let used := (s.pgFld fn.val pgRxf RF.RXF_TAIL + 1024 - h) % 1024
        (used ≤ (tail.toNat + 1024 - h) % 1024 → Completes (.freeRingDoorbell fn tail) s (fun t => t.pgFld fn.val pgRxf RF.RXF_TAIL = tail.toNat ∧ t.pgFld fn.val pgRxf RF.RXF_HEAD = h ∧
          (∀ k, k ≠ fn.val * 0x10000 + pgRxf → tget pageReset t.page k = tget pageReset s.page k) ∧ t = { s with page := t.page })) ∧
        ((tail.toNat + 1024 - h) % 1024 < used → Completes (.freeRingDoorbell fn tail) s (PgCounted fn.val pgRingFault 1 s)))) ∧
    (let h := s.pgFld fn.val pgTxDb RF.TX_HEAD
      let w0 := txWord s fn.val h 0
      let first := nbits w0 0 16
      let len := nbits w0 16 14
      let w1 := txWord s fn.val h 1
      let a := nbits w1 0 20
      let skipped := fun (v t : State) => TxMoved fn.val h first len v t ∧ (t.pg fn.val pgRingFault).toNat = count40 (s.pg fn.val pgRingFault).toNat 1 ∧ t.gal = s.gal ∧ t.mem = v.mem ∧ t.vault = s.vault ∧ t.wnd = s.wnd
      (∀ ecc, trafficOn s = false ∨ busy = true ∨ h = s.pgFld fn.val pgTxDb RF.TX_TAIL → Idles (.transmitEntryRead fn ecc) s) ∧
      (∀ ecc, trafficOn s = true → busy = false → h ≠ s.pgFld fn.val pgTxDb RF.TX_TAIL →
        (len < 60 ∨ cellsReady s fn.val first len = false ∨ permits s (0x40 + nbits w0 32 6) fn.val 1 = false ∨ (nbit w0 41 = true ∧ assocWithin s a (nbits w0 32 6) = false) →
          Completes (.transmitEntryRead fn ecc) s (skipped s)) ∧
        (txEntryOk s fn.val w0 w1 = true → backlogRoom s (96 + fn.val) len = false → Idles (.transmitEntryRead fn ecc) s) ∧
        (∀ v, txEntryOk s fn.val w0 w1 = true → backlogRoom s (96 + fn.val) len = true → readCells (cellsOf (landingAt first) len) ecc s = (false, v) → Completes (.transmitEntryRead fn ecc) s (skipped v)) ∧
        (txEntryOk s fn.val w0 w1 = true → backlogRoom s (96 + fn.val) len = true → readable s (landingAt first) len = true → ecc ≠ .bad → Completes (.transmitEntryRead fn ecc) s (fun t =>
          TxMoved fn.val h first len s t ∧ t.pg fn.val pgRingFault = s.pg fn.val pgRingFault ∧ t.mem = s.mem ∧ t.vault = s.vault ∧ t.wnd = s.wnd ∧
          (∃ it, backlogOf t (96 + fn.val) = backlogOf s (96 + fn.val) ++ [it] ∧ it.data = memBytes s (landingAt first) len ∧ it.dom = 96 + fn.val ∧ it.fn = fn.val ∧ it.cls = nbits w0 38 3 ∧
            it.target = nbits w0 32 6 ∧ it.queue = queueAt (nbits w0 32 6) (nbits w0 38 3) ∧ it.flags = preFlags s it.data true ∧ it.assoc = (if nbit w0 41 then some a else none)) ∧
          (∀ d, d ≠ 96 + fn.val → backlogOf t d = backlogOf s d) ∧
          (nbit w0 41 = false → t.cls = s.cls) ∧ (nbit w0 41 = true → s.cls.cached.contains a = true ∨ t.cls.fetching.contains a = true))))) ∧
    (∀ tx : Bool, let v := if tx then 2 else 1
      let k := 2 * fn.val + b2n tx
      nbit ((irq fn.val v s).pg fn.val pgCause).toNat v = true ∧
      (∀ due at_, tget none0 s.host.moderating k = some (due, at_) → (irq fn.val v s).out = s.out ∧ tget none0 (irq fn.val v s).host.moderating k = some (true, at_)) ∧
      (tget none0 s.host.moderating k = none → nbit (s.pg fn.val (pgMsix v 1)).toNat 32 = false → (∃ a d, (irq fn.val v s).out = .msix fn.val v a d :: s.out) ∧
        tget none0 (irq fn.val v s).host.moderating k = (if modTime fn.val v s = 0 then none else some (false, s.time.up)))) ∧
    (∀ tx : Bool, let v := if tx then 2 else 1
      let k := 2 * fn.val + b2n tx
      (s.live = false ∨ tget none0 s.host.moderating k = none → Idles (.irqModerationExpire fn tx) s) ∧
      (∀ due at_, s.live = true → tget none0 s.host.moderating k = some (due, at_) →
        (s.time.up < at_ + 1000 * modTime fn.val v s → Idles (.irqModerationExpire fn tx) s) ∧
        (at_ + 1000 * modTime fn.val v s ≤ s.time.up → Completes (.irqModerationExpire fn tx) s (fun t =>
          t = { s with page := t.page, out := t.out, host := { s.host with moderating := t.host.moderating } } ∧ (∀ j, j ≠ k → tget none0 t.host.moderating j = tget none0 s.host.moderating j) ∧
          tget none0 t.host.moderating k = (if due && decide (modTime fn.val v s ≠ 0) then some (false, s.time.up) else none) ∧
          (due = false → t.page = s.page ∧ t.out = s.out) ∧
          (due = true → nbit (s.pg fn.val (pgMsix v 1)).toNat 32 = false → t.page = s.page ∧ ∃ a d, t.out = .msix fn.val v a d :: s.out) ∧
          (due = true → nbit (s.pg fn.val (pgMsix v 1)).toNat 32 = true → t.out = s.out ∧ nbit (t.pg fn.val pgPba).toNat v = true))))) ∧
    (∀ v : Fin 64, (s.live = false ∨ busy = true → Idles (.msixUnmask fn v) s) ∧
      (s.live = true → busy = false → ideOk s true = false → losesEvidence Ev.ACCESS_VIOLATION s = false → Completes (.msixUnmask fn v) s (Violated fn.val 0x30 (pgMsix v.val 1) s)) ∧
      (s.live = true → busy = false → ideOk s true = true → Completes (.msixUnmask fn v) s (fun t => nbit (t.pg fn.val (pgMsix v.val 1)).toNat 32 = false ∧ t = { s with page := t.page, out := t.out } ∧
        (∀ k, k ≠ fn.val * 0x10000 + pgMsix v.val 1 → k ≠ fn.val * 0x10000 + pgPba → tget pageReset t.page k = tget pageReset s.page k) ∧
        (nbit (s.pg fn.val pgPba).toNat v.val = false → t.out = s.out ∧ t.pg fn.val pgPba = s.pg fn.val pgPba) ∧
        (nbit (s.pg fn.val pgPba).toNat v.val = true → nbit (t.pg fn.val pgPba).toNat v.val = false ∧
          ∃ a d, t.out = .msix fn.val v.val a d :: s.out ∧ a = s.pg fn.val (pgMsix v.val 0) ∧ d = nbits (s.pg fn.val (pgMsix v.val 1)).toNat 0 32)))) ∧
    (∀ (off : Nat) (w : W64) (ide : Bool),
      (s.live = false ∨ off % 8 ≠ 0 ∨ fn ≠ 0 ∨ 0xF00000 ≤ off → Idles (.hostRegisterWrite fn true off w ide) s) ∧
      (s.live = false ∨ off % 8 ≠ 0 ∨ busy = true ∨ 0x10000 ≤ off → Idles (.hostRegisterWrite fn false off w ide) s) ∧
      (s.live = true → off % 8 = 0 → off < 0xF00000 → fn = 0 →
        (ideOk s ide = false ∨ hostMayWrite s off = false → losesEvidence Ev.ACCESS_VIOLATION s = false →
          ((∀ d, descAt off = some d → typeMask .ow d.fields = 0) → Completes (.hostRegisterWrite fn true off w ide) s (Violated 0 (0x30 + off / 0x100000) off s)) ∧
          (∀ d, descAt off = some d → typeMask .ow d.fields ≠ 0 → s.attic.lifecycle ≠ 2 → Completes (.hostRegisterWrite fn true off w ide) s (fun t =>
            ∃ u, Counted Reg.HST_CNT_OW_IGNORED 1 s u ∧ Violated 0 (0x30 + off / 0x100000) off u t))) ∧
        (ideOk s ide = true → hostMayWrite s off = true →
          (off % 0x100000 < 0xF0000 → descAt off = none → Idles (.hostRegisterWrite fn true off w ide) s) ∧
          (0xF0000 ≤ off % 0x100000 → exec (.hostRegisterWrite fn true off w ide) s = .next (s.setReg off (s.reg off &&& ~~~ w))) ∧
          (∀ d, off % 0x100000 < 0xF0000 → descAt off = some d → off ≠ Reg.TMP_ALARM → (typeMask .ow d.fields = 0 →
            exec (.hostRegisterWrite fn true off w ide) s = .next (s.setReg off (s.reg off &&& ~~~ (w &&& typeMask .w1c d.fields)))) ∧
            (typeMask .ow d.fields ≠ 0 → s.attic.lifecycle ≠ 2 → typeMask .w1c d.fields = 0 → Completes (.hostRegisterWrite fn true off w ide) s (fun t =>
              t.reg Reg.HST_CNT_OW_IGNORED = BitVec.ofNat 64 (count40 (s.reg Reg.HST_CNT_OW_IGNORED).toNat 1) ∧ RegsBut [Reg.HST_CNT_OW_IGNORED, halfWord Reg.HST_CNT_OW_IGNORED] s t ∧
              t = { s with regs := t.regs, page := t.page, out := t.out })) ∧
            (typeMask .ow d.fields ≠ 0 → s.attic.lifecycle = 2 → takes Ev.REG_WRITE_IGNORED s = true → Completes (.hostRegisterWrite fn true off w ide) s (fun t => Recorded Ev.REG_WRITE_IGNORED [0, 0, 0x30 + off / 0x100000, off] s t ∧
              t.reg Reg.HST_CNT_OW_IGNORED = BitVec.ofNat 64 (count40 (s.reg Reg.HST_CNT_OW_IGNORED).toNat 1) ∧ t.reg off = s.reg off &&& ~~~ (w &&& typeMask .w1c d.fields)))) ∧
          (off = Reg.TMP_ALARM → (nbit w.toNat 0 = true → exec (.hostRegisterWrite fn true off w ide) s = exec (.tmpAlarmClear []) s) ∧ (nbit w.toNat 0 = false → Idles (.hostRegisterWrite fn true off w ide) s)))) ∧
      (s.live = true → off % 8 = 0 → off < 0x10000 → busy = false →
        (ideOk s ide = false → losesEvidence Ev.ACCESS_VIOLATION s = false → Completes (.hostRegisterWrite fn false off w ide) s (Violated fn.val 0x30 off s)) ∧
        (ideOk s ide = true →
          (0x2000 ≤ off → off < 0x3000 → exec (.hostRegisterWrite fn false off w ide) s = .next (s.setPg fn.val off w)) ∧
          (0x3000 ≤ off → off < 0x4000 → Idles (.hostRegisterWrite fn false off w ide) s) ∧
          (0xA000 ≤ off → Idles (.hostRegisterWrite fn false off w ide) s) ∧
          (off = pgCause → exec (.hostRegisterWrite fn false off w ide) s = .next (s.setPg fn.val off (s.pg fn.val off &&& ~~~ w))))))

/-- Host-side resets and the link (R387, R402, R403, Table 15.10): the function's rings, interrupts and entries are at reset, none of its tokens reads DEVICE, FN_RESET is recorded; PERST_N, a hot reset and a link down also end the IDE streams and SPDM sessions; keys, access tables, traffic and cell contents stay. -/
def Obligations.HostResets : Prop :=
  ∀ (s : State),
    (∀ fn : Fin 16, s.live = false → Idles (.flr fn) s ∧ Idles (.flrComplete fn) s) ∧
    (∀ k : PcieReset, s.live = false → Idles (.perstN k) s) ∧
    (∀ fn : Fin 16, fn ≠ 0 → s.live = true → s.fore.running = [] → s.gal.jobs = [] → Completes (.flr fn) s (fun t => ∃ u, Raised Ev.FN_RESET [0, 2 ^ fn.val] u { t with host := u.host } ∧
      (∀ c, tokenOf u c = if ownsCell s fn.val c && tokenOf s c == 1 then 0 else tokenOf s c) ∧ (∀ k, tget pageReset u.page k = if pageLost s fn.val k then pageReset k else tget pageReset s.page k) ∧
      t.host = { u.host with flr := t.host.flr } ∧ (∀ f, t.host.flr.contains f = (f == fn.val || s.host.flr.contains f)) ∧
      (∀ b ∈ u.fore.verify ++ u.fore.accepted, b.fn ≠ fn.val) ∧ u.host.access = s.host.access ∧ u.host.ide = s.host.ide ∧ u.host.sessions = s.host.sessions ∧
      u = { s with
        page := u.page, fore := { s.fore with verify := u.fore.verify, accepted := u.fore.accepted, deferred := u.fore.deferred }
        host := { s.host with tokens := u.host.tokens, phase := u.host.phase, cplWait := u.host.cplWait, moderating := u.host.moderating } })) ∧
    (s.live = true → s.fore.running = [] → s.gal.jobs = [] → (∀ c : Instr, (c = .flr 0 ∨ (∃ k, c = .perstN k) ∧ s.host.sessions = []) → Completes c s (fun t =>
      (∀ f, f < 16 → ∀ k, ownsCell s f k = true → tokenOf t k ≠ 1) ∧ (∀ k, k < 0x100000 → k ∉ irqWords → pageLost s (k / 0x10000) k = true → tget pageReset t.page k = pageReset k) ∧
      t.host.access = s.host.access ∧ t.mem = s.mem ∧ t.vault = s.vault ∧ t.wnd = s.wnd ∧ t.assoc = s.assoc ∧ t.gal = s.gal))) ∧
    (s.live = true → Completes (.flr 0) s (fun t => (∀ f, f < 16 → t.host.flr.contains f = true) ∧ t.host.ide = s.host.ide ∧ t.host.sessions = s.host.sessions)) ∧
    (∀ k : PcieReset, s.live = true → s.host.sessions = [] → s.fore.running = [] → s.gal.jobs = [] → Completes (.perstN k) s (fun t => t.host.flr = [] ∧ t.host.ide = [] ∧ t.host.sessions = [] ∧ t.host.spdmState = 0 ∧
      t.host.transcript = [] ∧ t.reg Reg.HST_LINK_STATUS = 0)) ∧
    (∀ fn : Fin 16, s.live = true → Completes (.flrComplete fn) s (fun t => t = { s with host := { s.host with flr := t.host.flr } } ∧ t.host.flr.contains fn.val = false ∧
      (fn ≠ 0 → ∀ f, f ≠ fn.val → t.host.flr.contains f = s.host.flr.contains f) ∧ (fn = 0 → s.host.flr.contains 0 = true → t.host.flr = []))) ∧
    (∀ rate width : Fin 16, (s.live = false ∨ rate.val = 0 ∨ 6 < rate.val ∨ [1, 2, 4, 8].contains width.val = false → Idles (.pcieLinkUp rate width) s) ∧
      (s.live = true → 1 ≤ rate.val → rate.val ≤ 6 → [1, 2, 4, 8].contains width.val = true → Completes (.pcieLinkUp rate width) s (fun t =>
        t.flag Reg.HST_LINK_STATUS Fd.HST_LINK_STATUS_UP = true ∧ t.fld Reg.HST_LINK_STATUS Fd.HST_LINK_STATUS_RATE = rate.val ∧ t.fld Reg.HST_LINK_STATUS Fd.HST_LINK_STATUS_WIDTH = width.val ∧
        t.flag Reg.HST_LINK_STATUS Fd.HST_LINK_STATUS_FLIT = decide (rate.val = 6) ∧ RegsBut [Reg.HST_LINK_STATUS] s t ∧ t = { s with regs := t.regs })))

/-- IDE streams (R405): inside a session a key is programmed for a set and direction, a programmed set goes into use, both directions of one set make the stream Secure, a stopped set takes its key with it, and an integrity failure leaves an Insecure stream without keys. The layout of the answers is the model's (log entry 103). -/
def Obligations.IdeStreams : Prop :=
  ∀ (s : State) (st : Fin 4) (set : Fin 2) (rx : Bool) (key : BitVec 256), let k := 2 * set.val + b2n rx
    let x := ideOf s st.val
    let but := fun (t : State) => ∀ n, n ≠ st.val → ideOf t n = ideOf s n
    let ack := fun (obj : Nat) (t : State) => t.out = .doe [BitVec.ofNat 8 obj, BitVec.ofNat 8 st.val, BitVec.ofNat 8 k, 0] :: s.out ∧ t = { s with out := t.out, host := { s.host with ide := t.host.ide } }
    (∀ c ∈ [Instr.query st, .keyProg st set rx key, .kSetGo st set rx, .kSetStop st set rx], s.live = false ∨ secured s = false → Idles c s) ∧
    (s.live = true → secured s = true →
      Completes (.query st) s (fun t => ∃ v, t = s.emit (.doe [1, BitVec.ofNat 8 st.val, BitVec.ofNat 8 (b2n x.secure), v]) ∧ (x.go = [] → v = 0)) ∧
      Completes (.keyProg st set rx key) s (fun t => tfind (ideOf t st.val).keys k = some key ∧ (∀ j, j ≠ k → tfind (ideOf t st.val).keys j = tfind x.keys j) ∧ (ideOf t st.val).go = x.go ∧
        (ideOf t st.val).secure = x.secure ∧ but t ∧ ack 3 t) ∧
      (tfind x.keys k = none → Idles (.kSetGo st set rx) s) ∧
      (tfind x.keys k ≠ none → Completes (.kSetGo st set rx) s (fun t => (∀ j, (ideOf t st.val).go.contains j = (j == k || x.go.contains j)) ∧ (ideOf t st.val).keys = x.keys ∧
        (ideOf t st.val).secure = (x.secure || x.go.contains (2 * set.val + b2n (!rx)) || ((x.go.contains 0 && x.go.contains 1) || (x.go.contains 2 && x.go.contains 3))) ∧ but t ∧ ack 6 t)) ∧
      (x.go.Nodup → Completes (.kSetStop st set rx) s (fun t => (∀ j, (ideOf t st.val).go.contains j = (j != k && x.go.contains j)) ∧ tfind (ideOf t st.val).keys k = none ∧
        (∀ j, j ≠ k → tfind (ideOf t st.val).keys j = tfind x.keys j) ∧ (x.go.contains (2 * (1 - set.val)) = false → (ideOf t st.val).secure = false) ∧ but t ∧ ack 6 t))) ∧
    (s.live = false ∨ x.secure = false → Idles (.ideFail st) s) ∧
    (s.live = true → x.secure = true → losesEvidence Ev.IDE_FAIL s = false → Completes (.ideFail st) s (fun t => ∃ u, Counted Reg.HST_CNT_IDE_FAIL 1 { s with host := { s.host with ide := t.host.ide } } u ∧
      Raised Ev.IDE_FAIL [0, 0, 0, st.val] u t ∧ (ideOf t st.val).secure = false ∧ (ideOf t st.val).keys = [] ∧ (ideOf t st.val).go = [] ∧ but t))

/-- SPDM (R407): what each request leaves and answers: the version, capabilities and algorithms agreed, digests, certificate parts, signed answers, the start, proof and end of a session; a request too early is unexpected, and without the identity key those that need it are not supported. The DMTF codes, the transcript's form and the key schedule are the model's (log entry 104). -/
def Obligations.SpdmRequests : Prop :=
  ∀ (s : State),
    (∀ c, spdmCmd c = true → s.live = false → Idles c s) ∧
    (s.live = true →
      (∀ c, spdmCmd c = true → needsKey c = true → s.vault.identity = false → Completes c s (SpdmErr 7 s)) ∧
      Completes .getVersion s (fun t => t.host = { s.host with spdmVersion := 0x10, spdmState := 1, spdmAlg := 0, transcript := t.host.transcript } ∧
        Said [0x10, 0x84, 0, 0] [0x10, 0x04, 0, 0, 0, 2, 0x00, 0x12, 0x00, 0x13] { s with host := { s.host with transcript := [] } } t) ∧
      (∀ v : Byte, (s.host.spdmState = 0 → Completes (.getCapabilities v) s (SpdmErr 4 s)) ∧
        (1 ≤ s.host.spdmState → v ≠ 0x12 → v ≠ 0x13 → Completes (.getCapabilities v) s (SpdmErr 0x41 s)) ∧
        (1 ≤ s.host.spdmState → v = 0x12 ∨ v = 0x13 → Completes (.getCapabilities v) s (fun t => t.host = { s.host with spdmVersion := v.toNat, spdmState := 2, transcript := t.host.transcript } ∧
          Said [v, 0xE1, 0, 0] ([v, 0x61, 0, 0] ++ zeros 4 ++ natLe 4 spdmCaps) s t))) ∧
      (∀ a b c d : Bool, (s.host.spdmState < 2 → Completes (.negotiateAlgorithms a b c d) s (SpdmErr 4 s)) ∧
        (2 ≤ s.host.spdmState → Completes (.negotiateAlgorithms a b c d) s (fun t => t.host = { s.host with spdmState := 3, spdmAlg := b2n a + 2 * b2n b + 4 * b2n c + 8 * b2n d, transcript := t.host.transcript } ∧
          ∃ req rsp, Said req rsp s t))) ∧
      ((s.host.spdmState < 3 → Completes .getDigests s (SpdmErr 4 s)) ∧
        (3 ≤ s.host.spdmState → Completes .getDigests s (fun t => Said (spdmHead s 0x81 0 0) (spdmHead s 0x01 0 1 ++ sha384 Config.certChain) s t ∧ t.host = { s.host with transcript := t.host.transcript }))) ∧
      (∀ (slot : Byte) (off len : Nat), (s.host.spdmState < 3 → Completes (.getCertificate slot off len) s (SpdmErr 4 s)) ∧
        (3 ≤ s.host.spdmState → slot ≠ 0 ∨ Config.certChain.length ≤ off → Completes (.getCertificate slot off len) s (SpdmErr 1 s)) ∧
        (3 ≤ s.host.spdmState → slot = 0 → off < Config.certChain.length → Completes (.getCertificate slot off len) s (fun t => ∃ req head, head.length = 8 ∧
          Said req (head ++ (Config.certChain.drop off).take len) s t ∧ t.host = { s.host with transcript := t.host.transcript }))) ∧
      (∀ (slot : Byte) (nonce : BitVec 256), s.vault.identity = true → (s.host.spdmState < 3 → Completes (.challenge slot nonce) s (SpdmErr 4 s)) ∧
        (3 ≤ s.host.spdmState → slot ≠ 0 ∨ agreed s 3 = false → Completes (.challenge slot nonce) s (SpdmErr 1 s)) ∧
        (3 ≤ s.host.spdmState → slot = 0 → agreed s 3 = true → Completes (.challenge slot nonce) s (fun t => ∃ req body n, n = natBe 32 (s.draw.setWidth 256).toNat ∧
          body = spdmHead s 0x03 0 1 ++ sha384 Config.certChain ++ n ++ [0, 0] ∧ Said req (body ++ Config.identitySign (s.host.transcript ++ req ++ body)) s.drew t ∧
          t.host = { s.host with transcript := t.host.transcript }))) ∧
      (∀ (i : Byte) (signed : Bool) (nonce : BitVec 256), signed = false ∨ s.vault.identity = true → (s.host.spdmState < 3 → Completes (.getMeasurements i signed nonce) s (SpdmErr 4 s)) ∧
        (3 ≤ s.host.spdmState → (8 < i.toNat ∧ i ≠ 0xFF) ∨ (signed = true ∧ agreed s 3 = false) → Completes (.getMeasurements i signed nonce) s (SpdmErr 1 s)) ∧
        (3 ≤ s.host.spdmState → i.toNat ≤ 8 ∨ i = 0xFF → signed = false ∨ agreed s 3 = true → Completes (.getMeasurements i signed nonce) s (fun t => ∃ req body,
          (i ≠ 0 → i ≠ 0xFF → ∃ rest, body = spdmHead s 0x60 0 0 ++ natBe 1 1 ++ natLe 3 55 ++ measBlock s i.toNat ++ rest) ∧
          Said req (body ++ if signed then Config.identitySign (s.host.transcript ++ req ++ body) else []) s.drew t ∧ t.host = { s.host with transcript := t.host.transcript }))) ∧
      (∀ (id : BitVec 16) (exch : Bytes) (psk both : Bool), s.vault.identity = true →
        (psk = true ∨ both = true → Completes (.keyExchange id exch psk both) s (SpdmErr 7 s)) ∧
        (psk = false → both = false → s.host.spdmState < 3 → Completes (.keyExchange id exch psk both) s (SpdmErr 4 s)) ∧
        (psk = false → both = false → 3 ≤ s.host.spdmState → exch.length ≠ 96 ∨ agreed s 15 = false → Completes (.keyExchange id exch psk both) s (SpdmErr 1 s)) ∧
        (psk = false → both = false → 3 ≤ s.host.spdmState → exch.length = 96 → agreed s 15 = true → Completes (.keyExchange id exch psk both) s (fun t => ∃ y, y.id % 2 ^ 16 = id.toNat ∧ y.established = false ∧
          y.secret = Config.ecdhShared s.draw exch ∧ y.hash = t.host.transcript ∧ t.host = { s.host with transcript := t.host.transcript, sessions := s.host.sessions.filter (fun z => z.id != y.id) ++ [y] } ∧
          ∃ req rsp, Said req rsp { s with draws := s.draws + 3 } { t with host := { t.host with sessions := s.host.sessions } }))) ∧
      (∀ (id : W32), s.vault.identity = true →
        (sessionOf s id.toNat = none → (∀ mac, Completes (.finish id mac) s (SpdmErr 4 s)) ∧ Completes (.spdmHeartbeat id) s (SpdmErr 4 s) ∧ (∀ op, Completes (.keyUpdate id op) s (SpdmErr 4 s)) ∧
          Completes (.endSession id) s (SpdmErr 4 s)) ∧
        (∀ x, sessionOf s id.toNat = some x → x.established = false →
          Completes (.spdmHeartbeat id) s (SpdmErr 4 s) ∧ (∀ op, Completes (.keyUpdate id op) s (SpdmErr 4 s)) ∧ Completes (.endSession id) s (SpdmErr 4 s) ∧
          (∀ mac, mac ≠ Config.spdmMac true x.secret x.hash → Completes (.finish id mac) s (fun t => sessionOf t id.toNat = none ∧ (∀ j, j ≠ id.toNat → sessionOf t j = sessionOf s j) ∧
            SpdmErr 6 { s with host := { s.host with sessions := t.host.sessions } } t)) ∧
          (∀ mac, mac = Config.spdmMac true x.secret x.hash → Completes (.finish id mac) s (fun t => sessionOf t id.toNat = some { x with established := true } ∧ (∀ j, j ≠ id.toNat → sessionOf t j = sessionOf s j) ∧
            ∃ u req rsp, Said req rsp { s with host := { s.host with sessions := t.host.sessions } } u ∧ Raised Ev.SPDM_SESSION [id.toNat, 1] u t))) ∧
        (∀ x, sessionOf s id.toNat = some x → x.established = true →
          (∀ mac, Completes (.finish id mac) s (SpdmErr 4 s)) ∧
          exec (.spdmHeartbeat id) s = .next (s.emit (.doe (spdmHead s 0x68 0 0))) ∧
          (∀ op : Byte, op = 0 ∨ 3 < op.toNat → Completes (.keyUpdate id op) s (SpdmErr 1 s)) ∧
          (∀ op : Byte, op ≠ 0 → op.toNat ≤ 3 → Completes (.keyUpdate id op) s (fun t => sessionOf t id.toNat = some (if op = 3 then x else { x with gen := x.gen + 1 }) ∧
            (∀ j, j ≠ id.toNat → sessionOf t j = sessionOf s j) ∧ t.out = .doe (spdmHead s 0x69 op.toNat 0) :: s.out ∧ t = { s with out := t.out, host := { s.host with sessions := t.host.sessions } })) ∧
          Completes (.endSession id) s (fun t => sessionOf t id.toNat = none ∧ (∀ j, j ≠ id.toNat → sessionOf t j = sessionOf s j) ∧
            Raised Ev.SPDM_SESSION [id.toNat, 0] { s with host := { s.host with sessions := t.host.sessions }, out := .doe (spdmHead s 0x6C 0 0) :: s.out } t))))

/-! ## Board management (chapters 15, 16 and 18) -/

/-- Reads that clear (R9, R169, R353, R356, R439): a permitted read of the PF answers the word and then puts the register's RC field back: LOW_WATER to the tags free now, a maximum to 0, or a rail's or sensor's marks to its present reading; no other register changes. A read without permission is a violation. DIN and telemetry (R439, R474): a pin's accepted level and its CHANGED bit; every reading of a telemetry pass, with the least and the greatest since they were last read, the powers of the domains, and whether VBAT lies above 2.40 V. -/
def Obligations.BoardReads : Prop :=
  (∀ (s : State), let may := fun (off : Nat) => ideOk s true && permits s (0x30 + off / 0x100000) 0 0
      let shown := fun (off : Nat) (t : State) => t.out = .read 0 (natLe 8 (readReg s off).toNat) false :: s.out ∧ RegsBut [off] s t ∧ t = { s with regs := t.regs, out := t.out }
      (s.live = false → Idles .lowWaterRead s ∧ (∀ q, Idles (.qsampleMaxRead q) s) ∧ (∀ x, Idles (.mergeDiffMaxRead x) s) ∧ ∀ b k, Idles (.railTempMaxRead b k) s) ∧
      (∀ k : Fin 17, 9 ≤ k.val → Idles (.railTempMaxRead false k) s) ∧
      (s.live = true →
        (may Reg.GAL_TAGS = true → Completes .lowWaterRead s (fun t => shown Reg.GAL_TAGS t ∧ t.fld Reg.GAL_TAGS Fd.GAL_TAGS_LOW_WATER = tagsFree s % 2 ^ 17)) ∧
        (∀ q : Fin 1024, may (Reg.TIM_QSAMPLE_MAX q.val) = true → Completes (.qsampleMaxRead q) s (fun t => shown (Reg.TIM_QSAMPLE_MAX q.val) t ∧ t.reg (Reg.TIM_QSAMPLE_MAX q.val) = 0)) ∧
        (∀ x : Fin 64, may (Reg.TIM_MERGE_DIFF x.val) = true → Completes (.mergeDiffMaxRead x) s (fun t => shown (Reg.TIM_MERGE_DIFF x.val) t ∧
          t.fld (Reg.TIM_MERGE_DIFF x.val) Fd.TIM_MERGE_DIFF_MAX = 0 ∧ nbits (t.reg (Reg.TIM_MERGE_DIFF x.val)).toNat 0 32 = nbits (s.reg (Reg.TIM_MERGE_DIFF x.val)).toNat 0 32)) ∧
        (∀ r : Fin 17, r.val < 9 → may (Reg.TMP_RAIL r.val) = true → Completes (.railTempMaxRead false r) s (fun t => shown (Reg.TMP_RAIL r.val) t ∧ let v := s.fld (Reg.TMP_RAIL r.val) Fd.TMP_RAIL_MV
          t.fld (Reg.TMP_RAIL r.val) Fd.TMP_RAIL_MV = v ∧ t.fld (Reg.TMP_RAIL r.val) Fd.TMP_RAIL_MIN_MV = v ∧ t.fld (Reg.TMP_RAIL r.val) Fd.TMP_RAIL_MAX_MV = v)) ∧
        (∀ k : Fin 17, may (Reg.TMP_TEMP k.val) = true → Completes (.railTempMaxRead true k) s (fun t => shown (Reg.TMP_TEMP k.val) t ∧ let v := s.fld (Reg.TMP_TEMP k.val) Fd.TMP_TEMP_TEMP
          t.fld (Reg.TMP_TEMP k.val) Fd.TMP_TEMP_TEMP = v ∧ t.fld (Reg.TMP_TEMP k.val) Fd.TMP_TEMP_MAX = v)) ∧
        (losesEvidence Ev.ACCESS_VIOLATION s = false →
          (∀ off c, (c = .lowWaterRead ∧ off = Reg.GAL_TAGS ∨ (∃ q : Fin 1024, c = .qsampleMaxRead q ∧ off = Reg.TIM_QSAMPLE_MAX q.val) ∨ ∃ x : Fin 64, c = .mergeDiffMaxRead x ∧ off = Reg.TIM_MERGE_DIFF x.val) → may off = false →
            Completes c s (fun t => ∃ v, Violated 0 (0x30 + off / 0x100000) off s v ∧ t = v.emit (.read 0 (deadBytes 8) true)))))) ∧
  (∀ (s : State),
      (∀ (pin : Fin 8) (high : Bool), let v := s.fld Reg.PWR_DIN Fd.PWR_DIN_LEVEL
        (s.live = false ∨ nbit v pin.val = high → Idles (.dinChange pin high) s) ∧
        (s.live = true → nbit v pin.val ≠ high → Completes (.dinChange pin high) s (fun t =>
          (∀ j, j < 8 → nbit (t.fld Reg.PWR_DIN Fd.PWR_DIN_LEVEL) j = if j = pin.val then high else nbit v j) ∧
          (∀ j, j < 8 → nbit (t.fld Reg.PWR_DIN Fd.PWR_DIN_CHANGED) j = (j == pin.val || nbit (s.fld Reg.PWR_DIN Fd.PWR_DIN_CHANGED) j)) ∧
          RegsBut [Reg.PWR_DIN] s t ∧ t = { s with regs := t.regs }))) ∧
      (∀ (m : Telemetry), let first := s.host.measuredAt = none
        (s.live = false ∨ (∃ x, s.host.measuredAt = some x ∧ s.time.up < x + 1000000) → Idles (.telemetryUpdate m) s) ∧
        (s.live = true → (∀ x, s.host.measuredAt = some x → x + 1000000 ≤ s.time.up) → Completes (.telemetryUpdate m) s (fun t =>
          (∀ r, r < 9 → (m.mv[r]? = none → t.reg (Reg.TMP_RAIL r) = s.reg (Reg.TMP_RAIL r)) ∧
            (∀ v, m.mv[r]? = some v → t.fld (Reg.TMP_RAIL r) Fd.TMP_RAIL_MV = v.toNat ∧
              (first → t.fld (Reg.TMP_RAIL r) Fd.TMP_RAIL_MIN_MV = v.toNat ∧ t.fld (Reg.TMP_RAIL r) Fd.TMP_RAIL_MAX_MV = v.toNat) ∧
              (¬first → t.fld (Reg.TMP_RAIL r) Fd.TMP_RAIL_MIN_MV = min v.toNat (s.fld (Reg.TMP_RAIL r) Fd.TMP_RAIL_MIN_MV) ∧
                t.fld (Reg.TMP_RAIL r) Fd.TMP_RAIL_MAX_MV = max v.toNat (s.fld (Reg.TMP_RAIL r) Fd.TMP_RAIL_MAX_MV)))) ∧
          (∀ k, k < 17 → (m.temp[k]? = none → t.reg (Reg.TMP_TEMP k) = s.reg (Reg.TMP_TEMP k)) ∧
            (∀ v, m.temp[k]? = some v → t.fld (Reg.TMP_TEMP k) Fd.TMP_TEMP_TEMP = v.toNat ∧ (first → t.fld (Reg.TMP_TEMP k) Fd.TMP_TEMP_MAX = v.toNat) ∧
              (¬first → signed 16 (t.fld (Reg.TMP_TEMP k) Fd.TMP_TEMP_MAX) = max (signed 16 v.toNat) (signed 16 (s.fld (Reg.TMP_TEMP k) Fd.TMP_TEMP_MAX))))) ∧
          (∀ d, d < 80 → (m.mw[d]? = none → t.reg (Reg.PWR_DOM d) = s.reg (Reg.PWR_DOM d)) ∧ (∀ v, m.mw[d]? = some v → t.fld (Reg.PWR_DOM d) Fd.PWR_DOM_MW = v.toNat ∧
            t.fld (Reg.PWR_DOM d) Fd.PWR_DOM_STATE = s.fld (Reg.PWR_DOM d) Fd.PWR_DOM_STATE)) ∧
          (∀ v, m.mv[8]? = some v → t.lamp.vbatOk = decide (2400 < v.toNat)) ∧ (m.mv[8]? = none → t.lamp.vbatOk = s.lamp.vbatOk) ∧
          (∀ off, (∀ r, r < 9 → off ≠ Reg.TMP_RAIL r) → (∀ k, k < 17 → off ≠ Reg.TMP_TEMP k) → (∀ d, d < 80 → off ≠ Reg.PWR_DOM d) → t.reg off = s.reg off) ∧
          t = { s with regs := t.regs, lamp := { s.lamp with vbatOk := t.lamp.vbatOk }, host := { s.host with measuredAt := some s.time.up } }))))

/-- The management port and the test port (R412, R475): dynamic addresses are given, changed and taken back, directed codes answer, the pointer moves and a read answers the bytes it names; an instruction of the test port is honoured in Blank and in Test mode and is BYPASS with monitor 0x15 elsewhere. Which codes need a dynamic address is the model's (log entry 106). -/
def Obligations.ManagementPorts : Prop :=
  ∀ (s : State), let has := s.host.i3cDyn.isSome
    let dyn := fun (a : Option Nat) (t : State) => t = { s with host := { s.host with i3cDyn := a } }
    (s.live = false → ∀ (a b : BitVec 7) (d : Bytes) (n : Nat), ∀ c ∈ [Instr.setdasa a b, .entdaa b, .setnewda b, .rstdaa, .getpid, .getbcr, .getdcr, .getstatus, .getmrl, .i3cPrivateWrite d, .i3cPrivateRead n], Idles c s) ∧
    (has = false → ∀ b, ∀ c ∈ [Instr.setnewda b, .getpid, .getbcr, .getdcr, .getstatus, .getmrl], Idles c s) ∧
    (∀ a b : BitVec 7, has = true ∨ a.toNat ≠ 0x52 + s.position → Idles (.setdasa a b) s) ∧ (∀ b, has = true → Idles (.entdaa b) s) ∧
    (s.live = true →
      (∀ a b : BitVec 7, has = false → a.toNat = 0x52 + s.position → Completes (.setdasa a b) s (dyn (some b.toNat))) ∧
      (∀ b, has = false → Completes (.entdaa b) s (fun t => ∃ d : Bytes, d.length = 8 ∧ t.out = .i3c d :: s.out ∧ t = { s with out := t.out, host := { s.host with i3cDyn := some b.toNat } })) ∧
      (∀ b, has = true → Completes (.setnewda b) s (dyn (some b.toNat))) ∧ Completes .rstdaa s (dyn none) ∧
      (has = true → exec .getpid s = .next (s.emit (.i3c (natBe 6 Config.i3cPid))) ∧ exec .getbcr s = .next (s.emit (.i3c [0])) ∧ exec .getdcr s = .next (s.emit (.i3c [Config.i3cDcr])) ∧
        exec .getmrl s = .next (s.emit (.i3c [0, 64])) ∧ Completes .getstatus s (fun t => ∃ d : Bytes, d.length = 2 ∧ t = { s.emit (.i3c d) with draws := s.draws + 1 })) ∧
      (∀ d : Bytes, (d.length = 4 → beNat d % 8 = 0 → beNat d < 0x1000000 → exec (.i3cPrivateWrite d) s = .next { s with host := { s.host with i3cPtr := beNat d } }) ∧
        (d.length ≠ 4 ∨ beNat d % 8 ≠ 0 ∨ 0x1000000 ≤ beNat d → Idles (.i3cPrivateWrite d) s)) ∧
      Idles (.i3cPrivateRead 0) s ∧
      (∀ len n, 0 < len → n = min len 64 → let at_ := fun (i : Nat) => (s.host.i3cPtr + i) % 0x1000000
        ((∀ i, i < n → i3cMay s (at_ i) = true) → Completes (.i3cPrivateRead len) s (fun t => ∃ d : Bytes, t.out = .i3c d :: s.out ∧ d.length = n ∧
          (∀ i, i < n → d[i]? = some (BitVec.ofNat 8 ((readReg s (at_ i / 8 * 8)).toNat / 256 ^ (at_ i % 8)))) ∧ t.host = { s.host with i3cPtr := at_ n } ∧
          t = { s with regs := t.regs, out := t.out, host := t.host })) ∧
        (i3cMay s (at_ 0) = false → losesEvidence Ev.ACCESS_VIOLATION s = false → Completes (.i3cPrivateRead len) s (fun t => ∃ d u, d[0]? = some (if at_ 0 % 2 = 0 then 0xAD else 0xDE) ∧
          u.out = .i3c d :: s.out ∧ u = { s with regs := u.regs, out := u.out } ∧ Raised Ev.ACCESS_VIOLATION [mI3c, 0x30 + at_ 0 / 0x100000, at_ 0] u { t with host := u.host } ∧
          t.host = { s.host with i3cPtr := at_ n })))) ∧
    (s.mainOn = false → ∀ ir, Idles .idcode s ∧ Idles .bypass s ∧ Idles (.tapInstruction ir) s) ∧
    (s.mainOn = true → exec .idcode s = .next { s with out := .tap 0x13208B3F :: s.out, host := { s.host with tapIr := 0x100 } } ∧
      exec .bypass s = .next { s with out := .tap 0 :: s.out, host := { s.host with tapIr := 0xFF } } ∧
      (∀ ir : Byte, (ir = 0xFF → exec (.tapInstruction ir) s = exec .bypass s) ∧
        (ir ≠ 0xFF → s.attic.lifecycle = 0 ∨ s.mode = 1 → exec (.tapInstruction ir) s = .next { s with host := { s.host with tapIr := ir.toNat } }) ∧
        (ir ≠ 0xFF → s.attic.lifecycle ≠ 0 → s.mode ≠ 1 → s.live = true → exec (.tapInstruction ir) s = .next (trigger 0x15 [ir.toNat] { s with out := .tap 0 :: s.out, host := { s.host with tapIr := 0xFF } })) ∧
        (ir ≠ 0xFF → s.attic.lifecycle ≠ 0 → s.mode ≠ 1 → s.live = true → effective s 0x15 ≤ 1 → takes (monCode 0x15) s = true →
          Completes (.tapInstruction ir) s (Warned 0x15 [ir.toNat] { s with out := .tap 0 :: s.out, host := { s.host with tapIr := 0xFF } }))))

/-! ## The tally and the sealed part (chapters 16 and 17) -/

/-- Counters and the tally (R312, R431, R434, R435): a counter wraps at 2^40, and at half its range sets its HALF_PENDING bit and the PF's vector 3; a record of a code without a token is only counted; one that is written takes a token, the next SEQ and the number suppressed; a full ring loses its oldest record of that severity or below, or the new one. -/
def Obligations.TallyRules : Prop :=
  ∀ (s : State),
    (∀ off n, off ≠ halfWord off → Counted off n s (bump off n s) ∧
      (crossedHalf (s.reg off).toNat n = true → nbit ((bump off n s).reg (halfWord off)).toNat (off % 0x100000 / 8 % 64) = true ∧ nbit ((bump off n s).pg 0 pgCause).toNat 3 = true) ∧
      (crossedHalf (s.reg off).toNat n = false → RegsBut [off] s (bump off n s) ∧ (bump off n s).page = s.page ∧ (bump off n s).out = s.out)) ∧
    (∀ code level vals, exempt code = false → tokens s code = 0 → let t := event0 code level vals s
      t.attic = s.attic ∧ tokens t code = 0 ∧ tget nat0 t.guard.suppressed code = min (tget nat0 s.guard.suppressed code + 1) 0xFFFF ∧
      (∀ k, k ≠ code → tget nat0 t.guard.suppressed k = tget nat0 s.guard.suppressed k) ∧
      t.reg Reg.TLY_CNT_SUPPRESSED = BitVec.ofNat 64 (count40 (s.reg Reg.TLY_CNT_SUPPRESSED).toNat 1) ∧ Logged s t) ∧
    (∀ code level vals, takes code s = true → let t := event0 code level vals s
      Logged s t ∧ (∃ r, (if (evInfo code).2 then s.attic.evid ++ [r] <+: t.attic.evid else s.attic.ring ++ [r] <+: t.attic.ring) ∧ r.code = code ∧ r.level = level ∧ r.seq = s.attic.nextSeq ∧
        r.data = evData vals ∧ r.time = s.time.now ∧ r.suppressed = tget nat0 s.guard.suppressed code ∧ r.sev = (evInfo code).1 ∧ r.evid = (evInfo code).2 ∧ r.valid = true) ∧
      s.attic.nextSeq < t.attic.nextSeq ∧ tget nat0 t.guard.suppressed code = 0 ∧ tokens t code = tokens s code - (if exempt code then 0 else 1) ∧ (∀ k, k ≠ code → tokens t k = tokens s k)) ∧
    (∀ code vals, losesEvidence code s = true → event code vals s = trigger0 0x14 [s.attic.evidLost + 1] (event0 code 0 vals s) ∧ (event0 code 0 vals s).attic.evid = s.attic.evid ∧
      (event0 code 0 vals s).attic.evidLost = min (s.attic.evidLost + 1) (2 ^ 32 - 1)) ∧
    monCode 0x14 = Ev.EVIDENCE_LOST ∧ evInfo Ev.EVIDENCE_LOST = (4, false) ∧
    (∀ r, atticRO s 1 = false → s.attic.ring.length < 65536 → (ringAppend r s).attic.ring = s.attic.ring ++ [{ r with slot := s.attic.ring.length }]) ∧
    (∀ r, atticRO s 1 = false → s.attic.ring.length = 65536 →
      (∀ a o b, s.attic.ring = a ++ o :: b → (∀ x ∈ a, r.sev < x.sev) → o.sev ≤ r.sev → (ringAppend r s).attic.ring = a ++ b ++ [{ r with slot := o.slot }] ∧
        (ringAppend r s).reg Reg.TLY_CNT_APPENDED = BitVec.ofNat 64 (count40 (s.reg Reg.TLY_CNT_APPENDED).toNat 1)) ∧
      ((∀ x ∈ s.attic.ring, r.sev < x.sev) → (ringAppend r s).attic = s.attic ∧
        (ringAppend r s).reg Reg.TLY_CNT_RING_DISCARD = BitVec.ofNat 64 (count40 (s.reg Reg.TLY_CNT_RING_DISCARD).toNat 1)))

/-- Sealed (R426, R441, R454, R467): whatever command comes while main supplies are off, the step leaves the part off and changes nothing but the queue, the lamp room and the hold of a sequencing fault, unless the command is the end of a power-on reset. -/
def Obligations.SealedHolds : Prop :=
  ∀ (s t : State), s.mainOn = false → step s = .next t →
    (∃ st rest, s.pending = .powerOnReset st :: rest) ∨ (t.mainOn = false ∧ t = { s with pending := s.pending.tail, held := t.held, lamp := t.lamp })
end

