-- ==== Sys2Proof/Laws/Cipher.lean ====
section
/-! SUPPORT. AES decryption undoes encryption, and key unwrap undoes key wrap. -/
namespace Sys2Proof.Machine

/-! Bytes -/

theorem xorB_length (a b : Bytes) : (xorB a b).length = min a.length b.length := by simp [xorB]

/-- Exclusive or with the same bytes twice. -/
theorem xorB_xorB (a k : Bytes) (h : a.length = k.length) : xorB (xorB a k) k = a := by
  induction a generalizing k with
  | nil => rfl
  | cons x t ih =>
    cases k with
    | nil => cases h
    | cons y u =>
      simp only [xorB, List.zipWith_cons_cons, BitVec.xor_assoc, BitVec.xor_self, BitVec.xor_zero, List.cons.injEq, true_and] at *
      exact ih u (by simpa using h)

theorem natLe_length (k n : Nat) : (natLe k n).length = k := by
  induction k generalizing n with
  | zero => rfl
  | succ k ih => rw [natLe, List.length_cons, ih]
theorem natBe_length (k n : Nat) : (natBe k n).length = k := by rw [natBe, List.length_reverse, natLe_length]

theorem leNat_natLe (k n : Nat) : leNat (natLe k n) = n % 256 ^ k := by
  induction k generalizing n with
  | zero => simp [natLe, leNat, Nat.mod_one]
  | succ k ih =>
    have e : (BitVec.ofNat 8 n).toNat = n % 256 := by simp
    rw [natLe, leNat, ih, e, pow_succ', Nat.mod_mul]

theorem beNat_append (a b : Bytes) : beNat (a ++ b) = beNat a * 256 ^ b.length + beNat b := by
  induction a with
  | nil => simp [beNat]
  | cons x t ih => rw [List.cons_append, beNat, beNat, ih, List.length_append, pow_add]; ring
theorem beNat_reverse (a : Bytes) : beNat a.reverse = leNat a := by
  induction a with
  | nil => rfl
  | cons x t ih => rw [List.reverse_cons, beNat_append, ih, leNat]; simp [beNat]; ring
/-- The number that a number's bytes spell. -/
theorem beNat_natBe (k n : Nat) : beNat (natBe k n) = n % 256 ^ k := by rw [natBe, beNat_reverse, leNat_natLe]

theorem slice_eq (b : Bytes) (off n : Nat) (h : off + n ≤ b.length) : slice b off n = (b.drop off).take n := by
  induction n generalizing off with
  | zero => rw [slice, List.take_zero]
  | succ n ih =>
    rw [slice, ih (off + 1) (by omega)]
    have : b.drop off = b[off]'(by omega) :: b.drop (off + 1) := by rw [List.drop_eq_getElem_cons]
    rw [this, List.take_succ_cons, List.getD_eq_getElem _ _ (by omega)]

theorem pieces_flatten (n : Nat) (l : List Bytes) (h : ∀ x ∈ l, x.length = n) : pieces n l.length l.flatten = l := by
  induction l with
  | nil => rfl
  | cons x t ih =>
    have hx := h x (.head _)
    rw [List.length_cons, List.flatten_cons, pieces, List.take_left' hx, List.drop_left' hx, ih (fun y hy => h y (.tail _ hy))]

theorem flatten_length (n : Nat) (l : List Bytes) (h : ∀ x ∈ l, x.length = n) : l.flatten.length = l.length * n := by
  induction l with
  | nil => simp
  | cons x t ih => rw [List.flatten_cons, List.length_append, ih (fun y hy => h y (.tail _ hy)), h x (.head _), List.length_cons]; ring

theorem pieces_all (n k : Nat) (b : Bytes) (h : k * n ≤ b.length) : ∀ x ∈ pieces n k b, x.length = n := by
  induction k generalizing b with
  | zero => intro x hx; cases hx
  | succ k ih =>
    intro x hx
    rw [Nat.succ_mul] at h
    rcases List.mem_cons.1 hx with rfl | hx
    · rw [List.length_take]; omega
    · exact ih (b.drop n) (by rw [List.length_drop]; omega) x hx
theorem pieces_length (n k : Nat) (b : Bytes) : (pieces n k b).length = k := by
  induction k generalizing b with
  | zero => rfl
  | succ k ih => rw [pieces, List.length_cons, ih]
theorem pieces_join (n k : Nat) (b : Bytes) (h : b.length = k * n) : (pieces n k b).flatten = b := by
  induction k generalizing b with
  | zero => rw [Nat.zero_mul] at h; rw [pieces, List.flatten_nil, List.eq_nil_of_length_eq_zero h]
  | succ k ih => rw [pieces, List.flatten_cons, ih (b.drop n) (by rw [List.length_drop, h, Nat.succ_mul]; omega), List.take_append_drop]

/-! One round -/

theorem invSboxAt_sboxAt (b : Byte) : invSboxAt (sboxAt b) = b := by
  have h : ∀ n, n < 256 → invSboxAt (sboxAt (BitVec.ofNat 8 n)) = BitVec.ofNat 8 n := by decide +kernel
  have := h b.toNat b.isLt
  rwa [BitVec.ofNat_toNat, BitVec.setWidth_eq] at this

theorem map_sub (s : Bytes) : (s.map sboxAt).map invSboxAt = s := by
  rw [List.map_map]
  have : (invSboxAt ∘ sboxAt) = id := by funext b; exact invSboxAt_sboxAt b
  rw [this, List.map_id]

theorem invShiftRows_shiftRows (s : Bytes) (h : s.length = 16) : invShiftRows (shiftRows s) = s := by
  match s, h with
  | [_, _, _, _, _, _, _, _, _, _, _, _, _, _, _, _], _ => rfl

theorem xtime_eq (b : Byte) : xtime b = (b <<< 1) ^^^ (if b.msb then 0x1B else 0) := by
  unfold xtime
  have : b.msb = decide (128 ≤ b.toNat) := by rw [BitVec.msb_eq_decide]
  rw [this]
  by_cases h : b.toNat < 128
  · rw [if_pos h, if_neg (by simpa using h)]; simp
  · rw [if_neg h, if_pos (by simpa using h)]
theorem xor_swap (a b c : Byte) : a ^^^ (b ^^^ c) = b ^^^ (a ^^^ c) := by rw [← BitVec.xor_assoc, BitVec.xor_comm a b, BitVec.xor_assoc]
theorem xtime_xor (a b : Byte) : xtime (a ^^^ b) = xtime a ^^^ xtime b := by
  rw [xtime_eq, xtime_eq, xtime_eq, BitVec.shiftLeft_xor_distrib, BitVec.msb_xor]
  cases a.msb <;> cases b.msb <;> simp [BitVec.xor_assoc, BitVec.xor_comm, xor_swap]

theorem xor_cancel (a b : Byte) : a ^^^ (a ^^^ b) = b := by rw [← BitVec.xor_assoc, BitVec.xor_self, BitVec.zero_xor]

/-- A column mixed and mixed back. -/
theorem mix_back (a b c d : Byte) :
    gmul (gmul a 2 ^^^ gmul b 3 ^^^ gmul c 1 ^^^ gmul d 1) 14 ^^^ gmul (gmul b 2 ^^^ gmul c 3 ^^^ gmul d 1 ^^^ gmul a 1) 11 ^^^
      gmul (gmul c 2 ^^^ gmul d 3 ^^^ gmul a 1 ^^^ gmul b 1) 13 ^^^ gmul (gmul d 2 ^^^ gmul a 3 ^^^ gmul b 1 ^^^ gmul c 1) 9 = a := by
  simp only [gmul, xtime_xor]
  generalize xtime (xtime (xtime (xtime a))) = a4
  generalize xtime (xtime (xtime (xtime b))) = b4
  generalize xtime (xtime (xtime (xtime c))) = c4
  generalize xtime (xtime (xtime (xtime d))) = d4
  generalize xtime (xtime (xtime a)) = a3
  generalize xtime (xtime (xtime b)) = b3
  generalize xtime (xtime (xtime c)) = c3
  generalize xtime (xtime (xtime d)) = d3
  generalize xtime (xtime a) = a2
  generalize xtime (xtime b) = b2
  generalize xtime (xtime c) = c2
  generalize xtime (xtime d) = d2
  generalize xtime a = a1
  generalize xtime b = b1
  generalize xtime c = c1
  generalize xtime d = d1
  simp only [BitVec.xor_assoc]
  simp only [BitVec.xor_comm, xor_swap, xor_cancel, BitVec.xor_self, BitVec.xor_zero]

theorem mixWith_back (s : Bytes) (h : s.length = 16) : mixWith 14 11 13 9 (mixWith 2 3 1 1 s) = s := by
  match s, h with
  | [a0, a1, a2, a3, b0, b1, b2, b3, c0, c1, c2, c3, d0, d1, d2, d3], _ =>
    have h : ∀ a b c d, ∀ x, x = gmul (gmul a 2 ^^^ gmul b 3 ^^^ gmul c 1 ^^^ gmul d 1) 14 ^^^ gmul (gmul b 2 ^^^ gmul c 3 ^^^ gmul d 1 ^^^ gmul a 1) 11 ^^^
      gmul (gmul c 2 ^^^ gmul d 3 ^^^ gmul a 1 ^^^ gmul b 1) 13 ^^^ gmul (gmul d 2 ^^^ gmul a 3 ^^^ gmul b 1 ^^^ gmul c 1) 9 → x = a :=
      fun a b c d x e => e.trans (mix_back a b c d)
    exact congrArg₂ _ (h a0 a1 a2 a3 _ rfl) (congrArg₂ _ (h a1 a2 a3 a0 _ rfl) (congrArg₂ _ (h a2 a3 a0 a1 _ rfl) (congrArg₂ _ (h a3 a0 a1 a2 _ rfl)
      (congrArg₂ _ (h b0 b1 b2 b3 _ rfl) (congrArg₂ _ (h b1 b2 b3 b0 _ rfl) (congrArg₂ _ (h b2 b3 b0 b1 _ rfl) (congrArg₂ _ (h b3 b0 b1 b2 _ rfl)
      (congrArg₂ _ (h c0 c1 c2 c3 _ rfl) (congrArg₂ _ (h c1 c2 c3 c0 _ rfl) (congrArg₂ _ (h c2 c3 c0 c1 _ rfl) (congrArg₂ _ (h c3 c0 c1 c2 _ rfl)
      (congrArg₂ _ (h d0 d1 d2 d3 _ rfl) (congrArg₂ _ (h d1 d2 d3 d0 _ rfl) (congrArg₂ _ (h d2 d3 d0 d1 _ rfl) (congrArg₂ _ (h d3 d0 d1 d2 _ rfl) rfl)))))))))))))))

/-! The block cipher -/

theorem shiftRows_length (s : Bytes) : (shiftRows s).length = 16 := by simp [shiftRows]
theorem mixWith_length (a b c d : Nat) (s : Bytes) : (mixWith a b c d s).length = 16 := by simp [mixWith]

theorem rounds_length (s : Bytes) (ks : List Bytes) (h : ks ≠ []) (hk : ∀ k ∈ ks, k.length = 16) : (rounds s ks).length = 16 := by
  induction ks generalizing s with
  | nil => exact absurd rfl h
  | cons k t ih =>
    cases t with
    | nil => rw [rounds, xorB_length, shiftRows_length, hk k (.head _)]; rfl
    | cons k2 t => rw [rounds]; exact ih _ (by simp) (fun x hx => hk x (.tail _ hx)); simp

theorem invRounds_append (z : Bytes) (l : List Bytes) (k k0 : Bytes) :
    invRounds z (l ++ [k, k0]) = invRounds (mixWith 14 11 13 9 (invRounds z (l ++ [k]))) [k0] := by
  induction l generalizing z with
  | nil => rfl
  | cons x t ih =>
    cases t with
    | nil => rfl
    | cons y t =>
      have e := ih (mixWith 14 11 13 9 (xorB ((invShiftRows z).map invSboxAt) x))
      exact e

/-- The inverse rounds undo the rounds. -/
theorem invRounds_rounds (x k0 : Bytes) (ks : List Bytes) (last : Bytes) (hx : x.length = 16) (hk : ∀ k ∈ ks ++ [last], k.length = 16) :
    invRounds (xorB (rounds x (ks ++ [last])) last) (ks.reverse ++ [k0]) = xorB x k0 := by
  induction ks generalizing x k0 with
  | nil =>
    have hl := hk last (by simp)
    rw [List.nil_append, rounds, List.reverse_nil, List.nil_append, invRounds, xorB_xorB _ _ (by rw [shiftRows_length, hl]),
      invShiftRows_shiftRows _ (by rw [List.length_map, hx]), map_sub]
  | cons k t ih =>
    have h1 := hk k (by simp)
    have e : rounds x (k :: t ++ [last]) = rounds (xorB (mixWith 2 3 1 1 (shiftRows (x.map sboxAt))) k) (t ++ [last]) := by
      cases t <;> rfl
    rw [e, List.reverse_cons, List.append_assoc, List.cons_append, List.nil_append, invRounds_append,
      ih (xorB (mixWith 2 3 1 1 (shiftRows (x.map sboxAt))) k) k (by rw [xorB_length, mixWith_length, h1]; rfl) (fun y hy => hk y (by simp at hy ⊢; tauto)),
      xorB_xorB _ _ (by rw [mixWith_length, h1]), mixWith_back _ (shiftRows_length _), invRounds, invShiftRows_shiftRows _ (by rw [List.length_map, hx]), map_sub]

/-- Round keys of 16 bytes, two or more. -/
def KeyOk (key : Bytes) : Prop := ∃ k ks last, roundKeys key = k :: (ks ++ [last]) ∧ ∀ x ∈ k :: (ks ++ [last]), x.length = 16

/-- Decryption undoes encryption. -/
theorem aesDec_aesEnc (key x : Bytes) (h : KeyOk key) (hx : x.length = 16) : aesDec key (aesEnc key x) = x := by
  obtain ⟨k, ks, last, e, hl⟩ := h
  have hk := hl k (.head _)
  unfold aesDec aesEnc
  rw [e]
  dsimp only
  rw [show (k :: (ks ++ [last])).reverse = last :: (ks.reverse ++ [k]) by simp]
  dsimp only
  rw [invRounds_rounds _ _ _ _ (by rw [xorB_length, hx, hk]; rfl) (fun y hy => hl y (.tail _ hy)), xorB_xorB _ _ (by rw [hx, hk])]

theorem aesEnc_length (key x : Bytes) (h : KeyOk key) (_ : x.length = 16) : (aesEnc key x).length = 16 := by
  obtain ⟨k, ks, last, e, hl⟩ := h
  unfold aesEnc
  rw [e]
  exact rounds_length _ _ (by simp) (fun y hy => hl y (.tail _ hy))

/-! Key expansion -/

theorem nextWord_length (nk i : Nat) (rcon : Byte) (ws : List Bytes) (hn : 0 < nk) (hw : nk ≤ ws.length) (h : ∀ w ∈ ws, w.length = 4) : (nextWord nk i rcon ws).length = 4 := by
  have h1 : (ws.headD []).length = 4 := by
    cases ws with
    | nil => simp at hw; omega
    | cons w t => exact h w (.head _)
  have h2 : (ws.getD (nk - 1) []).length = 4 := by
    rw [List.getD_eq_getElem _ _ (by omega)]; exact h _ (List.getElem_mem _)
  unfold nextWord
  dsimp only
  rw [xorB_length, h2]
  generalize ws.headD [] = w at h1 ⊢
  split
  · rw [xorB_length]; simp [h1]
  · split <;> simp [h1]

theorem expand_all (nk n i : Nat) (rcon : Byte) (ws : List Bytes) (hn : 0 < nk) (hw : nk ≤ ws.length) (h : ∀ w ∈ ws, w.length = 4) :
    (expand nk n i rcon ws).length = ws.length + n ∧ ∀ w ∈ expand nk n i rcon ws, w.length = 4 := by
  induction n generalizing i rcon ws with
  | zero => exact ⟨rfl, h⟩
  | succ n ih =>
    have hx := nextWord_length nk i rcon ws hn hw h
    have := ih (i + 1) (if i % nk = 0 then xtime rcon else rcon) (nextWord nk i rcon ws :: ws) (by rw [List.length_cons]; omega)
      (fun w hm => by rcases List.mem_cons.1 hm with rfl | hm; exact hx; exact h w hm)
    rw [List.length_cons] at this
    exact ⟨by rw [expand, this.1]; omega, this.2⟩

/-- Keys of 16 and 32 bytes. -/
theorem keyOk_of_length (key : Bytes) (h : key.length = 16 ∨ key.length = 32) : KeyOk key := by
  have h4 : key.length = key.length / 4 * 4 := by omega
  have hp := pieces_all 4 (key.length / 4) key (by omega)
  have he := expand_all (key.length / 4) (4 * (key.length / 4 + 7) - key.length / 4) (key.length / 4) 1 (pieces 4 (key.length / 4) key).reverse (by omega)
    (by rw [List.length_reverse, pieces_length]) (fun w hw => hp w (List.mem_reverse.1 hw))
  rw [List.length_reverse, pieces_length] at he
  have hf : (expand (key.length / 4) (4 * (key.length / 4 + 7) - key.length / 4) (key.length / 4) 1 (pieces 4 (key.length / 4) key).reverse).reverse.flatten.length
      = (key.length / 4 + 7) * 16 := by
    rw [flatten_length 4 _ (fun w hw => he.2 w (List.mem_reverse.1 hw)), List.length_reverse, he.1]; omega
  have hr : (roundKeys key).length = key.length / 4 + 7 := pieces_length ..
  have ha : ∀ x ∈ roundKeys key, x.length = 16 := pieces_all 16 _ _ (by rw [hf])
  match hk : roundKeys key with
  | [] => rw [hk] at hr; simp at hr
  | [_] => rw [hk] at hr; simp at hr
  | k :: k2 :: t =>
    refine ⟨k, (k2 :: t).dropLast, (k2 :: t).getLast (by simp), ?_, ?_⟩
    · rw [List.dropLast_append_getLast]; exact hk
    · rw [List.dropLast_append_getLast, ← hk]; exact ha

/-! Key wrap -/

theorem unwrapPass_append (key a : Bytes) (t : Nat) (l m : List Bytes) :
    unwrapPass key a t (l ++ m) = ((unwrapPass key (unwrapPass key a t l).1 (t - l.length) m).1, (unwrapPass key a t l).2 ++ (unwrapPass key (unwrapPass key a t l).1 (t - l.length) m).2) := by
  induction l generalizing a t with
  | nil => rfl
  | cons r rs ih =>
    rw [List.cons_append, unwrapPass, ih]
    simp only [unwrapPass, List.length_cons, Nat.sub_sub, Nat.add_comm 1, List.cons_append]

theorem wrapPass_lengths (key a : Bytes) (t : Nat) (rs : List Bytes) (hk : KeyOk key) (ha : a.length = 8) (hr : ∀ r ∈ rs, r.length = 8) :
    (wrapPass key a t rs).1.length = 8 ∧ (wrapPass key a t rs).2.length = rs.length ∧ ∀ r ∈ (wrapPass key a t rs).2, r.length = 8 := by
  induction rs generalizing a t with
  | nil => exact ⟨ha, rfl, hr⟩
  | cons r rs ih =>
    have hb : (aesEnc key (a ++ r)).length = 16 := aesEnc_length _ _ hk (by rw [List.length_append, ha, hr r (.head _)])
    have := ih (xorB ((aesEnc key (a ++ r)).take 8) (natBe 8 t)) (t + 1) (by rw [xorB_length, natBe_length, List.length_take, hb]; rfl) (fun x hx => hr x (.tail _ hx))
    refine ⟨this.1, by simp [wrapPass, this.2.1], fun x hx => ?_⟩
    rcases List.mem_cons.1 hx with rfl | hx
    · rw [List.length_drop, hb]
    · exact this.2.2 x hx

/-- One pass back. -/
theorem unwrapPass_wrapPass (key a : Bytes) (t : Nat) (rs : List Bytes) (hk : KeyOk key) (ha : a.length = 8) (hr : ∀ r ∈ rs, r.length = 8) (ht : 0 < t) :
    unwrapPass key (wrapPass key a t rs).1 (t + rs.length - 1) (wrapPass key a t rs).2.reverse = (a, rs.reverse) := by
  induction rs generalizing a t with
  | nil => rfl
  | cons r rs ih =>
    have h8 := hr r (.head _)
    have hx : (a ++ r).length = 16 := by rw [List.length_append, ha, h8]
    have hb : (aesEnc key (a ++ r)).length = 16 := aesEnc_length _ _ hk hx
    have hq : (xorB ((aesEnc key (a ++ r)).take 8) (natBe 8 t)).length = 8 := by rw [xorB_length, natBe_length, List.length_take, hb]; rfl
    have i := ih (xorB ((aesEnc key (a ++ r)).take 8) (natBe 8 t)) (t + 1) hq (fun x hx => hr x (.tail _ hx)) (by omega)
    have hl := (wrapPass_lengths key (xorB ((aesEnc key (a ++ r)).take 8) (natBe 8 t)) (t + 1) rs hk hq (fun x hx => hr x (.tail _ hx))).2.1
    rw [wrapPass]
    dsimp only
    rw [List.reverse_cons, unwrapPass_append, List.length_reverse, hl, List.length_cons, show t + (rs.length + 1) - 1 = t + 1 + rs.length - 1 by omega, i,
      show t + 1 + rs.length - 1 - rs.length = t by omega]
    dsimp only
    rw [unwrapPass]
    dsimp only
    rw [xorB_xorB _ _ (by rw [natBe_length, List.length_take, hb]; rfl), List.take_append_drop, aesDec_aesEnc _ _ hk hx, List.take_left' ha, List.drop_left' ha,
      List.reverse_cons]
    rfl

theorem unwrapPasses_succ (key : Bytes) (n k t : Nat) (a : Bytes) (rs : List Bytes) :
    unwrapPasses key n (k + 1) t a rs = unwrapPass key (unwrapPasses key n k t a rs).1 (t - k * n) (unwrapPasses key n k t a rs).2 := by
  induction k generalizing t a rs with
  | zero => simp [unwrapPasses]
  | succ k ih =>
    rw [unwrapPasses, ih, unwrapPasses, show t - (k + 1) * n = t - n - k * n by rw [Nat.succ_mul]; omega]

theorem wrapPasses_lengths (key : Bytes) (n k t : Nat) (a : Bytes) (rs : List Bytes) (hk : KeyOk key) (ha : a.length = 8) (hr : ∀ r ∈ rs, r.length = 8) :
    (wrapPasses key n k t a rs).1.length = 8 ∧ (wrapPasses key n k t a rs).2.length = rs.length ∧ ∀ r ∈ (wrapPasses key n k t a rs).2, r.length = 8 := by
  induction k generalizing t a rs with
  | zero => exact ⟨ha, rfl, hr⟩
  | succ k ih =>
    have h := wrapPass_lengths key a t rs hk ha hr
    have i := ih (t + n) (wrapPass key a t rs).1 (wrapPass key a t rs).2 h.1 h.2.2
    rw [h.2.1] at i
    exact i

theorem unwrapPasses_wrapPasses (key : Bytes) (n k t : Nat) (a : Bytes) (rs : List Bytes) (hk : KeyOk key) (ha : a.length = 8) (hr : ∀ r ∈ rs, r.length = 8)
    (hn : rs.length = n) (ht : 0 < t) : unwrapPasses key n k (t + k * n - 1) (wrapPasses key n k t a rs).1 (wrapPasses key n k t a rs).2.reverse = (a, rs.reverse) := by
  induction k generalizing t a rs with
  | zero => rfl
  | succ k ih =>
    have h := wrapPass_lengths key a t rs hk ha hr
    have i := ih (t + n) (wrapPass key a t rs).1 (wrapPass key a t rs).2 h.1 h.2.2 (by rw [h.2.1, hn]) (by omega)
    rw [wrapPasses, unwrapPasses_succ, show t + (k + 1) * n - 1 = t + n + k * n - 1 by rw [Nat.succ_mul]; omega]
    rw [i]
    have := unwrapPass_wrapPass key a t rs hk ha hr ht
    rwa [hn, show t + n - 1 = t + n + k * n - 1 - k * n by omega] at this

/-- The unwrap function undoes the wrap function. -/
theorem unwrapW_wrapW (key a : Bytes) (rs : List Bytes) (hk : KeyOk key) (ha : a.length = 8) (hr : ∀ r ∈ rs, r.length = 8) : unwrapW key (wrapW key a rs) = (a, rs.flatten) := by
  have h := wrapPasses_lengths key rs.length 6 1 a rs hk ha hr
  have hf := flatten_length 8 _ h.2.2
  have hn : (wrapW key a rs).length / 8 - 1 = rs.length := by
    unfold wrapW; dsimp only; rw [List.length_append, h.1, hf, h.2.1]; omega
  unfold unwrapW
  rw [hn]
  unfold wrapW
  dsimp only
  rw [List.take_left' h.1, List.drop_left' h.1]
  have hp := pieces_flatten 8 _ h.2.2
  rw [h.2.1] at hp
  rw [hp]
  have u := unwrapPasses_wrapPasses key rs.length 6 1 a rs hk ha hr rfl (by decide)
  rw [show 1 + 6 * rs.length - 1 = 6 * rs.length by omega] at u
  rw [u]
  dsimp only
  rw [List.reverse_reverse]

/-- A key of whole semiblocks wrapped under RFC 3394 unwraps to itself. -/
theorem keyUnwrap_keyWrap (key pt : Bytes) (hk : KeyOk key) (h : pt.length % 8 = 0) : keyUnwrap key (keyWrap key pt) = some pt := by
  unfold keyUnwrap keyWrap
  dsimp only
  rw [unwrapW_wrapW key _ _ hk (by simp) (pieces_all 8 _ _ (by omega))]
  dsimp only
  rw [if_pos rfl, pieces_join 8 _ _ (by omega)]

/-- A key of two or more whole semiblocks wrapped under RFC 5649 unwraps to itself. -/
theorem keyUnwrapPad_keyWrapPad (key pt : Bytes) (hk : KeyOk key) (h : pt.length % 8 = 0) (h2 : 16 ≤ pt.length) (h3 : pt.length < 2 ^ 32) :
    keyUnwrapPad key (keyWrapPad key pt) = some pt := by
  have hc : ceilDiv pt.length 8 = pt.length / 8 := by unfold ceilDiv; omega
  have hs : slice pt 0 (8 * (pt.length / 8)) = pt := by
    rw [slice_eq _ _ _ (by omega), List.drop_zero, List.take_of_length_le (by omega)]
  have ha : (([0xA6, 0x59, 0x59, 0xA6] : Bytes) ++ natBe 4 pt.length).length = 8 := by rw [List.length_append, natBe_length]; rfl
  have hr := pieces_all 8 (pt.length / 8) pt (by omega)
  have e : keyWrapPad key pt = wrapW key ([0xA6, 0x59, 0x59, 0xA6] ++ natBe 4 pt.length) (pieces 8 (pt.length / 8) pt) := by
    unfold keyWrapPad; dsimp only; rw [hc, if_neg (by omega), hs]
  have hl : (wrapW key ([0xA6, 0x59, 0x59, 0xA6] ++ natBe 4 pt.length) (pieces 8 (pt.length / 8) pt)).length ≠ 16 := by
    have w := wrapPasses_lengths key (pieces 8 (pt.length / 8) pt).length 6 1 _ _ hk ha hr
    unfold wrapW; dsimp only
    rw [List.length_append, w.1, flatten_length 8 _ w.2.2, w.2.1, pieces_length]; omega
  unfold keyUnwrapPad
  rw [e, if_neg hl, unwrapW_wrapW key _ _ hk ha hr, pieces_join 8 _ _ (by omega)]
  dsimp only
  have hn : beNat (([0xA6, 0x59, 0x59, 0xA6] ++ natBe 4 pt.length : Bytes).drop 4) = pt.length := by
    rw [List.drop_left' (by rfl), beNat_natBe]; omega
  rw [hn, List.take_left' (by rfl), if_pos ⟨rfl, le_refl _, by omega, by rw [List.drop_length]; rfl⟩, List.take_length]

end Sys2Proof.Machine
end

