-- ==== Sys2Proof/Laws/Table.lean ====
section
/-! SUPPORT. The laws of sparse tables: a read after a write, the untouched keys, and the canonical form that every operation keeps. -/
namespace Sys2Proof.Machine

variable {α : Type}

theorem tget_tdel_ne (d : Nat → α) (t : Table α) {k j : Nat} (h : j ≠ k) : tget d (tdel t k) j = tget d t j := by
  induction t with
  | nil => rfl
  | cons e t ih =>
    simp only [tdel]
    split
    · next hk => rw [ih, tget, if_neg (by omega)]
    · simp only [tget, ih]

theorem tget_tdel_same (d : Nat → α) (t : Table α) (k : Nat) : tget d (tdel t k) k = d k := by
  induction t with
  | nil => rfl
  | cons e t ih =>
    simp only [tdel]
    split
    · exact ih
    · next hk => rw [tget, if_neg hk, ih]

theorem tget_tins_same (d : Nat → α) (t : Table α) (k : Nat) (v : α) : tget d (tins t k v) k = v := by
  induction t with
  | nil => simp [tins, tget]
  | cons e t ih =>
    simp only [tins]
    split
    · simp [tget]
    · rw [tget, if_neg (by omega), ih]

theorem tget_tins_ne (d : Nat → α) (t : Table α) {k j : Nat} (v : α) (h : j ≠ k) : tget d (tins t k v) j = tget d t j := by
  induction t with
  | nil => simp [tins, tget, Ne.symm h]
  | cons e t ih =>
    simp only [tins]
    split
    · simp [tget, Ne.symm h]
    · simp only [tget, ih]

/-- A read of the entry just written. -/
@[simp] theorem tget_tput_same [DecidableEq α] (d : Nat → α) (t : Table α) (k : Nat) (v : α) : tget d (tput d t k v) k = v := by
  unfold tput
  split
  · next h => rw [tget_tdel_same, h]
  · exact tget_tins_same d _ k v

/-- A write leaves every other entry alone. -/
theorem tget_tput_ne [DecidableEq α] (d : Nat → α) (t : Table α) {k j : Nat} (v : α) (h : j ≠ k) : tget d (tput d t k v) j = tget d t j := by
  unfold tput
  split
  · exact tget_tdel_ne d t h
  · rw [tget_tins_ne d _ v h, tget_tdel_ne d t h]

/-! The canonical form -/

theorem tsorted_none_of_some {n : Nat} {t : Table α} (h : tsorted (some n) t = true) : tsorted none t = true := by
  cases t with
  | nil => rfl
  | cons e t => simp only [tsorted, Bool.and_eq_true] at h ⊢; exact ⟨trivial, h.2⟩

theorem tsorted_weaken {n m : Nat} {t : Table α} (hnm : m ≤ n) (h : tsorted (some n) t = true) : tsorted (some m) t = true := by
  cases t with
  | nil => rfl
  | cons e t => simp only [tsorted, Bool.and_eq_true, decide_eq_true_eq] at h ⊢; exact ⟨by omega, h.2⟩

theorem tdel_sorted (lo : Option Nat) (t : Table α) (k : Nat) (h : tsorted lo t = true) : tsorted lo (tdel t k) = true := by
  induction t generalizing lo with
  | nil => rfl
  | cons e t ih =>
    simp only [tsorted, Bool.and_eq_true] at h
    simp only [tdel]
    split
    · cases lo with
      | none => exact ih none (tsorted_none_of_some h.2)
      | some n => exact ih (some n) (tsorted_weaken (by simpa using Nat.le_of_lt (by simpa using h.1)) h.2)
    · simp only [tsorted, Bool.and_eq_true]; exact ⟨h.1, ih _ h.2⟩

theorem tdel_mem {t : Table α} {k : Nat} {e : Nat × α} (h : e ∈ tdel t k) : e ∈ t ∧ e.1 ≠ k := by
  induction t with
  | nil => cases h
  | cons x t ih =>
    simp only [tdel] at h
    split at h
    · exact ⟨.tail _ (ih h).1, (ih h).2⟩
    · next hx =>
      rcases List.mem_cons.1 h with rfl | h
      · exact ⟨.head _, hx⟩
      · exact ⟨.tail _ (ih h).1, (ih h).2⟩

theorem tins_mem {t : Table α} {k : Nat} {v : α} {e : Nat × α} (h : e ∈ tins t k v) : e = (k, v) ∨ e ∈ t := by
  induction t with
  | nil => simpa [tins] using h
  | cons x t ih =>
    simp only [tins] at h
    split at h
    · simpa using h
    · rcases List.mem_cons.1 h with rfl | h
      · exact .inr (.head _)
      · exact (ih h).imp_right (.tail _)

theorem tins_sorted (lo : Option Nat) (t : Table α) (k : Nat) (v : α) (hk : ∀ n, lo = some n → n < k)
    (hne : ∀ e ∈ t, e.1 ≠ k) (h : tsorted lo t = true) : tsorted lo (tins t k v) = true := by
  induction t generalizing lo with
  | nil => cases lo <;> simp [tins, tsorted]; exact hk _ rfl
  | cons e t ih =>
    simp only [tsorted, Bool.and_eq_true] at h
    simp only [tins]
    split
    · next hle =>
      have : k < e.1 := by have := hne e (.head _); omega
      simp only [tsorted, Bool.and_eq_true]
      refine ⟨?_, by simpa using this, h.2⟩
      cases lo with
      | none => rfl
      | some n => simpa using hk n rfl
    · simp only [tsorted, Bool.and_eq_true]
      exact ⟨h.1, ih (some e.1) (by intro n hn; cases hn; omega) (fun x hx => hne x (.tail _ hx)) h.2⟩

/-- Every write keeps the canonical form. -/
theorem tput_wf [DecidableEq α] (d : Nat → α) (t : Table α) (k : Nat) (v : α) (h : Table.wf d t = true) : Table.wf d (tput d t k v) = true := by
  simp only [Table.wf, Bool.and_eq_true, List.all_eq_true, decide_eq_true_eq] at h ⊢
  unfold tput
  split
  · exact ⟨tdel_sorted none t k h.1, fun e he => h.2 e (tdel_mem he).1⟩
  · next hv =>
    refine ⟨tins_sorted none _ k v (by intro n hn; cases hn) (fun e he => (tdel_mem he).2) (tdel_sorted none t k h.1), ?_⟩
    intro e he
    rcases tins_mem he with rfl | he
    · exact hv
    · exact h.2 e (tdel_mem he).1

theorem tsorted_filter (p : Nat × α → Bool) (lo : Option Nat) (t : Table α) (h : tsorted lo t = true) : tsorted lo (t.filter p) = true := by
  induction t generalizing lo with
  | nil => rfl
  | cons e t ih =>
    simp only [tsorted, Bool.and_eq_true] at h
    simp only [List.filter]
    split
    · simp only [tsorted, Bool.and_eq_true]; exact ⟨h.1, ih _ h.2⟩
    · cases lo with
      | none => exact ih none (tsorted_none_of_some h.2)
      | some n => exact ih (some n) (tsorted_weaken (by simpa using Nat.le_of_lt (by simpa using h.1)) h.2)

/-- Taking entries out keeps the canonical form. -/
theorem filter_wf [DecidableEq α] (d : Nat → α) (p : Nat × α → Bool) (t : Table α) (h : Table.wf d t = true) : Table.wf d (t.filter p) = true := by
  simp only [Table.wf, Bool.and_eq_true, List.all_eq_true, decide_eq_true_eq] at h ⊢
  exact ⟨tsorted_filter p none t h.1, fun e he => h.2 e ((List.mem_filter.1 he).1)⟩

theorem tdel_wf [DecidableEq α] (d : Nat → α) (t : Table α) (k : Nat) (h : Table.wf d t = true) : Table.wf d (tdel t k) = true := by
  simp only [Table.wf, Bool.and_eq_true, List.all_eq_true, decide_eq_true_eq] at h ⊢
  exact ⟨tdel_sorted none t k h.1, fun e he => h.2 e (tdel_mem he).1⟩

end Sys2Proof.Machine
end

