-- ==== Sys2Proof/Laws/State.lean ====
section
/-! SUPPORT. What each update of the state leaves alone, one lemma a field and update, and what a register reads after a write. -/
namespace Sys2Proof.Machine

@[simp] theorem setReg_variant (s : State) (off : Nat) (v : W64) : (s.setReg off v).variant = s.variant := rfl
@[simp] theorem setReg_serial (s : State) (off : Nat) (v : W64) : (s.setReg off v).serial = s.serial := rfl
@[simp] theorem setReg_mainOn (s : State) (off : Nat) (v : W64) : (s.setReg off v).mainOn = s.mainOn := rfl
@[simp] theorem setReg_held (s : State) (off : Nat) (v : W64) : (s.setReg off v).held = s.held := rfl
@[simp] theorem setReg_page (s : State) (off : Nat) (v : W64) : (s.setReg off v).page = s.page := rfl
@[simp] theorem setReg_time (s : State) (off : Nat) (v : W64) : (s.setReg off v).time = s.time := rfl
@[simp] theorem setReg_guard (s : State) (off : Nat) (v : W64) : (s.setReg off v).guard = s.guard := rfl
@[simp] theorem setReg_lamp (s : State) (off : Nat) (v : W64) : (s.setReg off v).lamp = s.lamp := rfl
@[simp] theorem setReg_attic (s : State) (off : Nat) (v : W64) : (s.setReg off v).attic = s.attic := rfl
@[simp] theorem setReg_vault (s : State) (off : Nat) (v : W64) : (s.setReg off v).vault = s.vault := rfl
@[simp] theorem setReg_mem (s : State) (off : Nat) (v : W64) : (s.setReg off v).mem = s.mem := rfl
@[simp] theorem setReg_assoc (s : State) (off : Nat) (v : W64) : (s.setReg off v).assoc = s.assoc := rfl
@[simp] theorem setReg_cls (s : State) (off : Nat) (v : W64) : (s.setReg off v).cls = s.cls := rfl
@[simp] theorem setReg_gal (s : State) (off : Nat) (v : W64) : (s.setReg off v).gal = s.gal := rfl
@[simp] theorem setReg_fore (s : State) (off : Nat) (v : W64) : (s.setReg off v).fore = s.fore := rfl
@[simp] theorem setReg_wnd (s : State) (off : Nat) (v : W64) : (s.setReg off v).wnd = s.wnd := rfl
@[simp] theorem setReg_gate (s : State) (off : Nat) (v : W64) : (s.setReg off v).gate = s.gate := rfl
@[simp] theorem setReg_host (s : State) (off : Nat) (v : W64) : (s.setReg off v).host = s.host := rfl
@[simp] theorem setReg_twin (s : State) (off : Nat) (v : W64) : (s.setReg off v).twin = s.twin := rfl
@[simp] theorem setReg_lfr (s : State) (off : Nat) (v : W64) : (s.setReg off v).lfr = s.lfr := rfl
@[simp] theorem setReg_lanes (s : State) (off : Nat) (v : W64) : (s.setReg off v).lanes = s.lanes := rfl
@[simp] theorem setReg_out (s : State) (off : Nat) (v : W64) : (s.setReg off v).out = s.out := rfl
@[simp] theorem setReg_draws (s : State) (off : Nat) (v : W64) : (s.setReg off v).draws = s.draws := rfl
@[simp] theorem setReg_pending (s : State) (off : Nat) (v : W64) : (s.setReg off v).pending = s.pending := rfl

@[simp] theorem setFld_variant (s : State) (off : Nat) (f : Fld) (v : Nat) : (s.setFld off f v).variant = s.variant := setReg_variant s off _
@[simp] theorem setFld_serial (s : State) (off : Nat) (f : Fld) (v : Nat) : (s.setFld off f v).serial = s.serial := setReg_serial s off _
@[simp] theorem setFld_mainOn (s : State) (off : Nat) (f : Fld) (v : Nat) : (s.setFld off f v).mainOn = s.mainOn := setReg_mainOn s off _
@[simp] theorem setFld_held (s : State) (off : Nat) (f : Fld) (v : Nat) : (s.setFld off f v).held = s.held := setReg_held s off _
@[simp] theorem setFld_page (s : State) (off : Nat) (f : Fld) (v : Nat) : (s.setFld off f v).page = s.page := setReg_page s off _
@[simp] theorem setFld_time (s : State) (off : Nat) (f : Fld) (v : Nat) : (s.setFld off f v).time = s.time := setReg_time s off _
@[simp] theorem setFld_guard (s : State) (off : Nat) (f : Fld) (v : Nat) : (s.setFld off f v).guard = s.guard := setReg_guard s off _
@[simp] theorem setFld_lamp (s : State) (off : Nat) (f : Fld) (v : Nat) : (s.setFld off f v).lamp = s.lamp := setReg_lamp s off _
@[simp] theorem setFld_attic (s : State) (off : Nat) (f : Fld) (v : Nat) : (s.setFld off f v).attic = s.attic := setReg_attic s off _
@[simp] theorem setFld_vault (s : State) (off : Nat) (f : Fld) (v : Nat) : (s.setFld off f v).vault = s.vault := setReg_vault s off _
@[simp] theorem setFld_mem (s : State) (off : Nat) (f : Fld) (v : Nat) : (s.setFld off f v).mem = s.mem := setReg_mem s off _
@[simp] theorem setFld_assoc (s : State) (off : Nat) (f : Fld) (v : Nat) : (s.setFld off f v).assoc = s.assoc := setReg_assoc s off _
@[simp] theorem setFld_cls (s : State) (off : Nat) (f : Fld) (v : Nat) : (s.setFld off f v).cls = s.cls := setReg_cls s off _
@[simp] theorem setFld_gal (s : State) (off : Nat) (f : Fld) (v : Nat) : (s.setFld off f v).gal = s.gal := setReg_gal s off _
@[simp] theorem setFld_fore (s : State) (off : Nat) (f : Fld) (v : Nat) : (s.setFld off f v).fore = s.fore := setReg_fore s off _
@[simp] theorem setFld_wnd (s : State) (off : Nat) (f : Fld) (v : Nat) : (s.setFld off f v).wnd = s.wnd := setReg_wnd s off _
@[simp] theorem setFld_gate (s : State) (off : Nat) (f : Fld) (v : Nat) : (s.setFld off f v).gate = s.gate := setReg_gate s off _
@[simp] theorem setFld_host (s : State) (off : Nat) (f : Fld) (v : Nat) : (s.setFld off f v).host = s.host := setReg_host s off _
@[simp] theorem setFld_twin (s : State) (off : Nat) (f : Fld) (v : Nat) : (s.setFld off f v).twin = s.twin := setReg_twin s off _
@[simp] theorem setFld_lfr (s : State) (off : Nat) (f : Fld) (v : Nat) : (s.setFld off f v).lfr = s.lfr := setReg_lfr s off _
@[simp] theorem setFld_lanes (s : State) (off : Nat) (f : Fld) (v : Nat) : (s.setFld off f v).lanes = s.lanes := setReg_lanes s off _
@[simp] theorem setFld_out (s : State) (off : Nat) (f : Fld) (v : Nat) : (s.setFld off f v).out = s.out := setReg_out s off _
@[simp] theorem setFld_draws (s : State) (off : Nat) (f : Fld) (v : Nat) : (s.setFld off f v).draws = s.draws := setReg_draws s off _
@[simp] theorem setFld_pending (s : State) (off : Nat) (f : Fld) (v : Nat) : (s.setFld off f v).pending = s.pending := setReg_pending s off _

theorem withPage_variant (s : State) (t : Table W64) : ({ s with page := t } : State).variant = s.variant := rfl
theorem withPage_serial (s : State) (t : Table W64) : ({ s with page := t } : State).serial = s.serial := rfl
theorem withPage_mainOn (s : State) (t : Table W64) : ({ s with page := t } : State).mainOn = s.mainOn := rfl
theorem withPage_held (s : State) (t : Table W64) : ({ s with page := t } : State).held = s.held := rfl
theorem withPage_regs (s : State) (t : Table W64) : ({ s with page := t } : State).regs = s.regs := rfl
theorem withPage_time (s : State) (t : Table W64) : ({ s with page := t } : State).time = s.time := rfl
theorem withPage_guard (s : State) (t : Table W64) : ({ s with page := t } : State).guard = s.guard := rfl
theorem withPage_lamp (s : State) (t : Table W64) : ({ s with page := t } : State).lamp = s.lamp := rfl
theorem withPage_attic (s : State) (t : Table W64) : ({ s with page := t } : State).attic = s.attic := rfl
theorem withPage_vault (s : State) (t : Table W64) : ({ s with page := t } : State).vault = s.vault := rfl
theorem withPage_mem (s : State) (t : Table W64) : ({ s with page := t } : State).mem = s.mem := rfl
theorem withPage_assoc (s : State) (t : Table W64) : ({ s with page := t } : State).assoc = s.assoc := rfl
theorem withPage_cls (s : State) (t : Table W64) : ({ s with page := t } : State).cls = s.cls := rfl
theorem withPage_gal (s : State) (t : Table W64) : ({ s with page := t } : State).gal = s.gal := rfl
theorem withPage_fore (s : State) (t : Table W64) : ({ s with page := t } : State).fore = s.fore := rfl
theorem withPage_wnd (s : State) (t : Table W64) : ({ s with page := t } : State).wnd = s.wnd := rfl
theorem withPage_gate (s : State) (t : Table W64) : ({ s with page := t } : State).gate = s.gate := rfl
theorem withPage_host (s : State) (t : Table W64) : ({ s with page := t } : State).host = s.host := rfl
theorem withPage_twin (s : State) (t : Table W64) : ({ s with page := t } : State).twin = s.twin := rfl
theorem withPage_lfr (s : State) (t : Table W64) : ({ s with page := t } : State).lfr = s.lfr := rfl
theorem withPage_lanes (s : State) (t : Table W64) : ({ s with page := t } : State).lanes = s.lanes := rfl
theorem withPage_out (s : State) (t : Table W64) : ({ s with page := t } : State).out = s.out := rfl
theorem withPage_draws (s : State) (t : Table W64) : ({ s with page := t } : State).draws = s.draws := rfl
theorem withPage_pending (s : State) (t : Table W64) : ({ s with page := t } : State).pending = s.pending := rfl

@[simp] theorem setPg_variant (s : State) (fn off : Nat) (v : W64) : (s.setPg fn off v).variant = s.variant := withPage_variant s _
@[simp] theorem setPg_serial (s : State) (fn off : Nat) (v : W64) : (s.setPg fn off v).serial = s.serial := withPage_serial s _
@[simp] theorem setPg_mainOn (s : State) (fn off : Nat) (v : W64) : (s.setPg fn off v).mainOn = s.mainOn := withPage_mainOn s _
@[simp] theorem setPg_held (s : State) (fn off : Nat) (v : W64) : (s.setPg fn off v).held = s.held := withPage_held s _
@[simp] theorem setPg_regs (s : State) (fn off : Nat) (v : W64) : (s.setPg fn off v).regs = s.regs := withPage_regs s _
@[simp] theorem setPg_time (s : State) (fn off : Nat) (v : W64) : (s.setPg fn off v).time = s.time := withPage_time s _
@[simp] theorem setPg_guard (s : State) (fn off : Nat) (v : W64) : (s.setPg fn off v).guard = s.guard := withPage_guard s _
@[simp] theorem setPg_lamp (s : State) (fn off : Nat) (v : W64) : (s.setPg fn off v).lamp = s.lamp := withPage_lamp s _
@[simp] theorem setPg_attic (s : State) (fn off : Nat) (v : W64) : (s.setPg fn off v).attic = s.attic := withPage_attic s _
@[simp] theorem setPg_vault (s : State) (fn off : Nat) (v : W64) : (s.setPg fn off v).vault = s.vault := withPage_vault s _
@[simp] theorem setPg_mem (s : State) (fn off : Nat) (v : W64) : (s.setPg fn off v).mem = s.mem := withPage_mem s _
@[simp] theorem setPg_assoc (s : State) (fn off : Nat) (v : W64) : (s.setPg fn off v).assoc = s.assoc := withPage_assoc s _
@[simp] theorem setPg_cls (s : State) (fn off : Nat) (v : W64) : (s.setPg fn off v).cls = s.cls := withPage_cls s _
@[simp] theorem setPg_gal (s : State) (fn off : Nat) (v : W64) : (s.setPg fn off v).gal = s.gal := withPage_gal s _
@[simp] theorem setPg_fore (s : State) (fn off : Nat) (v : W64) : (s.setPg fn off v).fore = s.fore := withPage_fore s _
@[simp] theorem setPg_wnd (s : State) (fn off : Nat) (v : W64) : (s.setPg fn off v).wnd = s.wnd := withPage_wnd s _
@[simp] theorem setPg_gate (s : State) (fn off : Nat) (v : W64) : (s.setPg fn off v).gate = s.gate := withPage_gate s _
@[simp] theorem setPg_host (s : State) (fn off : Nat) (v : W64) : (s.setPg fn off v).host = s.host := withPage_host s _
@[simp] theorem setPg_twin (s : State) (fn off : Nat) (v : W64) : (s.setPg fn off v).twin = s.twin := withPage_twin s _
@[simp] theorem setPg_lfr (s : State) (fn off : Nat) (v : W64) : (s.setPg fn off v).lfr = s.lfr := withPage_lfr s _
@[simp] theorem setPg_lanes (s : State) (fn off : Nat) (v : W64) : (s.setPg fn off v).lanes = s.lanes := withPage_lanes s _
@[simp] theorem setPg_out (s : State) (fn off : Nat) (v : W64) : (s.setPg fn off v).out = s.out := withPage_out s _
@[simp] theorem setPg_draws (s : State) (fn off : Nat) (v : W64) : (s.setPg fn off v).draws = s.draws := withPage_draws s _
@[simp] theorem setPg_pending (s : State) (fn off : Nat) (v : W64) : (s.setPg fn off v).pending = s.pending := withPage_pending s _

@[simp] theorem setPgFld_variant (s : State) (fn off : Nat) (f : Fld) (v : Nat) : (s.setPgFld fn off f v).variant = s.variant := setPg_variant s fn off _
@[simp] theorem setPgFld_serial (s : State) (fn off : Nat) (f : Fld) (v : Nat) : (s.setPgFld fn off f v).serial = s.serial := setPg_serial s fn off _
@[simp] theorem setPgFld_mainOn (s : State) (fn off : Nat) (f : Fld) (v : Nat) : (s.setPgFld fn off f v).mainOn = s.mainOn := setPg_mainOn s fn off _
@[simp] theorem setPgFld_held (s : State) (fn off : Nat) (f : Fld) (v : Nat) : (s.setPgFld fn off f v).held = s.held := setPg_held s fn off _
@[simp] theorem setPgFld_regs (s : State) (fn off : Nat) (f : Fld) (v : Nat) : (s.setPgFld fn off f v).regs = s.regs := setPg_regs s fn off _
@[simp] theorem setPgFld_time (s : State) (fn off : Nat) (f : Fld) (v : Nat) : (s.setPgFld fn off f v).time = s.time := setPg_time s fn off _
@[simp] theorem setPgFld_guard (s : State) (fn off : Nat) (f : Fld) (v : Nat) : (s.setPgFld fn off f v).guard = s.guard := setPg_guard s fn off _
@[simp] theorem setPgFld_lamp (s : State) (fn off : Nat) (f : Fld) (v : Nat) : (s.setPgFld fn off f v).lamp = s.lamp := setPg_lamp s fn off _
@[simp] theorem setPgFld_attic (s : State) (fn off : Nat) (f : Fld) (v : Nat) : (s.setPgFld fn off f v).attic = s.attic := setPg_attic s fn off _
@[simp] theorem setPgFld_vault (s : State) (fn off : Nat) (f : Fld) (v : Nat) : (s.setPgFld fn off f v).vault = s.vault := setPg_vault s fn off _
@[simp] theorem setPgFld_mem (s : State) (fn off : Nat) (f : Fld) (v : Nat) : (s.setPgFld fn off f v).mem = s.mem := setPg_mem s fn off _
@[simp] theorem setPgFld_assoc (s : State) (fn off : Nat) (f : Fld) (v : Nat) : (s.setPgFld fn off f v).assoc = s.assoc := setPg_assoc s fn off _
@[simp] theorem setPgFld_cls (s : State) (fn off : Nat) (f : Fld) (v : Nat) : (s.setPgFld fn off f v).cls = s.cls := setPg_cls s fn off _
@[simp] theorem setPgFld_gal (s : State) (fn off : Nat) (f : Fld) (v : Nat) : (s.setPgFld fn off f v).gal = s.gal := setPg_gal s fn off _
@[simp] theorem setPgFld_fore (s : State) (fn off : Nat) (f : Fld) (v : Nat) : (s.setPgFld fn off f v).fore = s.fore := setPg_fore s fn off _
@[simp] theorem setPgFld_wnd (s : State) (fn off : Nat) (f : Fld) (v : Nat) : (s.setPgFld fn off f v).wnd = s.wnd := setPg_wnd s fn off _
@[simp] theorem setPgFld_gate (s : State) (fn off : Nat) (f : Fld) (v : Nat) : (s.setPgFld fn off f v).gate = s.gate := setPg_gate s fn off _
@[simp] theorem setPgFld_host (s : State) (fn off : Nat) (f : Fld) (v : Nat) : (s.setPgFld fn off f v).host = s.host := setPg_host s fn off _
@[simp] theorem setPgFld_twin (s : State) (fn off : Nat) (f : Fld) (v : Nat) : (s.setPgFld fn off f v).twin = s.twin := setPg_twin s fn off _
@[simp] theorem setPgFld_lfr (s : State) (fn off : Nat) (f : Fld) (v : Nat) : (s.setPgFld fn off f v).lfr = s.lfr := setPg_lfr s fn off _
@[simp] theorem setPgFld_lanes (s : State) (fn off : Nat) (f : Fld) (v : Nat) : (s.setPgFld fn off f v).lanes = s.lanes := setPg_lanes s fn off _
@[simp] theorem setPgFld_out (s : State) (fn off : Nat) (f : Fld) (v : Nat) : (s.setPgFld fn off f v).out = s.out := setPg_out s fn off _
@[simp] theorem setPgFld_draws (s : State) (fn off : Nat) (f : Fld) (v : Nat) : (s.setPgFld fn off f v).draws = s.draws := setPg_draws s fn off _
@[simp] theorem setPgFld_pending (s : State) (fn off : Nat) (f : Fld) (v : Nat) : (s.setPgFld fn off f v).pending = s.pending := setPg_pending s fn off _

@[simp] theorem emit_variant (s : State) (o : Out) : (s.emit o).variant = s.variant := rfl
@[simp] theorem emit_serial (s : State) (o : Out) : (s.emit o).serial = s.serial := rfl
@[simp] theorem emit_mainOn (s : State) (o : Out) : (s.emit o).mainOn = s.mainOn := rfl
@[simp] theorem emit_held (s : State) (o : Out) : (s.emit o).held = s.held := rfl
@[simp] theorem emit_regs (s : State) (o : Out) : (s.emit o).regs = s.regs := rfl
@[simp] theorem emit_page (s : State) (o : Out) : (s.emit o).page = s.page := rfl
@[simp] theorem emit_time (s : State) (o : Out) : (s.emit o).time = s.time := rfl
@[simp] theorem emit_guard (s : State) (o : Out) : (s.emit o).guard = s.guard := rfl
@[simp] theorem emit_lamp (s : State) (o : Out) : (s.emit o).lamp = s.lamp := rfl
@[simp] theorem emit_attic (s : State) (o : Out) : (s.emit o).attic = s.attic := rfl
@[simp] theorem emit_vault (s : State) (o : Out) : (s.emit o).vault = s.vault := rfl
@[simp] theorem emit_mem (s : State) (o : Out) : (s.emit o).mem = s.mem := rfl
@[simp] theorem emit_assoc (s : State) (o : Out) : (s.emit o).assoc = s.assoc := rfl
@[simp] theorem emit_cls (s : State) (o : Out) : (s.emit o).cls = s.cls := rfl
@[simp] theorem emit_gal (s : State) (o : Out) : (s.emit o).gal = s.gal := rfl
@[simp] theorem emit_fore (s : State) (o : Out) : (s.emit o).fore = s.fore := rfl
@[simp] theorem emit_wnd (s : State) (o : Out) : (s.emit o).wnd = s.wnd := rfl
@[simp] theorem emit_gate (s : State) (o : Out) : (s.emit o).gate = s.gate := rfl
@[simp] theorem emit_host (s : State) (o : Out) : (s.emit o).host = s.host := rfl
@[simp] theorem emit_twin (s : State) (o : Out) : (s.emit o).twin = s.twin := rfl
@[simp] theorem emit_lfr (s : State) (o : Out) : (s.emit o).lfr = s.lfr := rfl
@[simp] theorem emit_lanes (s : State) (o : Out) : (s.emit o).lanes = s.lanes := rfl
@[simp] theorem emit_draws (s : State) (o : Out) : (s.emit o).draws = s.draws := rfl
@[simp] theorem emit_pending (s : State) (o : Out) : (s.emit o).pending = s.pending := rfl

@[simp] theorem drew_variant (s : State)  : (s.drew).variant = s.variant := rfl
@[simp] theorem drew_serial (s : State)  : (s.drew).serial = s.serial := rfl
@[simp] theorem drew_mainOn (s : State)  : (s.drew).mainOn = s.mainOn := rfl
@[simp] theorem drew_held (s : State)  : (s.drew).held = s.held := rfl
@[simp] theorem drew_regs (s : State)  : (s.drew).regs = s.regs := rfl
@[simp] theorem drew_page (s : State)  : (s.drew).page = s.page := rfl
@[simp] theorem drew_time (s : State)  : (s.drew).time = s.time := rfl
@[simp] theorem drew_guard (s : State)  : (s.drew).guard = s.guard := rfl
@[simp] theorem drew_lamp (s : State)  : (s.drew).lamp = s.lamp := rfl
@[simp] theorem drew_attic (s : State)  : (s.drew).attic = s.attic := rfl
@[simp] theorem drew_vault (s : State)  : (s.drew).vault = s.vault := rfl
@[simp] theorem drew_mem (s : State)  : (s.drew).mem = s.mem := rfl
@[simp] theorem drew_assoc (s : State)  : (s.drew).assoc = s.assoc := rfl
@[simp] theorem drew_cls (s : State)  : (s.drew).cls = s.cls := rfl
@[simp] theorem drew_gal (s : State)  : (s.drew).gal = s.gal := rfl
@[simp] theorem drew_fore (s : State)  : (s.drew).fore = s.fore := rfl
@[simp] theorem drew_wnd (s : State)  : (s.drew).wnd = s.wnd := rfl
@[simp] theorem drew_gate (s : State)  : (s.drew).gate = s.gate := rfl
@[simp] theorem drew_host (s : State)  : (s.drew).host = s.host := rfl
@[simp] theorem drew_twin (s : State)  : (s.drew).twin = s.twin := rfl
@[simp] theorem drew_lfr (s : State)  : (s.drew).lfr = s.lfr := rfl
@[simp] theorem drew_lanes (s : State)  : (s.drew).lanes = s.lanes := rfl
@[simp] theorem drew_out (s : State)  : (s.drew).out = s.out := rfl
@[simp] theorem drew_pending (s : State)  : (s.drew).pending = s.pending := rfl

@[simp] theorem emit_out (s : State) (o : Out) : (s.emit o).out = o :: s.out := rfl
@[simp] theorem drew_draws (s : State) : s.drew.draws = s.draws + 1 := rfl

/-! Registers -/

@[simp] theorem reg_setReg_same (s : State) (off : Nat) (v : W64) : (s.setReg off v).reg off = v := tget_tput_same _ _ _ _
theorem reg_setReg_ne (s : State) {off o : Nat} (v : W64) (h : o ≠ off) : (s.setReg off v).reg o = s.reg o := tget_tput_ne _ _ _ h
@[simp] theorem reg_setFld_same (s : State) (off : Nat) (f : Fld) (v : Nat) : (s.setFld off f v).reg off = fset (s.reg off) f v := reg_setReg_same _ _ _
theorem reg_setFld_ne (s : State) {off o : Nat} (f : Fld) (v : Nat) (h : o ≠ off) : (s.setFld off f v).reg o = s.reg o := reg_setReg_ne _ _ h
@[simp] theorem reg_emit (s : State) (o : Out) (k : Nat) : (s.emit o).reg k = s.reg k := rfl
@[simp] theorem reg_setPg (s : State) (fn off : Nat) (v : W64) (k : Nat) : (s.setPg fn off v).reg k = s.reg k := rfl
@[simp] theorem pg_setReg (s : State) (off : Nat) (v : W64) (fn k : Nat) : (s.setReg off v).pg fn k = s.pg fn k := by
  simp only [State.pg, setReg_page]
@[simp] theorem pg_setPg_same (s : State) (fn off : Nat) (v : W64) : (s.setPg fn off v).pg fn off = v := tget_tput_same _ _ _ _
theorem pg_setPg_ne (s : State) {fn off g k : Nat} (v : W64) (h : g * 0x10000 + k ≠ fn * 0x10000 + off) : (s.setPg fn off v).pg g k = s.pg g k :=
  tget_tput_ne _ _ _ h

/-! Fields -/

theorem fget_fset_same (w : W64) (f : Fld) (v : Nat) (h : f.lo + f.len ≤ 64) : fget (fset w f v) f = v % 2 ^ f.len := by
  apply Nat.eq_of_testBit_eq
  intro i
  simp only [fget, nbits, fset, fmask, Nat.testBit_mod_two_pow, Nat.testBit_div_two_pow, BitVec.toNat_or, BitVec.toNat_and, BitVec.toNat_not,
    BitVec.toNat_ofNat, Nat.testBit_or, Nat.testBit_and]
  by_cases hi : i < f.len
  · have h1 : i + f.lo < 64 := by omega
    have e1 : v % 2 ^ f.len * 2 ^ f.lo % 2 ^ 64 = v % 2 ^ f.len * 2 ^ f.lo := by
      apply Nat.mod_eq_of_lt
      calc v % 2 ^ f.len * 2 ^ f.lo < 2 ^ f.len * 2 ^ f.lo := Nat.mul_lt_mul_of_pos_right (Nat.mod_lt _ (Nat.two_pow_pos _)) (Nat.two_pow_pos _)
        _ = 2 ^ (f.len + f.lo) := (Nat.pow_add ..).symm
        _ ≤ 2 ^ 64 := Nat.pow_le_pow_right (by omega) (by omega)
    have e2 : (2 ^ f.len - 1) * 2 ^ f.lo % 2 ^ 64 = (2 ^ f.len - 1) * 2 ^ f.lo := by
      apply Nat.mod_eq_of_lt
      calc (2 ^ f.len - 1) * 2 ^ f.lo < 2 ^ f.len * 2 ^ f.lo := Nat.mul_lt_mul_of_pos_right (Nat.sub_lt (Nat.two_pow_pos _) (by omega)) (Nat.two_pow_pos _)
        _ = 2 ^ (f.len + f.lo) := (Nat.pow_add ..).symm
        _ ≤ 2 ^ 64 := Nat.pow_le_pow_right (by omega) (by omega)
    rw [e2]
    have e3 : 2 ^ 64 - 1 - (2 ^ f.len - 1) * 2 ^ f.lo = 2 ^ 64 - ((2 ^ f.len - 1) * 2 ^ f.lo + 1) := by omega
    have lt : (2 ^ f.len - 1) * 2 ^ f.lo < 2 ^ 64 := by rw [← e2]; exact Nat.mod_lt _ (Nat.two_pow_pos _)
    rw [e3, Nat.testBit_two_pow_sub_succ lt]
    have h2 : f.lo + i < 64 := by omega
    simp [Nat.testBit_mul_two_pow, hi, h2, Nat.add_comm i]
  · simp [hi]

@[simp] theorem fld_setFld_same (s : State) (off : Nat) (f : Fld) (v : Nat) (h : f.lo + f.len ≤ 64) : (s.setFld off f v).fld off f = v % 2 ^ f.len := by
  simp only [State.fld, reg_setFld_same]; exact fget_fset_same _ _ _ h

end Sys2Proof.Machine
end

