-- ==== Sys2Proof/Laws/Event.lean ====
section
/-! SUPPORT. What an interrupt, a counter and a recorded event can change, and what an event leaves in the tally. -/
namespace Sys2Proof.Machine

/-! Interrupts -/

theorem Signalled.refl (s : State) : Signalled s s := ⟨rfl, fun _ _ => rfl, [], rfl⟩

theorem Signalled.trans {s t u : State} (h : Signalled s t) (h' : Signalled t u) : Signalled s u := by
  obtain ⟨e, p, l, o⟩ := h
  obtain ⟨e', p', l', o'⟩ := h'
  refine ⟨?_, fun k hk => (p' k hk).trans (p k hk), l' ++ l, by rw [o', o, List.append_assoc]⟩
  rw [e', e]

theorem setPg_signalled (s : State) (off : Nat) (v : W64) (h : off ∈ irqWords) : Signalled s (s.setPg 0 off v) := by
  unfold State.setPg
  refine ⟨rfl, fun k hk => ?_, [], rfl⟩
  have : k ≠ 0 * 0x10000 + off := by rintro rfl; simp at hk; exact hk h
  exact tget_tput_ne _ _ _ this

theorem emit_signalled (s : State) (o : Out) : Signalled s (s.emit o) := ⟨rfl, fun _ _ => rfl, [o], rfl⟩

/-- A vector's message, or its pending bit. -/
theorem msixSend_signalled (v : Nat) (s : State) : Signalled s (msixSend 0 v s) := by
  unfold msixSend
  split
  · exact setPg_signalled _ _ _ (by simp [irqWords])
  · exact emit_signalled _ _

/-- A vector without moderation. -/
theorem irq_signalled (v : Nat) (s : State) (h1 : v ≠ 1) (h2 : v ≠ 2) : Signalled s (irq 0 v s) := by
  unfold irq
  rw [if_neg (by omega)]
  exact (setPg_signalled _ _ _ (by simp [irqWords])).trans (msixSend_signalled _ _)

/-! Events -/

theorem RegsBut.refl (l : List Nat) (s : State) : RegsBut l s s := fun _ _ => rfl
theorem RegsBut.trans {l : List Nat} {s t u : State} (h : RegsBut l s t) (h' : RegsBut l t u) : RegsBut l s u :=
  fun o ho => (h' o ho).trans (h o ho)

theorem Logged.refl (s : State) : Logged s s := ⟨rfl, .refl _ _, fun _ _ => rfl, [], rfl⟩

theorem Logged.trans {s t u : State} (h : Logged s t) (h' : Logged t u) : Logged s u := by
  obtain ⟨e, r, p, l, o⟩ := h
  obtain ⟨e', r', p', l', o'⟩ := h'
  refine ⟨?_, r.trans r', fun k hk => (p' k hk).trans (p k hk), l' ++ l, by rw [o', o, List.append_assoc]⟩
  rw [e', e]

theorem Signalled.logged {s t : State} (h : Signalled s t) : Logged s t := by
  obtain ⟨e, p, o⟩ := h
  rw [e]
  exact ⟨rfl, fun _ _ => rfl, by simpa using p, by simpa using o⟩

/-- A change of the tally's own part of the attic. -/
theorem attic_logged (s : State) (a : Attic) (h : a = { s.attic with evid := a.evid, ring := a.ring, nextSeq := a.nextSeq, evidLost := a.evidLost, wear := a.wear, spares := a.spares, readonly := a.readonly }) :
    Logged s { s with attic := a } := by
  refine ⟨?_, fun _ _ => rfl, fun _ _ => rfl, [], rfl⟩
  rw [h]

theorem setReg_logged (s : State) (off : Nat) (v : W64) (h : off ∈ tallyRegs) : Logged s (s.setReg off v) :=
  ⟨by unfold State.setReg; rfl, fun o ho => reg_setReg_ne s v (by rintro rfl; exact ho h), fun _ _ => by rw [setReg_page], [], by rw [setReg_out]; rfl⟩

theorem bump_logged (s : State) (off n : Nat) (h : off ∈ [Reg.TLY_CNT_APPENDED, Reg.TLY_CNT_RING_DISCARD, Reg.TLY_CNT_SUPPRESSED]) : Logged s (bump off n s) := by
  have hm : off ∈ tallyRegs := by simp only [tallyRegs, List.mem_cons] at h ⊢; tauto
  unfold bump
  dsimp only
  have h1 := setReg_logged s off (BitVec.ofNat 64 (count40 (s.reg off).toNat n)) hm
  split
  · refine h1.trans ?_
    unfold halfPending
    refine (setReg_logged _ _ _ ?_).trans (irq_signalled 3 _ (by decide) (by decide)).logged
    simp only [List.mem_cons, List.not_mem_nil, or_false] at h
    rcases h with rfl | rfl | rfl <;> decide
  · exact h1

theorem ringAppend_logged (r : TRec) (s : State) : Logged s (ringAppend r s) := by
  unfold ringAppend
  repeat' split
  · exact bump_logged _ _ _ (by simp)
  · exact (attic_logged _ _ rfl).trans (bump_logged _ _ _ (by simp))
  · exact (attic_logged _ _ rfl).trans (bump_logged _ _ _ (by simp))
  · exact bump_logged _ _ _ (by simp)

theorem evidAppend_logged (r : TRec) (s : State) : Logged s (evidAppend r s) := by
  unfold evidAppend
  split
  · exact attic_logged _ _ rfl
  · exact (attic_logged _ _ rfl).trans (bump_logged _ _ _ (by simp))

theorem store_logged (r : TRec) (s : State) : Logged s (store r s) := by
  unfold store
  dsimp only
  have h : Logged s (if r.evid then evidAppend { r with seq := s.attic.nextSeq } s else ringAppend { r with seq := s.attic.nextSeq } s) := by
    split
    · exact evidAppend_logged _ _
    · exact ringAppend_logged _ _
  generalize (if r.evid then evidAppend { r with seq := s.attic.nextSeq } s else ringAppend { r with seq := s.attic.nextSeq } s) = u at h ⊢
  have h2 : Logged u (takeSeq u) := attic_logged _ _ rfl
  generalize takeSeq u = v at h2 ⊢
  split
  · exact h
  · split
    · exact (h.trans h2).trans (irq_signalled 4 v (by decide) (by decide)).logged
    · exact h.trans h2

theorem wearStep_logged (r b : Nat) (s : State) : Logged s (wearStep r b s).1 := by
  unfold wearStep
  repeat' split
  all_goals exact attic_logged _ _ rfl

theorem wearTally_logged (r : TRec) (s : State) : Logged s (wearTally r s) := by
  unfold wearTally
  have h := wearStep_logged 1 (recBlock { r with slot := if r.evid then s.attic.evid.length - 1 else s.attic.ring.length - 1 }) s
  split <;> rename_i heq <;> rw [heq] at h
  · exact h
  · exact h.trans (store_logged _ _)

theorem append_logged (r : TRec) (s : State) : Logged s (append r s) := by
  unfold append
  split
  · exact (store_logged _ _).trans (wearTally_logged _ _)
  · exact store_logged _ _

theorem guard_logged (s : State) (b u : Table Nat) : Logged s { s with guard := { s.guard with buckets := b, suppressed := u } } :=
  ⟨rfl, fun _ _ => rfl, fun _ _ => rfl, [], rfl⟩

theorem record_logged (r : TRec) (s : State) : Logged s (record r s) := by
  unfold record
  split
  · exact (guard_logged s s.guard.buckets _).trans (bump_logged _ _ _ (by simp))
  · refine Logged.trans ?_ (append_logged _ _)
    dsimp only
    repeat' split
    all_goals first | exact guard_logged s s.guard.buckets _ | exact guard_logged s _ s.guard.suppressed | exact guard_logged s _ _

/-- Everything an event may change when no evidence record is lost. -/
theorem event0_logged (code level : Nat) (vals : List Nat) (s : State) : Logged s (event0 code level vals s) := record_logged _ _

theorem losesEvidence_of_takes {code : Nat} {s : State} (h : takes code s = true) : losesEvidence code s = false := by
  simp only [takes, Bool.and_eq_true, Bool.not_eq_true'] at h
  unfold losesEvidence evidFull
  obtain ⟨⟨h1, h2⟩, h3⟩ := h
  rw [h2]
  cases he : (evInfo code).2
  · rfl
  · rw [he, if_pos rfl, decide_eq_true_eq] at h3
    simp [Nat.not_le.2 h3]

/-- An event that the tally takes is its record and nothing more. -/
theorem event_of_takes {code : Nat} {vals : List Nat} {s : State} (h : takes code s = true) : event code vals s = event0 code 0 vals s := by
  unfold event
  rw [losesEvidence_of_takes h]
  rfl

theorem event_logged {code : Nat} {vals : List Nat} {s : State} (h : takes code s = true) : Logged s (event code vals s) := by
  rw [event_of_takes h]; exact event0_logged _ _ _ _

/-! What recording events leaves alone, field by field -/

theorem Logged.variant {s t : State} (h : Logged s t) : t.variant = s.variant := by rw [h.1]
theorem Logged.serial {s t : State} (h : Logged s t) : t.serial = s.serial := by rw [h.1]
theorem Logged.mainOn {s t : State} (h : Logged s t) : t.mainOn = s.mainOn := by rw [h.1]
theorem Logged.held {s t : State} (h : Logged s t) : t.held = s.held := by rw [h.1]
theorem Logged.time {s t : State} (h : Logged s t) : t.time = s.time := by rw [h.1]
theorem Logged.lamp {s t : State} (h : Logged s t) : t.lamp = s.lamp := by rw [h.1]
theorem Logged.vault {s t : State} (h : Logged s t) : t.vault = s.vault := by rw [h.1]
theorem Logged.mem {s t : State} (h : Logged s t) : t.mem = s.mem := by rw [h.1]
theorem Logged.assoc {s t : State} (h : Logged s t) : t.assoc = s.assoc := by rw [h.1]
theorem Logged.cls {s t : State} (h : Logged s t) : t.cls = s.cls := by rw [h.1]
theorem Logged.gal {s t : State} (h : Logged s t) : t.gal = s.gal := by rw [h.1]
theorem Logged.fore {s t : State} (h : Logged s t) : t.fore = s.fore := by rw [h.1]
theorem Logged.wnd {s t : State} (h : Logged s t) : t.wnd = s.wnd := by rw [h.1]
theorem Logged.gate {s t : State} (h : Logged s t) : t.gate = s.gate := by rw [h.1]
theorem Logged.host {s t : State} (h : Logged s t) : t.host = s.host := by rw [h.1]
theorem Logged.twin {s t : State} (h : Logged s t) : t.twin = s.twin := by rw [h.1]
theorem Logged.lfr {s t : State} (h : Logged s t) : t.lfr = s.lfr := by rw [h.1]
theorem Logged.lanes {s t : State} (h : Logged s t) : t.lanes = s.lanes := by rw [h.1]
theorem Logged.draws {s t : State} (h : Logged s t) : t.draws = s.draws := by rw [h.1]
theorem Logged.pending {s t : State} (h : Logged s t) : t.pending = s.pending := by rw [h.1]
theorem Logged.reg {s t : State} (h : Logged s t) {k : Nat} (hk : k ∉ tallyRegs) : t.reg k = s.reg k := h.2.1 k hk
theorem Logged.fld {s t : State} (h : Logged s t) {k : Nat} (f : Fld) (hk : k ∉ tallyRegs) : t.fld k f = s.fld k f := by simp only [State.fld, h.reg hk]
theorem Logged.mode {s t : State} (h : Logged s t) : t.mode = s.mode := h.fld _ (by decide)
theorem Logged.live {s t : State} (h : Logged s t) : t.live = s.live := by simp only [State.live, h.mainOn, h.held]
theorem Logged.win {s t : State} (h : Logged s t) : t.guard.win = s.guard.win := by rw [h.1]
theorem Logged.lifecycle {s t : State} (h : Logged s t) : t.attic.lifecycle = s.attic.lifecycle := by rw [h.1]

/-! The record itself -/

theorem irq_attic (fn v : Nat) (s : State) (h1 : v ≠ 1) (h2 : v ≠ 2) : (irq fn v s).attic = s.attic := by
  unfold irq msixSend
  rw [if_neg (by omega)]
  split <;> simp

theorem bump_attic (off n : Nat) (s : State) : (bump off n s).attic = s.attic := by
  unfold bump
  dsimp only
  split
  · unfold halfPending
    rw [irq_attic 0 3 _ (by decide) (by decide), setReg_attic, setReg_attic]
  · exact setReg_attic s _ _

theorem wearStep_attic (r b : Nat) (s : State) : (wearStep r b s).1.attic.evid = s.attic.evid ∧ (wearStep r b s).1.attic.ring = s.attic.ring := by
  unfold wearStep
  repeat' split
  all_goals exact ⟨rfl, rfl⟩

theorem evidAppend_mem (r : TRec) (s : State) (hro : atticRO s 1 = false) (hroom : s.attic.evid.length < 16384) :
    (evidAppend r s).attic.evid = s.attic.evid ++ [{ r with slot := s.attic.evid.length }] := by
  have hf : evidFull s = false := by simp only [evidFull, hro, Bool.or_false, decide_eq_false_iff_not]; omega
  simp only [evidAppend, hf, Bool.false_eq_true, if_false, bump_attic]

theorem ringAppend_mem (r : TRec) (s : State) (hro : atticRO s 1 = false) (hroom : s.attic.ring.length < 65536) :
    (ringAppend r s).attic.ring = s.attic.ring ++ [{ r with slot := s.attic.ring.length }] := by
  simp only [ringAppend, hro, Bool.false_eq_true, if_false, if_pos hroom, bump_attic]

/-- What a store does to the two areas, whether or not the record is written. -/
theorem store_areas (r : TRec) (s : State) :
    (store r s).attic.evid = (if r.evid then evidAppend { r with seq := s.attic.nextSeq } s else ringAppend { r with seq := s.attic.nextSeq } s).attic.evid ∧
    (store r s).attic.ring = (if r.evid then evidAppend { r with seq := s.attic.nextSeq } s else ringAppend { r with seq := s.attic.nextSeq } s).attic.ring := by
  unfold store
  dsimp only
  repeat' split
  all_goals first | exact ⟨rfl, rfl⟩ | (rw [irq_attic 0 4 _ (by decide) (by decide)]; exact ⟨rfl, rfl⟩)

theorem store_evid (r : TRec) (s : State) (h : r.evid = true) (hro : atticRO s 1 = false) (hroom : s.attic.evid.length < 16384) :
    (store r s).attic.evid = s.attic.evid ++ [{ r with seq := s.attic.nextSeq, slot := s.attic.evid.length }] := by
  rw [(store_areas r s).1, if_pos h]; exact evidAppend_mem _ _ hro hroom

theorem store_ring (r : TRec) (s : State) (h : r.evid = false) (hro : atticRO s 1 = false) (hroom : s.attic.ring.length < 65536) :
    (store r s).attic.ring = s.attic.ring ++ [{ r with seq := s.attic.nextSeq, slot := s.attic.ring.length }] := by
  rw [(store_areas r s).2, if_neg (by simp [h])]; exact ringAppend_mem _ _ hro hroom

/-- A record whose area has room is written. -/
theorem written_room (r : TRec) (s : State) (hro : atticRO s 1 = false)
    (hroom : if r.evid then s.attic.evid.length < 16384 else s.attic.ring.length < 65536) : written r s = true := by
  unfold written
  split at hroom <;> rename_i he
  · rw [if_pos he]; simp only [evidFull, hro, Bool.or_false, Bool.not_eq_true', decide_eq_false_iff_not]; omega
  · rw [if_neg he, hro]; simp [hroom]

theorem bump_keeps_attic (off n : Nat) (s : State) (P : Attic → Prop) (h : P s.attic) : P (bump off n s).attic := by rw [bump_attic]; exact h

/-- A ring append leaves the evidence area alone. -/
theorem ringAppend_evid (r : TRec) (s : State) : (ringAppend r s).attic.evid = s.attic.evid := by
  unfold ringAppend
  repeat' split
  all_goals rw [bump_attic]

theorem ringAppend_keeps (r : TRec) (s : State) (hroom : s.attic.ring.length < 65536) {x : TRec} (hx : x ∈ s.attic.ring) : x ∈ (ringAppend r s).attic.ring := by
  cases hro : atticRO s 1
  · rw [ringAppend_mem _ _ hro hroom]; exact List.mem_append_left _ hx
  · rw [ringAppend, if_pos hro, bump_attic]; exact hx

/-- The records of an area are still there after its block has worn (R459). -/
theorem wearTally_evid (r : TRec) (s : State) : (wearTally r s).attic.evid = s.attic.evid := by
  unfold wearTally
  have h := wearStep_attic 1 (recBlock { r with slot := if r.evid then s.attic.evid.length - 1 else s.attic.ring.length - 1 }) s
  split <;> rename_i heq <;> rw [heq] at h
  · exact h.1
  · rw [(store_areas _ _).1, if_neg (by simp)]; exact (ringAppend_evid _ _).trans h.1

theorem wearTally_ring (r : TRec) (s : State) (hroom : s.attic.ring.length < 65536) : ∀ x ∈ s.attic.ring, x ∈ (wearTally r s).attic.ring := by
  unfold wearTally
  have h := wearStep_attic 1 (recBlock { r with slot := if r.evid then s.attic.evid.length - 1 else s.attic.ring.length - 1 }) s
  split <;> rename_i heq <;> rw [heq] at h
  · intro x hx; exact h.2 ▸ hx
  · intro x hx
    rw [(store_areas _ _).2, if_neg (by simp)]
    exact ringAppend_keeps _ _ (by rw [h.2]; exact hroom) (by rw [h.2]; exact hx)

/-- A record whose area has room is in it afterwards, with the next SEQ. -/
theorem record_mem (r : TRec) (s : State) (htok : (exempt r.code || tokens s r.code != 0) = true) (hro : atticRO s 1 = false)
    (hroom : if r.evid then s.attic.evid.length < 16384 else s.attic.ring.length < 65535) :
    ∃ x, (x ∈ (record r s).attic.evid ∨ x ∈ (record r s).attic.ring) ∧ x.code = r.code ∧ x.seq = s.attic.nextSeq ∧ x.data = r.data ∧ x.mark = r.mark := by
  have hs : (!exempt r.code && tokens s r.code == 0) = false := by
    cases he : exempt r.code <;> simp [he] at htok ⊢; exact htok
  unfold record
  rw [if_neg (by rw [hs]; simp)]
  dsimp only
  generalize hv : (if exempt r.code = true then s else setTokens r.code (tokens s r.code - 1) s) = v
  have hva : v.attic = s.attic := by rw [← hv]; split <;> rfl
  generalize hu : ite (written r v = true) _ v = u
  have ha : u.attic = s.attic := by rw [← hu, ← hva]; split <;> rfl
  have hro' : atticRO u 1 = false := by unfold atticRO at hro ⊢; rw [ha]; exact hro
  rw [← ha] at hroom ⊢
  have hw : written r u = true := written_room r u hro' (by split at hroom <;> rename_i he <;> simp only [he, if_true, if_false, Bool.false_eq_true] <;> omega)
  rw [append, if_pos hw]
  cases he : r.evid
  · rw [he, if_neg (by simp)] at hroom
    refine ⟨{ r with seq := u.attic.nextSeq, slot := u.attic.ring.length }, .inr (wearTally_ring _ _ ?_ _ ?_), rfl, rfl, rfl, rfl⟩
    · rw [store_ring r u he hro' (by omega)]; simp; omega
    · rw [store_ring r u he hro' (by omega)]; simp
  · rw [he, if_pos rfl] at hroom
    refine ⟨{ r with seq := u.attic.nextSeq, slot := u.attic.evid.length }, .inl ?_, rfl, rfl, rfl, rfl⟩
    rw [wearTally_evid, store_evid r u he hro' hroom]; simp

/-- An event that the tally takes is in it afterwards. -/
theorem event0_recorded {code level : Nat} {vals : List Nat} {s : State} (h : takes code s = true) : Recorded code vals s (event0 code level vals s) := by
  simp only [takes, Bool.and_eq_true, Bool.not_eq_true'] at h
  obtain ⟨⟨h1, h2⟩, h3⟩ := h
  have := record_mem (mkRec code (evInfo code).1 (evInfo code).2 level 0 0 (evData vals) s) s h1 h2 (by
    show if (evInfo code).2 = true then _ else _
    split <;> rename_i he <;> simpa [he] using h3)
  obtain ⟨x, hx, a, b, c, d⟩ := this
  exact ⟨x, hx, a, b, c, by unfold TRec.valid; rw [d]; rfl⟩

theorem event_recorded {code : Nat} {vals : List Nat} {s : State} (h : takes code s = true) : Recorded code vals s (event code vals s) := by
  rw [event_of_takes h]; exact event0_recorded h

end Sys2Proof.Machine
end

