-- ==== Sys2Proof/Laws/Count.lean ====
section
/-! SUPPORT. What a count leaves (R312), and what a field reads after another field of its word was written. -/
namespace Sys2Proof.Machine

/-- A bit of a word with one field written. -/
theorem testBit_fset (w : W64) (f : Fld) (v k : Nat) :
    (fset w f v).toNat.testBit k = (decide (k < 64) && if f.lo ≤ k ∧ k < f.lo + f.len then v.testBit (k - f.lo) else w.toNat.testBit k) := by
  simp only [fset, fmask, BitVec.toNat_or, BitVec.toNat_and, BitVec.toNat_not, BitVec.toNat_ofNat, Nat.testBit_or, Nat.testBit_and, Nat.testBit_mod_two_pow,
    Nat.testBit_mul_two_pow]
  by_cases hk : k < 64
  · have e3 : 2 ^ 64 - 1 - (2 ^ f.len - 1) * 2 ^ f.lo % 2 ^ 64 = 2 ^ 64 - ((2 ^ f.len - 1) * 2 ^ f.lo % 2 ^ 64 + 1) := by omega
    have lt : (2 ^ f.len - 1) * 2 ^ f.lo % 2 ^ 64 < 2 ^ 64 := Nat.mod_lt _ (by decide)
    rw [e3, Nat.testBit_two_pow_sub_succ lt]
    simp only [hk, decide_true, Bool.true_and, Nat.testBit_mod_two_pow, Nat.testBit_mul_two_pow, Nat.testBit_two_pow_sub_one]
    by_cases h1 : f.lo ≤ k <;> by_cases h2 : k - f.lo < f.len
    · have : k < f.lo + f.len := by omega
      simp [h1, h2, this]
    · have : ¬ k < f.lo + f.len := by omega
      simp [h1, h2, this]
    · simp [h1]
    · simp [h1]
  · have : w.toNat.testBit k = false := Nat.testBit_lt_two_pow (lt_of_lt_of_le w.isLt (Nat.pow_le_pow_right (by omega) (by omega)))
    simp [hk, this]

/-- Writing one field leaves a field beside it alone. -/
theorem fget_fset_ne (w : W64) (f g : Fld) (v : Nat) (h : f.lo + f.len ≤ g.lo ∨ g.lo + g.len ≤ f.lo) : fget (fset w f v) g = fget w g := by
  apply Nat.eq_of_testBit_eq
  intro i
  simp only [fget, nbits, Nat.testBit_mod_two_pow, Nat.testBit_div_two_pow, testBit_fset]
  by_cases hi : i < g.len
  · have : ¬ (f.lo ≤ g.lo + i ∧ g.lo + i < f.lo + f.len) := by omega
    rw [Nat.add_comm i, if_neg this]
    by_cases hk : g.lo + i < 64
    · simp [hk]
    · have : w.toNat.testBit (g.lo + i) = false := Nat.testBit_lt_two_pow (lt_of_lt_of_le w.isLt (Nat.pow_le_pow_right (by omega) (by omega)))
      simp [this]
  · simp [hi]

theorem fld_setFld_ne (s : State) (off : Nat) (f g : Fld) (v : Nat) (h : f.lo + f.len ≤ g.lo ∨ g.lo + g.len ≤ f.lo) : (s.setFld off f v).fld off g = s.fld off g := by
  simp only [State.fld, reg_setFld_same]; exact fget_fset_ne _ _ _ _ h

theorem fld_setFld_other (s : State) {off o : Nat} (f g : Fld) (v : Nat) (h : o ≠ off) : (s.setFld off f v).fld o g = s.fld o g := by
  simp only [State.fld, reg_setFld_ne s f v h]

/-! Counters -/

theorem setReg_eq (s : State) (off : Nat) (v : W64) : s.setReg off v = { s with regs := (s.setReg off v).regs } := by unfold State.setReg; rfl

theorem Signalled.reg {s t : State} (h : Signalled s t) (k : Nat) : t.reg k = s.reg k := by rw [h.1]; rfl

theorem Signalled.of_regs {s u t : State} (h : Signalled u t) (hu : u = { s with regs := u.regs }) :
    t = { s with regs := t.regs, page := t.page, out := t.out } := by rw [h.1, hu]

theorem counted_of_signalled {off n : Nat} {s u t : State} (h : off ≠ halfWord off) (w : W64)
    (hu : u = (s.setReg off (BitVec.ofNat 64 (count40 (s.reg off).toNat n))).setReg (halfWord off) w) (hs : Signalled u t) : Counted off n s t := by
  have e : u = { s with regs := u.regs } := by rw [hu, setReg_eq, setReg_eq s]
  have ep : u.page = s.page := by rw [e]
  have eo : u.out = s.out := by rw [e]
  refine ⟨hs.of_regs e, ?_, ?_, fun k hk => (hs.2.1 k hk).trans (by rw [ep]), by have := hs.2.2; rwa [eo] at this⟩
  · intro k hk
    simp only [List.mem_cons, List.not_mem_nil, or_false, not_or] at hk
    rw [hs.reg, hu, reg_setReg_ne _ _ hk.2, reg_setReg_ne _ _ hk.1]
  · rw [hs.reg, hu, reg_setReg_ne _ _ h, reg_setReg_same]

/-- A count changes its counter, and at half its range the HALF_PENDING bit and the PF's interrupt words. -/
theorem bump_counted (off n : Nat) (s : State) (h : off ≠ halfWord off) : Counted off n s (bump off n s) := by
  unfold bump
  dsimp only
  split
  · exact counted_of_signalled h _ rfl (irq_signalled 3 _ (by decide) (by decide))
  · refine ⟨by unfold State.setReg; rfl, ?_, reg_setReg_same _ _ _, fun _ _ => by rw [setReg_page], [], by rw [setReg_out]; rfl⟩
    intro k hk
    simp only [List.mem_cons, List.not_mem_nil, or_false, not_or] at hk
    exact reg_setReg_ne _ _ hk.1

end Sys2Proof.Machine
end

