-- ==== Sys2Proof/Laws/Guard.lean ====
section
/-! SUPPORT. What a monitor that fires at level 0 or 1 leaves. -/
namespace Sys2Proof.Machine

/-- The frame of a monitor that only warns. -/
def WarnFrame (s t : State) : Prop :=
  t = { s with
    regs := t.regs, page := t.page, out := t.out
    guard := { s.guard with buckets := t.guard.buckets, suppressed := t.guard.suppressed, win := t.guard.win }
    attic := { s.attic with
      evid := t.attic.evid, ring := t.attic.ring, nextSeq := t.attic.nextSeq, evidLost := t.attic.evidLost
      wear := t.attic.wear, spares := t.attic.spares, readonly := t.attic.readonly } }

theorem WarnFrame.trans {s t u : State} (h : WarnFrame s t) (h' : WarnFrame t u) : WarnFrame s u := by
  unfold WarnFrame at *; rw [h', h]

theorem Logged.warnFrame {s t : State} (h : Logged s t) : WarnFrame s t := by
  have e := h.1; unfold WarnFrame; rw [e]

theorem Signalled.warnFrame {s t : State} (h : Signalled s t) : WarnFrame s t := h.logged.warnFrame

theorem Counted.warnFrame {off n : Nat} {s t : State} (h : Counted off n s t) : WarnFrame s t := by
  have e := h.1; unfold WarnFrame; rw [e]

theorem setReg_warnFrame (s : State) (off : Nat) (v : W64) : WarnFrame s (s.setReg off v) := by
  unfold WarnFrame State.setReg; rfl

theorem windowTake_eq (code level : Nat) (s : State) : windowTake code level s = { s with guard := { s.guard with win := (windowTake code level s).guard.win } } := by
  unfold windowTake
  dsimp only
  cases s.guard.win with
  | none => dsimp only; split <;> rfl
  | some w => rfl

theorem takes_congr {code : Nat} {s t : State} (ha : t.attic = s.attic) (hg : t.guard = s.guard) : takes code t = takes code s := by
  simp only [takes, tokens, atticRO, ha, hg]

theorem respond_one (s : State) : respond 1 s = (irq 0 4 (s.setFld Reg.TMP_ALARM Fd.TMP_ALARM_L1 1)).setFld Reg.TMP_STATUS Fd.TMP_STATUS_LEVEL
    (max 1 (levelInForce (irq 0 4 (s.setFld Reg.TMP_ALARM Fd.TMP_ALARM_L1 1)))) := rfl

/-- A monitor at level 0 or 1 whose record the tally takes. -/
theorem trigger_warned {m : Nat} {vals : List Nat} {s : State} (ht : takes (monCode m) s = true) (hl : effective s m ≤ 1) (hm : m < 64) :
    Warned m vals s (trigger m vals s) := by
  have e0 : trigger m vals s = trigger0 m vals s := by unfold trigger; rw [losesEvidence_of_takes ht]; rfl
  rw [e0]
  unfold trigger0
  dsimp only
  have hc := bump_counted Reg.TMP_CNT_TRIGGER 1 (s.setFld Reg.TMP_STATUS Fd.TMP_STATUS_LAST_MONITOR m) (by decide)
  have hs0 : WarnFrame s (s.setFld Reg.TMP_STATUS Fd.TMP_STATUS_LAST_MONITOR m) := setReg_warnFrame _ _ _
  have f0 : (s.setFld Reg.TMP_STATUS Fd.TMP_STATUS_LAST_MONITOR m).fld Reg.TMP_STATUS Fd.TMP_STATUS_LAST_MONITOR = m := by
    rw [fld_setFld_same _ _ _ _ (by decide)]; exact Nat.mod_eq_of_lt hm
  have f1 : (s.setFld Reg.TMP_STATUS Fd.TMP_STATUS_LAST_MONITOR m).fld Reg.TMP_STATUS Fd.TMP_STATUS_LEVEL = levelInForce s :=
    fld_setFld_ne _ _ _ _ _ (by decide)
  have r0 : ∀ k, k ≠ Reg.TMP_STATUS → (s.setFld Reg.TMP_STATUS Fd.TMP_STATUS_LAST_MONITOR m).reg k = s.reg k := fun k hk => reg_setFld_ne _ _ _ hk
  have a0 := setFld_attic s Reg.TMP_STATUS Fd.TMP_STATUS_LAST_MONITOR m
  have g0 := setFld_guard s Reg.TMP_STATUS Fd.TMP_STATUS_LAST_MONITOR m
  generalize s.setFld Reg.TMP_STATUS Fd.TMP_STATUS_LAST_MONITOR m = u at *
  generalize bump Reg.TMP_CNT_TRIGGER 1 u = v at *
  have av : v.attic = s.attic := by rw [hc.1]; exact a0
  have gv : v.guard = s.guard := by rw [hc.1]; exact g0
  have rv : ∀ k, k ∉ [Reg.TMP_CNT_TRIGGER, halfWord Reg.TMP_CNT_TRIGGER] → v.reg k = u.reg k := hc.2.1
  have tv : takes (monCode m) v = true := by rw [takes_congr av gv]; exact ht
  have lg : Logged v (event0 (monCode m) (effective s m) vals v) := event0_logged _ _ _ _
  have rc : Recorded (monCode m) vals v (event0 (monCode m) (effective s m) vals v) := event0_recorded tv
  generalize event0 (monCode m) (effective s m) vals v = w at *
  have rw' : ∀ k, k ∉ tallyRegs → w.reg k = v.reg k := fun k hk => lg.reg hk
  have rc' : Recorded (monCode m) vals s w := by obtain ⟨x, h1, h2, h3, h4⟩ := rc; exact ⟨x, h1, h2, by rw [h3, av], h4⟩
  have fr : WarnFrame s w := hs0.trans (hc.warnFrame.trans lg.warnFrame)
  have c1 : w.reg Reg.TMP_CNT_TRIGGER = BitVec.ofNat 64 (count40 (s.reg Reg.TMP_CNT_TRIGGER).toNat 1) := by
    rw [rw' _ (by decide), hc.2.2.1, r0 _ (by decide)]
  have c2 : w.reg Reg.TMP_STATUS = u.reg Reg.TMP_STATUS := by rw [rw' _ (by decide), rv _ (by decide)]
  have c3 : ∀ k, k ∉ ([Reg.TMP_STATUS, Reg.TMP_ALARM, Reg.TMP_CNT_TRIGGER, halfWord Reg.TMP_CNT_TRIGGER] ++ tallyRegs) → w.reg k = s.reg k := by
    intro k hk
    simp only [List.mem_append, List.mem_cons, List.not_mem_nil, or_false, not_or] at hk
    rw [rw' k hk.2, rv k (by simp [hk.1.2.2]), r0 k hk.1.1]
  rcases Nat.le_one_iff_eq_zero_or_eq_one.1 hl with h0 | h1
  · rw [h0, if_neg (by decide)]
    have : respond 0 w = w := rfl
    rw [this]
    refine ⟨?_, ?_, by omega, c1, rc', c3, fr⟩
    · simp only [State.fld, c2]; exact f0
    · simp only [levelInForce, State.fld, c2] at f1 ⊢; rw [f1, h0]; simp
  · rw [h1, if_pos (by decide)]
    have hw := windowTake_eq (monCode m) 1 w
    have fx : WarnFrame w (windowTake (monCode m) 1 w) := by unfold WarnFrame; rw [hw]
    have ax : (windowTake (monCode m) 1 w).attic = w.attic := by rw [hw]
    have rx : ∀ k, (windowTake (monCode m) 1 w).reg k = w.reg k := fun k => by rw [hw]; rfl
    generalize windowTake (monCode m) 1 w = x at *
    rw [respond_one]
    have hi := irq_signalled 4 (x.setFld Reg.TMP_ALARM Fd.TMP_ALARM_L1 1) (by decide) (by decide)
    have ai := irq_attic 0 4 (x.setFld Reg.TMP_ALARM Fd.TMP_ALARM_L1 1) (by decide) (by decide)
    have fy : WarnFrame x (x.setFld Reg.TMP_ALARM Fd.TMP_ALARM_L1 1) := setReg_warnFrame _ _ _
    have ay := setFld_attic x Reg.TMP_ALARM Fd.TMP_ALARM_L1 1
    have ry : ∀ k, k ≠ Reg.TMP_ALARM → (x.setFld Reg.TMP_ALARM Fd.TMP_ALARM_L1 1).reg k = x.reg k := fun k hk => reg_setFld_ne _ _ _ hk
    have ly : (x.setFld Reg.TMP_ALARM Fd.TMP_ALARM_L1 1).fld Reg.TMP_ALARM Fd.TMP_ALARM_L1 = 1 := fld_setFld_same _ _ _ _ (by decide)
    generalize x.setFld Reg.TMP_ALARM Fd.TMP_ALARM_L1 1 = y at *
    generalize irq 0 4 y = z at *
    have rz : ∀ k, z.reg k = y.reg k := fun k => hi.reg k
    have fz : WarnFrame z (z.setFld Reg.TMP_STATUS Fd.TMP_STATUS_LEVEL (max 1 (levelInForce z))) := setReg_warnFrame _ _ _
    have az := setFld_attic z Reg.TMP_STATUS Fd.TMP_STATUS_LEVEL (max 1 (levelInForce z))
    have zs : z.reg Reg.TMP_STATUS = u.reg Reg.TMP_STATUS := by rw [rz, ry _ (by decide), rx, c2]
    have lz : levelInForce z = levelInForce s := by
      rw [← f1]; simp only [levelInForce, State.fld, zs]
    have l8 : levelInForce z < 8 := Nat.mod_lt _ (by decide)
    refine ⟨?_, ?_, ?_, ?_, ?_, ?_, fr.trans (fx.trans (fy.trans (hi.warnFrame.trans fz)))⟩
    · rw [fld_setFld_ne _ _ _ _ _ (by decide)]; simp only [State.fld, zs]; exact f0
    · unfold levelInForce at *
      rw [fld_setFld_same _ _ _ _ (by decide), h1, ← lz]
      exact Nat.mod_eq_of_lt (by show _ < 8; omega)
    · intro _
      simp only [State.flag]
      rw [fld_setFld_other _ _ _ _ (by decide)]
      simp only [State.fld, rz] at ly ⊢
      rw [ly]; rfl
    · rw [reg_setFld_ne _ _ _ (by decide), rz, ry _ (by decide), rx, c1]
    · obtain ⟨r, h2, h3⟩ := rc'
      refine ⟨r, ?_, h3⟩
      rw [az, ai, ay, ax]; exact h2
    · intro k hk
      have hk' := hk
      simp only [List.mem_append, List.mem_cons, List.not_mem_nil, or_false, not_or] at hk'
      rw [reg_setFld_ne _ _ _ hk'.1.1, rz, ry _ hk'.1.2.1, rx, c3 k hk]

end Sys2Proof.Machine
end

