-- ==== Sys2Proof/Laws/Memory.lean ====
section
/-! SUPPORT. The laws of buffer memory: a read after a write, the bytes a write leaves alone, and the canonical form that every memory operation keeps, with what a check failure leads to. -/
namespace Sys2Proof.Machine

/-! The bytes themselves -/

theorem putBytes_wf (a : Nat) (b : Bytes) (m : List Host.Cell) (h : Memory.wf m = true) : Memory.wf (putBytes a b m) = true := by
  induction b generalizing a m with
  | nil => exact h
  | cons x t ih => exact ih _ _ (tput_wf byte0 m a x h)

theorem zeroRange_wf (lo hi : Nat) (m : List Host.Cell) (h : Memory.wf m = true) : Memory.wf (zeroRange lo hi m) = true := filter_wf byte0 _ m h

/-- A write leaves every byte outside its range alone. -/
theorem putBytes_ne (a k : Nat) (b : Bytes) (m : List Host.Cell) (h : k < a ∨ a + b.length ≤ k) : tget byte0 (putBytes a b m) k = tget byte0 m k := by
  induction b generalizing a m with
  | nil => rfl
  | cons x t ih =>
    rw [List.length_cons] at h
    rw [putBytes, ih _ _ (by omega), tget_tput_ne byte0 m x (by omega)]

/-- A read of a byte just written. -/
theorem putBytes_at (a i : Nat) (b : Bytes) (m : List Host.Cell) (h : i < b.length) : tget byte0 (putBytes a b m) (a + i) = b[i] := by
  induction b generalizing a i m with
  | nil => cases h
  | cons x t ih =>
    cases i with
    | zero => rw [putBytes, putBytes_ne _ _ _ _ (by omega)]; exact tget_tput_same byte0 m a x
    | succ i => rw [putBytes, show a + (i + 1) = a + 1 + i by omega]; simpa using ih (a + 1) i _ (by simpa using h)

theorem memPut_wf (a : Nat) (b : Bytes) (s : State) (h : Memory.wf s.mem.bytes = true) : Memory.wf (memPut a b s).mem.bytes = true := putBytes_wf a b _ h

/-- What was written is read. -/
theorem memBytes_memPut (a : Nat) (b : Bytes) (s : State) : memBytes (memPut a b s) a b.length = b := by
  apply List.ext_getElem
  · simp [memBytes]
  · intro i h _
    simp only [memBytes, List.length_map, List.length_range] at h
    simp only [memBytes, List.getElem_map, List.getElem_range]
    exact putBytes_at a i b _ h

/-- A range that a write does not meet reads as before. -/
theorem memBytes_memPut_ne (a k len : Nat) (b : Bytes) (s : State) (h : k + len ≤ a ∨ a + b.length ≤ k) : memBytes (memPut a b s) k len = memBytes s k len := by
  apply List.map_congr_left
  intro i hi
  have hi := List.mem_range.1 hi
  exact putBytes_ne _ _ _ _ (by omega)

/-- A zeroed range reads as zeros. -/
theorem zeroRange_in (lo hi k : Nat) (m : List Host.Cell) (h : lo ≤ k ∧ k < hi) : tget byte0 (zeroRange lo hi m) k = 0 := by
  induction m with
  | nil => rfl
  | cons e t ih =>
    simp only [zeroRange, List.filter] at ih ⊢
    split
    · next hk =>
      simp only [Bool.or_eq_true, decide_eq_true_eq] at hk
      rw [tget, if_neg (by omega)]; exact ih
    · exact ih

theorem zeroRange_out (lo hi k : Nat) (m : List Host.Cell) (h : k < lo ∨ hi ≤ k) : tget byte0 (zeroRange lo hi m) k = tget byte0 m k := by
  induction m with
  | nil => rfl
  | cons e t ih =>
    simp only [zeroRange, List.filter] at ih ⊢
    split
    · rw [tget, tget, ih]
    · next hk =>
      simp only [Bool.or_eq_false_iff, decide_eq_false_iff_not] at hk
      rw [tget, if_neg (by omega)]; exact ih

theorem reset_mem_wf : Memory.wf State.reset.mem.bytes = true := by decide

/-! What leaves the memory alone -/

theorem foldl_mem {β : Type} (f : State → β → State) (h : ∀ s x, (f s x).mem = s.mem) (l : List β) (s : State) : (l.foldl f s).mem = s.mem := by
  induction l generalizing s with
  | nil => rfl
  | cons x t ih => rw [List.foldl_cons, ih, h]

theorem msixSend_mem (fn v : Nat) (s : State) : (msixSend fn v s).mem = s.mem := by
  unfold msixSend
  split
  · rw [setPg_mem]
  · rw [emit_mem]
theorem irq_mem (fn v : Nat) (s : State) : (irq fn v s).mem = s.mem := by
  have h : ∀ w : W64, (msixSend fn v (s.setPg fn pgCause w)).mem = s.mem := fun w => by rw [msixSend_mem, setPg_mem]
  unfold irq
  dsimp only
  split
  · split
    · exact setPg_mem s fn pgCause (s.pg fn pgCause ||| BitVec.ofNat 64 (2 ^ v))
    · split
      · exact h _
      · exact h _
  · exact h _
theorem halfPending_mem (off : Nat) (s : State) : (halfPending off s).mem = s.mem := by unfold halfPending; dsimp only; rw [irq_mem, setReg_mem]
theorem bump_mem (off n : Nat) (s : State) : (bump off n s).mem = s.mem := by
  unfold bump
  dsimp only
  split
  · rw [halfPending_mem, setReg_mem]
  · exact setReg_mem ..
theorem event0_mem (code level : Nat) (vals : List Nat) (s : State) : (event0 code level vals s).mem = s.mem := (event0_logged ..).mem

theorem portDrop_mem (port reason : Nat) (s : State) : (portDrop port reason s).mem = s.mem := by
  unfold portDrop; split
  · exact bump_mem ..
  · rfl
theorem queueDrop_mem (q reason : Nat) (s : State) : (queueDrop q reason s).mem = s.mem := by unfold queueDrop; exact bump_mem ..

theorem noteStatus_mem (t st : Nat) (s : State) : (noteStatus t st s).mem = s.mem := by unfold noteStatus; split <;> rfl
theorem setForeRegs_mem (t : Nat) (l : List (Nat × W64)) (s : State) : (setForeRegs t l s).mem = s.mem := by
  induction l generalizing s with
  | nil => rfl
  | cons x l ih => rw [setForeRegs, ih]; rfl
theorem answer_mem (t rd : Nat) (st : W64) (res : List (Nat × W64)) (s : State) : (answer t rd st res s).mem = s.mem := by
  unfold answer; rw [noteStatus_mem]; exact setForeRegs_mem t res s
theorem handBack_mem (cells : List Nat) (s : State) : (handBack cells s).mem = s.mem :=
  foldl_mem _ (fun s x => by split <;> rfl) _ _
theorem advanceTail_mem (fn ring off : Nat) (f : Fld) (n : Nat) (s : State) : (advanceTail fn ring off f n s).mem = s.mem := by
  unfold advanceTail; dsimp only; split <;> rfl
theorem writeCpl_mem (fn a b : Nat) (s : State) : (writeCpl fn a b s).mem = s.mem := by
  unfold writeCpl; dsimp only; rw [irq_mem, advanceTail_mem, setPg_mem, setPg_mem]
theorem pushCpl_mem (fn a b : Nat) (s : State) : (pushCpl fn a b s).mem = s.mem := by
  unfold pushCpl; split
  · rfl
  · exact writeCpl_mem ..
theorem finishDeferred_mem (o : OrdReq) (st : Nat) (s : State) : (finishDeferred o st s).mem = s.mem := by
  unfold finishDeferred
  split
  · dsimp only
    split
    · unfold freeUsed; rw [handBack_mem, event0_mem]
    · rw [pushCpl_mem]; unfold freeUsed; rw [handBack_mem, event0_mem]
  · rfl
theorem finishWait_mem (o : OrdReq) (st : Nat) (res : List (Nat × W64)) (s : State) : (finishWait o st res s).mem = s.mem := by
  unfold finishWait endOrder
  split
  · exact answer_mem ..
  · exact finishDeferred_mem ..

theorem retireDone_mem (a i : Nat) (s : State) : (retireDone a i s).mem = s.mem := by
  unfold retireDone; split
  · rw [finishWait_mem]; rfl
  · rfl
theorem leaveInflight_mem (a i : Nat) (s : State) : (leaveInflight a i s).mem = s.mem := by
  unfold leaveInflight drained; dsimp only; split
  · rw [retireDone_mem, event0_mem]; rfl
  · rfl
theorem leaveEpoch_mem (e : Nat) (s : State) : (leaveEpoch e s).mem = s.mem := by
  unfold leaveEpoch epochFreed; split
  · exact event0_mem ..
  · rfl
theorem releaseKey_mem (it : Item) (s : State) : (releaseKey it s).mem = s.mem := by unfold releaseKey; split <;> rfl
theorem releaseCounts_mem (it : Item) (s : State) : (releaseCounts it s).mem = s.mem := by
  unfold releaseCounts
  dsimp only
  rw [leaveEpoch_mem]
  split
  · split
    · exact leaveInflight_mem ..
    · rfl
  · rfl
theorem squelchWaiting_mem (it : Item) (s : State) : (squelchWaiting it s).mem = s.mem := by
  unfold squelchWaiting
  dsimp only
  split
  · rw [queueDrop_mem, portDrop_mem]
  · exact portDrop_mem ..
theorem squelchItem_mem (s : State) (e : Nat × Option Item) : (squelchItem s e).mem = s.mem := by
  unfold squelchItem
  split
  · split
    · exact releaseKey_mem ..
    · dsimp only
      split <;> simp only [squelchWaiting_mem, releaseCounts_mem, releaseKey_mem]
  · rfl
theorem loadUnit_mem (g : Nat) (s : State) : (loadUnit g s).mem = s.mem := by unfold loadUnit; split <;> rfl
theorem squelchUnits_mem (s : State) : (squelchUnits s).mem = s.mem := by
  unfold squelchUnits
  dsimp only
  rw [foldl_mem _ (fun _ _ => loadUnit_mem _ _)]
  exact foldl_mem _ (fun s e => by unfold unfetchRest; split <;> rfl) _ _
theorem squelchItems_mem (s : State) : (squelchItems s).mem = s.mem := by
  unfold squelchItems
  dsimp only
  rw [foldl_mem _ (fun s it => squelchWaiting_mem it s), foldl_mem _ (fun s it => squelchWaiting_mem it s), squelchUnits_mem, foldl_mem _ squelchItem_mem]
theorem squelchFrame_mem (q : Nat) (s : State) (f : QFrame) : (squelchFrame q s f).mem = s.mem := by unfold squelchFrame; rw [queueDrop_mem, portDrop_mem]
theorem squelchQueue_mem (s : State) (e : Nat × Queue) : (squelchQueue s e).mem = s.mem := foldl_mem _ (squelchFrame_mem e.1) _ _
theorem squelchEgress_mem (s : State) (e : Nat × Egress) : (squelchEgress s e).mem = s.mem := by
  unfold squelchEgress
  dsimp only
  split
  · unfold endCut; exact bump_mem ..
  · rfl
theorem squelchGate_mem (s : State) (e : Nat × Option GEntry) : (squelchGate s e).mem = s.mem := by
  unfold squelchGate; split
  · rw [queueDrop_mem, portDrop_mem]
  · rfl
theorem squelchCopy_mem (s : State) (x : XcCopy) : (squelchCopy s x).mem = s.mem := by
  unfold squelchCopy
  dsimp only
  split
  · rw [queueDrop_mem, portDrop_mem]
  · exact portDrop_mem ..
theorem trunksDown_mem (s : State) : (trunksDown s).mem = s.mem :=
  foldl_mem _ (fun s n => by split <;> first | exact event0_mem .. | rfl) _ _
theorem countMany_mem (port n : Nat) (s : State) : (countMany port n s).mem = s.mem := foldl_mem _ (fun _ _ => portDrop_mem ..) _ _
theorem squelchLfr_mem (s : State) : (squelchLfr s).mem = s.mem := by
  unfold squelchLfr
  dsimp only
  rw [foldl_mem squelchRx (fun _ _ => countMany_mem ..), foldl_mem squelchTx (fun _ _ => countMany_mem ..)]

/-- Stopping traffic leaves the memory's contents alone (R29: they become unreachable). -/
theorem stopTraffic_mem (deep : Bool) (s : State) : (stopTraffic deep s).mem = s.mem := by
  unfold stopTraffic
  dsimp only
  have e : ∀ t : State, (idleLanes deep t).mem = t.mem := fun _ => rfl
  rw [e, trunksDown_mem, squelchLfr_mem, foldl_mem _ squelchCopy_mem, foldl_mem _ squelchGate_mem, foldl_mem _ squelchEgress_mem, foldl_mem _ squelchQueue_mem, squelchItems_mem]

/-! The canonical form under everything a memory access can lead to -/

/-- The canonical form is kept. -/
abbrev KeepsForm (s t : State) : Prop := Memory.wf s.mem.bytes = true → Memory.wf t.mem.bytes = true

theorem keeps_of_mem {s t : State} (h : t.mem = s.mem) : KeepsForm s t := by intro w; rw [h]; exact w

theorem unfetchJob_mem (b : Job) (s : State) : (unfetchJob b s).mem = s.mem := by unfold unfetchJob; dsimp only; split <;> rfl
theorem leaveUnit_mem (g : Nat) (w : Work) (next : Option Work) (s : State) : (leaveUnit g w next s).mem = s.mem := by
  unfold leaveUnit; split
  · rw [loadUnit_mem]; rfl
  · rfl
theorem abortJob_keeps (s : State) (b : Job) : KeepsForm s (abortJob s b) := by
  intro w
  unfold abortJob
  dsimp only
  have hz : Memory.wf (zeroOut b.fn b.j (unfetchJob b (leaveUnit b.gal (.job b.fn b.j) none s))).mem.bytes = true :=
    zeroRange_wf _ _ _ (by rw [unfetchJob_mem, leaveUnit_mem]; exact w)
  split
  · unfold jobSilent
    dsimp only
    rw [setPg_mem, setPg_mem, handBack_mem]; exact hz
  · unfold jobEnd
    dsimp only
    rw [irq_mem, handBack_mem, bump_mem]; exact hz
theorem abortJobs_keeps (s : State) : KeepsForm s (abortJobs s) := by
  intro w
  unfold abortJobs
  dsimp only
  have hw : Memory.wf ({ s with gal := { s.gal with jobs := [] } } : State).mem.bytes = true := w
  generalize ({ s with gal := { s.gal with jobs := [] } } : State) = u at hw
  generalize s.gal.jobs = l
  induction l generalizing u with
  | nil => exact hw
  | cons b l ih => exact ih _ (abortJob_keeps u b hw)

/-- Entry to Recovery leaves no byte listed. -/
theorem enterRecovery_bytes (s : State) : (enterRecovery s).mem.bytes = [] := by
  have h : (recoveryRegs (freshLanding (setDomains 8 72 0 s))).mem.bytes = [] := by unfold recoveryRegs; rfl
  unfold enterRecovery
  dsimp only
  split
  · exact h
  · rw [event0_mem]; exact h
theorem halt_keeps (level : Nat) (s : State) : KeepsForm s (halt level s) := by
  intro _; unfold halt; rw [enterRecovery_bytes]; rfl
theorem respond_keeps (level : Nat) (s : State) : KeepsForm s (respond level s) := by
  intro w
  unfold respond
  split
  · exact w
  · dsimp only
    have hi : ∀ u : State, (irq 0 4 u).mem = u.mem := irq_mem 0 4
    split
    · rw [setFld_mem, hi, setFld_mem]; exact w
    · split
      · refine abortJobs_keeps _ ?_
        rw [stopTraffic_mem, setFld_mem, setFld_mem, hi, setFld_mem]; exact w
      · refine halt_keeps _ _ ?_
        rw [setFld_mem, setFld_mem, hi, setFld_mem]; exact w
theorem trigger0_keeps (m : Nat) (vals : List Nat) (s : State) : KeepsForm s (trigger0 m vals s) := by
  intro w
  unfold trigger0
  dsimp only
  refine respond_keeps _ _ ?_
  have h : (event0 (monCode m) (effective s m) vals (bump Reg.TMP_CNT_TRIGGER 1 (s.setFld Reg.TMP_STATUS Fd.TMP_STATUS_LAST_MONITOR m))).mem = s.mem := by
    rw [event0_mem, bump_mem, setFld_mem]
  split
  · have e : ∀ c l (u : State), (windowTake c l u).mem = u.mem := by
      intro c l u; unfold windowTake; dsimp only; split
      · rfl
      · split <;> rfl
    rw [e, h]; exact w
  · rw [h]; exact w
theorem trigger_keeps (m : Nat) (vals : List Nat) (s : State) : KeepsForm s (trigger m vals s) := by
  intro w
  unfold trigger
  split
  · exact trigger0_keeps _ _ _ (trigger0_keeps _ _ _ w)
  · exact trigger0_keeps _ _ _ w
theorem event_keeps (code : Nat) (vals : List Nat) (s : State) : KeepsForm s (event code vals s) := by
  intro w
  unfold event
  split
  · exact trigger0_keeps _ _ _ (by rw [event0_mem]; exact w)
  · rw [event0_mem]; exact w

theorem setSector_keeps (n : Nat) (x : Sector) (s : State) : KeepsForm s (setSector n x s) := fun w => w
theorem withhold_keeps (n : Nat) (s : State) : KeepsForm s (withhold n s) := by
  intro w
  unfold withhold
  dsimp only
  split
  · rw [bump_mem]; exact w
  · exact w
theorem poisonToken_mem (n : Nat) (s : State) : (poisonToken n s).mem = s.mem := by unfold poisonToken; split <;> rfl
theorem checkFail_keeps (n : Nat) (s : State) : KeepsForm s (checkFail n s) := by
  intro w
  unfold checkFail
  dsimp only
  refine trigger_keeps _ _ _ (withhold_keeps _ _ ?_)
  rw [poisonToken_mem, bump_mem, setFld_mem]; exact w
theorem readSector_keeps (n : Nat) (ecc : Ecc) (s : State) : KeepsForm s (readSector n ecc s).2 := by
  intro w
  unfold readSector
  split
  · exact keeps_of_mem (bump_mem ..) w
  · split
    · exact w
    · cases ecc with
      | bad => exact checkFail_keeps _ _ w
      | _ => exact w
theorem fullWrite_keeps (n : Nat) (s : State) : KeepsForm s (fullWrite n s) := by intro w; unfold fullWrite; exact w
theorem writeBack_keeps (o : OpenSec) (ecc : Ecc) (s : State) : KeepsForm s (writeBack o ecc s) := by
  intro w
  unfold writeBack
  dsimp only
  split
  · exact fullWrite_keeps _ _ w
  · have h := readSector_keeps o.cell ecc (bump Reg.MEM_CNT_PARTIAL 1 { s with mem := { s.mem with opens := s.mem.opens.erase o } }) (by rw [bump_mem]; exact w)
    split
    · exact fullWrite_keeps _ _ h
    · exact h
theorem makeRoom_keeps (n : Nat) (ecc : Ecc) (s : State) : KeepsForm s (makeRoom n ecc s) := by
  intro w
  unfold makeRoom
  dsimp only
  split
  · exact w
  · split
    · exact writeBack_keeps _ _ _ w
    · exact w
theorem touch_keeps (n off len : Nat) (ecc : Ecc) (s : State) : KeepsForm s (touch n off len ecc s) := by
  intro w
  unfold touch
  split
  · dsimp only
    split
    · exact writeBack_keeps _ _ _ (by rw [bump_mem]; exact w)
    · rw [bump_mem]; exact w
  · exact makeRoom_keeps n ecc s w
theorem mayWrite_mem (n len : Nat) (s : State) : (mayWrite n len s).2.mem = s.mem := by
  unfold mayWrite
  dsimp only
  generalize keyHeld s _ _ = b
  cases b
  · exact bump_mem ..
  · rfl
theorem touchCell_keeps (n off len : Nat) (ecc : Ecc) (s : State) : KeepsForm s (touchCell n off len ecc s) := by
  unfold touchCell
  split
  · exact fullWrite_keeps _ _
  · exact touch_keeps _ _ _ _ _
theorem writeCell_keeps (a : Nat) (b : Bytes) (ecc : Ecc) (s : State) : KeepsForm s (writeCell a b ecc s).2 := by
  intro w
  unfold writeCell
  have h : Memory.wf (mayWrite (a / 256) b.length s).2.mem.bytes = true := by rw [mayWrite_mem]; exact w
  dsimp only
  split
  · exact touchCell_keeps _ _ _ _ _ (memPut_wf a b _ h)
  · exact h
theorem writeRange_keeps (fuel a : Nat) (b : Bytes) (ecc : Ecc) (s : State) : KeepsForm s (writeRange fuel a b ecc s).2 := by
  intro w
  induction fuel generalizing a b s with
  | zero => exact w
  | succ n ih =>
    unfold writeRange
    split
    · exact w
    · dsimp only
      split
      · exact ih _ _ _ (writeCell_keeps _ _ _ _ w)
      · exact writeCell_keeps _ _ _ _ w

/-- Every write of a byte range keeps the canonical form. -/
theorem memWrite_keeps (a : Nat) (b : Bytes) (ecc : Ecc) (s : State) : KeepsForm s (memWrite a b ecc s).2 := writeRange_keeps _ _ _ _ _

/-- Zero sectors keep the canonical form. -/
theorem zeroSectors_keeps (a len : Nat) (s : State) : KeepsForm s (zeroSectors a len s) := by
  intro w
  unfold zeroSectors
  refine zeroRange_wf _ _ _ ?_
  generalize cellsOf a len = l
  induction l generalizing s with
  | nil => exact w
  | cons n l ih => exact ih _ (fullWrite_keeps _ _ w)

/-- The end of a walk keeps the canonical form. -/
theorem walkEnd_keeps (i : Nat) (s : State) : KeepsForm s (walkEnd i s) := by
  intro w
  unfold walkEnd showWalks
  dsimp only
  split <;> exact w

end Sys2Proof.Machine
end

