-- ==== Sys2Proof/Laws/Niano.lean ====
section
/-! SUPPORT. What a bundle does: one lemma for the path of every Niano command, and what threads read after a write. -/
namespace Sys2Proof.Machine

theorem Ready.ctx {who : Thr} {gd : Prd} {c : Ctx} {s : State} (h : Ready who gd c s) : ctxOf who s = some c := h.1

/-- The context of a thread that may issue: itself, its thread and the state. -/
theorem ctxOf_some {who : Thr} {s : State} {c : Ctx} (h : ctxOf who s = some c) : c.who = who ∧ c.h = threadOf s who ∧ c.s = s := by
  unfold ctxOf at h
  split at h
  · split at h
    · split at h
      · split at h
        · cases h; exact ⟨rfl, rfl, rfl⟩
        · cases h
      · cases h
    · cases h
  · split at h
    · dsimp only at h
      split at h
      · split at h
        · cases h; exact ⟨rfl, rfl, rfl⟩
        · cases h
      · cases h; exact ⟨rfl, rfl, rfl⟩
    · cases h

/-- Slot A of a ready bundle faults: it does so before slot B has any effect (R173). -/
theorem issue_fault {i : Instr} {who : Thr} {gd : Prd} {c : Ctx} {s : State} {a : Ctx → Res'} {b : SlotB} {code : Nat} {arg : W64} {post : State → State}
    (h : Ready who gd c s) (hi : spells c i b = true) (ha : a c = .fault code arg post) : issue i who gd a b s = takeFault c 0 code arg (post s) := by
  obtain ⟨h1, h2, h3⟩ := h
  simp only [issue, h1, hi, bundle, h2, guarded, h3, ha, if_true]
  rfl

/-- Slot A of a ready bundle has its effect while slot B holds NOP. -/
theorem issue_ok {i : Instr} {who : Thr} {gd : Prd} {c : Ctx} {s : State} {a : Ctx → Res'} {e : Eff}
    (h : Ready who gd c s) (hi : spells c i slotNop = true) (ha : a c = .ok e) : issue i who gd a slotNop s = commit c e noEff s := by
  obtain ⟨h1, h2, h3⟩ := h
  rw [slotNop] at hi
  simp only [issue, h1, hi, bundle, h2, guarded, h3, ha, if_true, slotNop, sopRes]
  simp [Thread.p]

/-- A bundle that only writes registers. -/
theorem commit_regs (c : Ctx) (l : List (Nat × W64)) (s : State) : commit c { noEff with regs := l } noEff s = setThread c.who (stepped (writeRegs l c.h)) s := rfl

theorem setG_regs (h : Thread) (r : Nat) (v : W64) : h.setG r v = { h with regs := (h.setG r v).regs } := by
  unfold Thread.setG; split <;> rfl

theorem g_setG (h : Thread) (r k : Nat) (v : W64) : (h.setG r v).g k = if k = r ∧ k ≠ 0 then v else h.g k := by
  unfold Thread.setG Thread.g
  by_cases hk : k = 0
  · simp [hk]
  · by_cases hr : r = 0
    · subst hr; simp [hk]
    · simp only [hk, hr, if_false, ne_eq, not_false_eq_true, and_true]
      split
      · rename_i e; subst e; exact tget_tput_same _ _ _ _
      · rename_i e; exact tget_tput_ne _ _ _ e

/-- A bundle that writes one register. -/
theorem wroteReg {c : Ctx} {rd : Reg} {v : W64} {s : State} : WroteReg c rd v s (commit c { noEff with regs := [(rd.val, v)] } noEff s) := by
  refine ⟨c.h.setG rd.val v, commit_regs _ _ _, setG_regs _ _ _, fun r => ?_⟩
  rw [g_setG]
  congr 1
  exact propext ⟨fun h => ⟨Fin.ext h.1, fun e => h.2 (by simp [e])⟩, fun h => ⟨by rw [h.1], fun e => h.2 (Fin.ext e)⟩⟩

end Sys2Proof.Machine
end

