-- ==== Sys2Proof/Laws/Order.lean ====
section
/-! SUPPORT. What an accepted order does: its body runs on the state it begins from, and the body's end is the order's. -/
namespace Sys2Proof.Machine

theorem noteOrder_eq (q : OrdReq) (s : State) : noteOrder q s = { s with fore := { s.fore with running := (noteOrder q s).fore.running } } := by
  unfold noteOrder setRunning; split <;> rfl

/-- Noting an order and its cells changes the foreman's running programs only. -/
theorem begun_eq (q : OrdReq) (s : State) : begun q s = { s with fore := { s.fore with running := (begun q s).fore.running } } := by
  have h : ∀ u : State, useCells q.t (orderCells q s) u = { u with fore := { u.fore with running := (useCells q.t (orderCells q s) u).fore.running } } := by
    intro u; unfold useCells setRunning; split <;> rfl
  unfold begun
  rw [h, noteOrder_eq]

theorem orderCells_congr (q : OrdReq) {s t : State} (hr : t.regs = s.regs) (hh : t.host = s.host) : orderCells q t = orderCells q s := by
  have r : ∀ k, t.reg k = s.reg k := fun k => by unfold State.reg; rw [hr]
  have h1 : cellBase t q.fn = cellBase s q.fn := by unfold cellBase State.fld; rw [r]
  have h2 : cellCount t q.fn = cellCount s q.fn := by unfold cellCount State.fld; rw [r]
  have h : ownsCell t q.fn = ownsCell s q.fn := by funext c; unfold ownsCell; rw [h1, h2]
  simp only [orderCells, ownCells, tokenOf, h, hh]

/-- An accepted order is performed on the state it begins from. -/
theorem orderRow_accepted {code : Nat} {body : OrdBody} {o : OrdBy} {args : List W64} {s : State} (h : Accepted (ordered code o args s) s) :
    orderRow code body o args s = perform body (ordered code o args s) (begun (ordered code o args s) s) := by
  obtain ⟨h1, h2, h3, h4, h5, -, -, -⟩ := h
  have ht : (ordered code o args s).t = o.t.val := by unfold ordered requestBy request; split <;> rfl
  rw [ht] at h1 h2
  unfold orderRow
  rw [if_pos h1, h2, if_neg Bool.false_ne_true]
  unfold ordered at *
  generalize requestBy code args o s = q at *
  have e := noteOrder_eq q s
  have hb := begun_eq q s
  have c1 : stateAllows q (noteOrder q s) = true := by rw [e]; exact h3
  have c2 : accessDenies q (noteOrder q s) = none := by rw [e]; exact h4
  have c3 : orderCells q (noteOrder q s) = orderCells q s := by rw [e]; exact orderCells_congr q rfl rfl
  have c4 : inCaution (begun q s) = inCaution s := by rw [hb]; rfl
  unfold submit
  dsimp only
  rw [c1, c2, c3]
  change (if (inCaution (begun q s) && heldInCaution q.code) = true then _ else perform body q (begun q s)) = _
  rw [c4, if_neg]
  rcases h5 with h5 | h5 <;> simp [h5]

/-- What a body answers is what an accepted order's guarded body answers. -/
theorem guardedBody_accepted {q : OrdReq} {body : OrdBody} {s : State} (h : Accepted q s) : guardedBody body q (begun q s) = body q (begun q s) := by
  obtain ⟨-, -, -, -, -, h6, h7, h8⟩ := h
  have hb := begun_eq q s
  have c1 : roleRefuses q (begun q s) = none := by rw [hb]; exact h6
  have c2 : resyncDefers q (begun q s) = false := by rw [hb]; exact h7
  have c3 : isActive (begun q s) = false := by rw [hb]; exact h8
  unfold guardedBody
  rw [c1]
  dsimp only
  rw [c2, if_neg Bool.false_ne_true]
  split
  · next hx => rw [hx, c3]; simp
  · rfl

/-- An accepted order whose body is done ends with its status and results. -/
theorem orderRow_done {code : Nat} {body : OrdBody} {o : OrdBy} {args : List W64} {s u : State} {st : Nat} {rs : List (Nat × W64)}
    (h : Accepted (ordered code o args s) s) (hb : body (ordered code o args s) (begun (ordered code o args s) s) = (.done st rs, u)) :
    orderRow code body o args s = orderEnds (ordered code o args s) st rs u := by
  have ht : (ordered code o args s).t = o.t.val := by unfold ordered requestBy request; split <;> rfl
  rw [orderRow_accepted h]
  unfold perform
  rw [guardedBody_accepted h, hb]
  dsimp only
  unfold endOrder orderEnds
  rw [if_pos (by rw [ht]; exact o.t.isLt)]

/-- An accepted order whose body goes on leaves its thread waiting. -/
theorem orderRow_wait {code : Nat} {body : OrdBody} {o : OrdBy} {args : List W64} {s u : State}
    (h : Accepted (ordered code o args s) s) (hb : body (ordered code o args s) (begun (ordered code o args s) s) = (.wait, u)) :
    orderRow code body o args s = waiting (ordered code o args s) u := by
  rw [orderRow_accepted h]
  unfold perform
  rw [guardedBody_accepted h, hb]
  rfl

/-- An accepted order that meets a claim ends with BUSY and names its holder. -/
theorem orderRow_busy {code : Nat} {body : OrdBody} {o : OrdBy} {args : List W64} {s u : State} {c : Claim}
    (h : Accepted (ordered code o args s) s) (hb : body (ordered code o args s) (begun (ordered code o args s) s) = (.busy c, u)) :
    orderRow code body o args s = answer (ordered code o args s).t (ordered code o args s).rd (busyWord c) [] u := by
  have ht : (ordered code o args s).t = o.t.val := by unfold ordered requestBy request; split <;> rfl
  rw [orderRow_accepted h]
  unfold perform
  rw [guardedBody_accepted h, hb]
  dsimp only
  unfold endOrder
  rw [if_pos (by rw [ht]; exact o.t.isLt)]

end Sys2Proof.Machine
end

