-- ==== Sys2Proof/Laws/Recovery.lean ====
section
/-! SUPPORT. What entry to Recovery leaves (R445). -/
namespace Sys2Proof.Machine

theorem onlyIf_true {f : State → State} {s : State} {b : Bool} (h : b = true) : onlyIf b f s = f s := by simp [onlyIf, h]

theorem live_on {s : State} (h : s.live = true) : s.mainOn = true := by simp [State.live] at h; exact h.1

theorem setDomains_eq (lo n st : Nat) (s : State) : setDomains lo n st s = { s with regs := (setDomains lo n st s).regs } := by
  unfold setDomains
  generalize List.range n = l
  induction l generalizing s with
  | nil => rfl
  | cons a l ih => rw [List.foldl_cons, ih]; rfl

theorem freshLanding_eq (s : State) : freshLanding s = { s with draws := s.draws + 2, mem := (freshLanding s).mem, vault := { s.vault with memKeys := (freshLanding s).vault.memKeys, checkKey := (freshLanding s).vault.checkKey, checkPresent := true } } := by
  unfold freshLanding; rfl
theorem freshLanding_bytes (s : State) : (freshLanding s).mem.bytes = [] := by unfold freshLanding; rfl


theorem recoveryRegs_eq (s : State) : recoveryRegs s = { s with regs := (recoveryRegs s).regs } := by
  unfold recoveryRegs; unfold State.setFld; rw [setReg_eq, setReg_eq (State.setReg ..), setReg_eq s]
theorem recoveryRegs_mode (s : State) : (recoveryRegs s).mode = 4 := by
  unfold recoveryRegs State.mode State.fld
  rw [reg_setReg_ne _ _ (by decide), reg_setFld_ne _ _ _ (by decide), reg_setFld_same]
  exact fget_fset_same _ _ _ (by decide)

/-- What entering Recovery leaves alone, besides what recording its event changes. -/
theorem enterRecovery_logged (s : State) : Logged (recoveryRegs (freshLanding (setDomains 8 72 0 s))) (enterRecovery s) := by
  unfold enterRecovery
  dsimp only
  split
  · exact .refl _
  · exact event0_logged _ _ _ _

theorem recovery_eq (s : State) : ∃ r m k c, recoveryRegs (freshLanding (setDomains 8 72 0 s)) =
    { s with regs := r, mem := m, draws := s.draws + 2, vault := { s.vault with memKeys := k, checkKey := c, checkPresent := true } } ∧ m.bytes = [] := by
  refine ⟨(recoveryRegs (freshLanding (setDomains 8 72 0 s))).regs, (freshLanding (setDomains 8 72 0 s)).mem, (freshLanding (setDomains 8 72 0 s)).vault.memKeys,
    (freshLanding (setDomains 8 72 0 s)).vault.checkKey, (recoveryRegs_eq _).trans ?_, freshLanding_bytes _⟩
  generalize (recoveryRegs (freshLanding (setDomains 8 72 0 s))).regs = r
  have e2 := freshLanding_eq (setDomains 8 72 0 s)
  have e3 := setDomains_eq 8 72 0 s
  generalize setDomains 8 72 0 s = x at *
  generalize freshLanding x = f at *
  rw [e2, e3]

end Sys2Proof.Machine
end

