-- ==== Sys2Proof/Tests/Slice0.lean ====
section
/-! SUPPORT. For every statement with hypotheses, states and operands that meet them, clause by clause at the edges of their ranges; and small checks of single steps against the spec's own figures. -/
namespace Sys2Proof.Tests
open Sys2Proof Sys2Proof.Machine
set_option Elab.async false

/-! Small states -/

/-- Fields of a state set one after the other. -/
def setAll (l : List (Nat × Fld × Nat)) (s : State) : State := l.foldl (fun s x => s.setFld x.1 x.2.1 x.2.2) s

/-- The part in Service with its memory keys. -/
def svc : State :=
  let s := State.reset.setFld Reg.PWR_STATUS Fd.PWR_STATUS_MODE 2
  { s with mem := { s.mem with noKey := false }, vault := { s.vault with memPresent := true, checkPresent := true } }
/-- In Service and Deployed, where the floors are those of Table 16.2's second column. -/
def dep : State := { svc with attic := { svc.attic with lifecycle := 2 } }
/-- In Service under the caution state since 1 ms. -/
def cau : State :=
  let s := svc.setFld Reg.TMP_STATUS Fd.TMP_STATUS_CAUTION 1
  { s with time := { s.time with up := 1000000 } }
/-- A window that opened 1 us ago with keys erased. -/
def win3 : State :=
  let s : State := { svc with time := { svc.time with up := 1000 } }
  { s with guard := { s.guard with win := some ⟨0, 3, [Ev.SHADOW_MISMATCH], 1, 0x33, 0x33, 0, 0⟩ } }

/-! ## Witnesses -/

theorem witness_StepAndTick :
    ({ svc with pending := [.vbatLow] } : State).pending = .vbatLow :: [] ∧ svc.pending = [] ∧ twinOn svc = false ∧
    svc.mem.walks = [] ∧ svc.gal.ctxs = [] ∧ svc.time.freq = 0 ∧ svc.time.slew = 0 ∧ svc.time.frac < fracUnit ∧ svc.time.now + 8 < 2 ^ 64 ∧
    ({ svc.lamp with rtcRun := false } : Lamp).rtcRun = false := by decide

theorem witness_MonitorWarns :
    svc.live = true ∧ (∀ m ∈ [1, 2, 3, 4, 5, 7, 8, 9, 10, 11, 12, 0x13, 0x16, 0x17], takes (monCode m) svc = true ∧ effective svc m ≤ 1) ∧
    (2 ≤ 2 ∧ 2 < 1000 ∧ 2 ≤ 999 ∧ 999 < 1000) ∧ ({ svc.lamp with onVbat := true } : Lamp).onVbat = true ∧
    (∀ k : Fin 4, loopOn ({ svc with lamp := { svc.lamp with cfg := 0xFF } } : State) k.val = true) ∧
    (inCaution cau = true ∧ cau.guard.cautionLong = false ∧ cau.guard.dipStart + 1000000 ≤ cau.time.up ∧ takes (monCode 1) cau = true ∧ effective cau 1 ≤ 1) ∧
    svc.lamp.rtcRun = true ∧ svc.mode = 2 ∧ ({ svc.fore with pkeOk := true } : Foreman).pkeOk = true := by decide

theorem witness_MonitorResponses :
    (svc.live = true ∧ foreOn svc = true ∧ losesEvidence (monCode 0x0E) svc = false ∧ losesEvidence (monCode 0x0D) svc = false) ∧
    (dep.live = true ∧ 3 ≤ effective dep 4 ∧ losesEvidence (monCode 4) dep = false ∧ 3 ≤ effective dep 8 ∧ losesEvidence (monCode 8) dep = false) ∧
    (let s := setAll [(Reg.TMP_LEVEL 6, Fd.TMP_LEVEL_LEVEL, 3), (Reg.TMP_LEVEL 0x10, Fd.TMP_LEVEL_LEVEL, 3)] svc;
      effective s 6 = 3 ∧ losesEvidence (monCode 6) s = false ∧ effective s 0x10 = 3 ∧ losesEvidence (monCode 0x10) s = false) ∧
    (svc.gal = { svc.gal with items := [], backlog := [], parked := [], threads := [], jobs := [] } ∧ svc.wnd.queues = [] ∧ svc.wnd.egress = [] ∧
      svc.gate.entries = [] ∧ svc.lfr.txTribs = [] ∧ svc.lfr.rxTribs = [] ∧ effective svc 6 = 2 ∧ takes (monCode 6) svc = true ∧
      effective svc 0x10 = 2 ∧ takes (monCode 0x10) svc = true ∧ effective svc 0x0F ≤ 2 ∧ takes (monCode 0x0F) svc = true ∧ svc.twin.xcBuf = [] ∧ svc.gal.ctxs = [] ∧ svc.gal.unitQ = [] ∧
      (∀ n, n < 16 → svc.flag (Reg.LFR_TRUNK_STATUS n) Fd.LFR_TRUNK_STATUS_UP = false)) ∧
    (stackOf (0 : Fin 134217728).val = (0 : Fin 2).val ∧ stackOf (134217727 : Fin 134217728).val = (1 : Fin 2).val ∧ atticRO svc 1 = false ∧ svc.attic.spares < 256 ∧ svc.attic.evid.length < 16380 ∧ svc.attic.ring.length < 65530) := by decide

theorem witness_GuardCommands :
    (svc.live = true ∧ (∀ r : Fin 8, r.val ≠ 8) ∧ inCaution svc = false) ∧
    (inCaution cau = true ∧ cau.guard.dipStart + 10000 ≤ cau.time.up ∧ cau.guard.held = [] ∧ takes Ev.SUPPLY_DIP cau = true) ∧
    (∃ w, win3.guard.win = some w ∧ w.erased ≠ 0 ∧ w.start + 1000 ≤ win3.time.up ∧ takes Ev.ALARM win3 = true ∧ win3.live = true) ∧
    (let s : State := { svc.setFld Reg.TMP_STATUS Fd.TMP_STATUS_SQUELCH 1 with time := { svc.time with up := 10000000 } };
      s.live = true ∧ squelched s = true ∧ s.guard.halted = 0 ∧ s.guard.l2At + 10000000 ≤ s.time.up ∧ takes Ev.ALARM_CLEARED s = true ∧ ∀ L, L < 64 → laneUp s L = false) ∧
    (let s := { svc.setFld Reg.TMP_ALARM Fd.TMP_ALARM_L1 1 with host := { svc.host with access := [(0x3E * 32, 2)] } };
      s.flag Reg.TMP_ALARM Fd.TMP_ALARM_L1 = true ∧ squelched s = false ∧ s.guard.halted = 0 ∧ hostMayWrite s Reg.TMP_ALARM = true ∧
      takes Ev.ALARM_CLEARED s = true ∧ ∀ m ∈ [(9 : Fin 32), 31], effective s m.val = 0) ∧
    (let s : State := { svc with guard := { svc.guard with buckets := [(Ev.TEMP_WARN, 0)] } };
      s.live = true ∧ tokens s Ev.TEMP_WARN < s.fld Reg.TLY_CFG Fd.TLY_CFG_BURST) := by
  refine ⟨by decide, by decide, ⟨_, rfl, by decide⟩, by decide, by decide, by decide⟩

/-! Niano -/

/-- An item of client port 3 that a thread of gallery 5 runs: 64 bytes, bound for line port 2. -/
def fr : Item := { newItem 3 3 (zeros 64) 0 with gal := 5, st := .running 2, target := 34, queue := 272, tag := 0, loaded := 64 }
def im1 : Image := ⟨[0, 0, 0, 0, 0, 1], [(0, 0), (0, 0), (0, 0)], 7⟩
/-- Thread 2 of gallery 5 with an item: g1 holds 1, g2 2 ^ 63, g3 2 ^ 60; 64 bytes in its window. -/
def gth : Thread := { thread0 0 with regs := [(1, 1), (2, 0x8000000000000000), (3, 0x1000000000000000), (4, 0x40000), (5, 272), (6, 256), (7, 65)], tag := some 0, win := zeros 64, wlen := 64 }
def galSt (it : Item) (h : Thread) : State :=
  let s := svc.setReg Reg.GAL_ONLINE 0x20
  { s with gal := { s.gal with items := [(0, some it)], threads := [(82, h)], images := [(0, some im1)] } }
def gst : State := galSt fr gth
def who0 : Thr := .gal 5 2

/-- The context of that thread. -/
def gctx : Ctx := ⟨who0, gth, some fr, gst⟩

/-- A context that is ready, with a property. -/
theorem ready_of {who : Thr} {gd : Prd} {s : State} {P : Ctx → Bool}
    (h : (match ctxOf who s with | some c => !beyond c && c.h.p gd.val && P c | none => false) = true) : ∃ c, Ready who gd c s ∧ P c = true := by
  cases hc : ctxOf who s with
  | none => rw [hc] at h; exact absurd h (by simp)
  | some c =>
    rw [hc] at h
    simp only [Bool.and_eq_true, Bool.not_eq_true'] at h
    exact ⟨c, ⟨rfl.trans hc, h.1.1, h.1.2⟩, h.2⟩

theorem witness_BundleIssue :
    (bundleCmd (.nop who0 0 slotNop) = some (who0, 0, slotNop) ∧ legalDrop (.dropEnd who0 0 0x11 0xEF slotNop) = true ∧ ctxOf who0 svc = none) ∧
    (∃ c, Ready who0 0 c gst ∧ (c.h.p 1 == false && c.h.p 7 == false) = true) ∧
    ((match ctxOf who0 (galSt fr { gth with pc := 3 }) with | some c => beyond c | none => false) = true) ∧
    (let a : SOp := .addi 4 1 5; let o : SOp := .addi 5 1 6;
      readsSpecial a = false ∧ readsSpecial o = false ∧ bundle gctx 0 (sopRes 0 a) slotNop gst = setThread who0 (stepped (gth.setG 4 6)) gst ∧
      bundle gctx 0 (sopRes 0 o) slotNop gst = setThread who0 (stepped (gth.setG 5 7)) gst ∧ (∀ r, r ∈ sopRegs a → r ∈ sopRegs o → r = 0) ∧ (∀ p, p ∈ sopPreds a → p ∈ sopPreds o → p = 0)) ∧
    ctxOf who0 gst = some gctx :=
  ⟨by decide, ready_of (by decide), by decide, ⟨by decide, by decide, rfl, rfl, by decide, by decide⟩, rfl⟩

/-! Words of Table 06.6, written out: the opcode, the fields of the format from the top, the guard. -/

/-- The thread at a bundle of two words. -/
def codeSt (a b : Nat) : State :=
  { gst with gal := { gst.gal with images := [(0, some { im1 with code := [(a, b), (0, 0), (0, 0)] })] } }
def codeCtx (a b : Nat) : Ctx := { gctx with s := codeSt a b }

/-- ADDI g4, g1, 5 beside ADDI g5, g1, 6 under p3: opcode 0x02, rd, ra, imm12, guard. -/
theorem test_word_addi :
    spells (codeCtx 0b0000010_00100_00001_000000000101_000 0b0000010_00101_00001_000000000110_011) (.addi who0 0 4 1 5 ⟨3, .addi 5 1 6⟩) ⟨3, .addi 5 1 6⟩ = true ∧
    spells (codeCtx 0b0000010_00100_00001_000000000101_000 0) (.addi who0 0 4 1 5 ⟨3, .addi 5 1 6⟩) ⟨3, .addi 5 1 6⟩ = false := by decide
/-- CMP.LTU p1, p2, g3, g4 under p7: opcode 0x10, pt, pf, ra, rb, condition. -/
theorem test_word_cmp : spells (codeCtx 0b0010000_001_010_00011_00100_100_000111 0) (.cmp who0 7 .ltu 3 4 1 2 slotNop) slotNop = true := by decide
/-- ADD g1, g2, g3 and SUB g1, g2, g3: opcode 0x01 and function in bits 9 to 3. -/
theorem test_word_alu :
    spells (codeCtx 0b0000001_00001_00010_00011_0000000_000 0) (.alu who0 0 .add 1 2 3 slotNop) slotNop = true ∧
    spells (codeCtx 0b0000001_00001_00010_00011_0000001_000 0) (.alu who0 0 .sub 1 2 3 slotNop) slotNop = true ∧
    spells (codeCtx 0b0000001_00001_00010_00011_0000001_000 0) (.alu who0 0 .add 1 2 3 slotNop) slotNop = false := by decide
/-- The all-zero word is NOP. -/
theorem test_word_nop : spells gctx (.nop who0 0 slotNop) slotNop = true := by decide

theorem witness_NianoCompute : (∃ c, Ready who0 0 c gst ∧ (c.h.g 2 == 0x8000000000000000) = true) ∧ (0 : Fin 64).val + (63 : Fin 64).val < 64 ∧ (63 : Fin 64).val + (0 : Fin 64).val < 64 :=
  ⟨ready_of (by decide), by decide⟩

theorem witness_NianoControl :
    (∃ c, Ready who0 0 c gst ∧ (decide ((c.h.g 1).toNat < 8192) && decide (c.codeLen = some 3) && decide ((c.h.g 1).toNat < 3) && decide (3 ≤ (c.h.g 7).toNat) && decide (8192 ≤ (c.h.g 2).toNat)) = true) ∧
    ((1 : Prd) ≠ 2 ∨ (1 : Prd) = 0) ∧ ((0 : Prd) ≠ 0 ∨ (0 : Prd) = 0) ∧
    (let s := galSt { fr with st := .queued } (thread0 0);
      let s : State := { s with gal := { s.gal with queues := [(5, [0])] } };
      trafficOn s = true ∧ nbit (s.reg Reg.GAL_ONLINE).toNat 5 = true ∧ (galThread s 5 2).tag = none ∧ tget nil0 s.gal.queues 5 = 0 :: [] ∧ itemOf s 0 = some { fr with st := .queued } ∧
      imageOf s 0 = some im1) ∧
    (let s := galSt fr { gth with steps := 0xFFFF };
      itemOn s 5 2 = some fr ∧ s.fld Reg.GAL_CFG Fd.GAL_CFG_STEP_MAX ≤ (galThread s 5 2).steps ∧ fr.key = none ∧ fr.queue < 1024 ∧
      s.flag Reg.WND_DN_CFG Fd.WND_DN_CFG_EN = false) :=
  ⟨ready_of (by decide), by decide⟩

/-- Accesses at the last byte of the window, one beyond it, and beyond 256; a window that no program may write. -/
theorem witness_NianoWindow :
    (∃ c, Ready who0 0 c gst ∧ (c.h.win.length == c.h.wlen && decide (c.h.wlen ≤ 256) && !windowRo c && c.h.tag == some 0 && itemOf gst 0 == some fr &&
      decide ((c.h.g 0 + (63 : Byte).setWidth 64).toNat + 1 ≤ c.h.wlen) && decide (c.h.wlen < (c.h.g 0 + (64 : Byte).setWidth 64).toNat + 1) &&
      decide (256 < (c.h.g 6 + (0 : Byte).setWidth 64).toNat + 1) && decide (c.h.wlen < (c.h.g 7 + (0 : Byte).setWidth 64).toNat)) = true) ∧
    (∃ c, Ready who0 0 c (galSt { fr with dom := 32 } gth) ∧ windowRo c = true) ∧
    (∃ c, Ready who0 0 c (galSt fr { gth with win := zeros 256, wlen := 256 }) ∧ decide (256 < c.h.wlen + (0 : Fin 32).val + 1) = true) :=
  ⟨ready_of (by decide), ready_of (by decide), ready_of (by decide)⟩

/-- Firmware with g1 at the last byte of its scratch memory, g2 at the first byte above it, g3 above the landing cells. -/
def fst : State := { svc with fore := { svc.fore with event := 5, threads := [(0, { thread0 0 with regs := [(1, 0xFFFF), (2, 0x10000), (3, 0x110000000), (4, 4)] })] } }

theorem witness_NianoForeman :
    (∃ c, Ready (.fore 0) 0 c fst ∧ (c.isFore && decide ((c.h.g 1).toNat % 2 ≠ 0) && decide ((c.h.g 1).toNat % 1 = 0) && decide ((c.h.g 1).toNat < 0x10000) &&
      decide (0x10000 ≤ (c.h.g 2).toNat ∧ (c.h.g 2).toNat < 0x100000000) && decide (0x110000000 ≤ (c.h.g 3).toNat) &&
      decide (BitVec.ofNat 64 fst.fore.event &&& c.h.g 4 ≠ 0) && decide (BitVec.ofNat 64 fst.fore.event &&& c.h.g 2 = 0)) = true) ∧
    (∃ c, Ready who0 0 c gst ∧ (!c.isFore) = true) := ⟨ready_of (by decide), ready_of (by decide)⟩

theorem witness_NianoSpecial :
    (∃ c, Ready who0 0 c gst ∧ (c.item == some fr && !c.isFore && c.h.tag == some fr.tag && itemOf gst fr.tag == some fr) = true) ∧
    (∃ c, Ready (.fore 0) 0 c fst ∧ (c.item == none && c.isFore) = true) ∧
    (0x011 : BitVec 12).toNat < 0x12 ∧ (0x012 : BitVec 12).toNat = 0x12 ∧ (0x100 ≤ (0x109 : BitVec 12).toNat ∧ (0x109 : BitVec 12).toNat ≤ 0x109 ∧ (0x109 : BitVec 12) ≠ 0x108) ∧
    (0x10A ≤ (0x10A : BitVec 12).toNat ∧ (0x1FF : BitVec 12).toNat < 0x200) ∧ (0x200 ≤ (0x200 : BitVec 12).toNat ∧ (0x205 : BitVec 12).toNat ≤ 0x205) ∧
    0x206 ≤ (0x206 : BitVec 12).toNat := ⟨ready_of (by decide), ready_of (by decide), by decide⟩

theorem witness_NianoTables :
    (∃ c, Ready who0 0 c gst ∧ (decide ((c.h.g 1).toNat < 2 ^ 60) && decide (2 ^ 60 ≤ (c.h.g 3).toNat) && c.item == some fr && c.h.tag == some fr.tag && itemOf gst fr.tag == some fr &&
      decide ((c.h.g 1).toNat < 65536) && decide (65536 ≤ (c.h.g 4).toNat) && decide ((c.h.g 1).toNat < 131072) && decide (131072 ≤ (c.h.g 4).toNat) &&
      decide ((c.h.g 5).toNat < 1024 ∧ egressOf (c.h.g 5).toNat = fr.target) && decide (egressOf (c.h.g 6).toNat ≠ fr.target) && decide (1024 ≤ (c.h.g 4).toNat) && decide (fr.dom < 64)) = true) ∧
    (∃ c, Ready (.fore 0) 0 c fst ∧ c.isFore = true) := ⟨ready_of (by decide), ready_of (by decide)⟩

/-- What every clause of the frame ends shares: the item lies in its slot and its thread runs it. -/
def endReady (it : Item) (s : State) : Prop := ∃ c, Ready who0 0 c s ∧ (c.item == some it && c.h.tag == some it.tag && itemOf s it.tag == some it) = true

theorem witness_NianoEnds :
    (let fr : Item := { fr with mscCfg := 1 }; let s := galSt fr gth;
      endReady fr s ∧ fr.gone = none ∧ fr.mscCfg.toNat.testBit 0 = true ∧ fr.dom < 32 ∧ fr.color ≠ 2 ∧ 14 ≤ fr.len ∧ fr.len + sealAdds s fr + 4 ≤ maxLen s fr.target ∧ fr.noKey = none ∧ 32 ≤ fr.target ∧ 
      fr.len + 4 ≤ maxLen s fr.target ∧ fr.key = none ∧ fr.queue < 1024 ∧ dropLegal 0x11 0xEF = true ∧ dropLegal 1 0 = true) ∧
    (∀ d ∈ [32, 63, 64, 79, 80, 95, 96], endReady { fr with dom := d } (galSt { fr with dom := d } gth)) ∧
    (let it := { fr with dom := 63, flags := 2 }; endReady it (galSt it gth) ∧ it.flags.testBit 1 = true) ∧
    (let it := { fr with dom := 96, assoc := some 7 }; onTxSc gst it = true) ∧ onTxSc gst { fr with dom := 96 } = false ∧
    (let s := setAll [(Reg.HST_FN_CELLS 1, Fd.HST_FN_CELLS_CELL_COUNT, 4)] gst;
      let s := (s.setPg 1 pgRx 0x10000).setPg 1 pgRxf 1;
      let s : State := { s with host := { s.host with tokens := [(0, 1)] } };
      (pushRx 1 ⟨1, descriptor fr 0 0x001, 0, fr.assoc, some fr.queue, fr.dom, fr.ts⟩ fr.data (setGalThread 5 2 (stepped gth) s)).1 = true) := by
  refine ⟨⟨ready_of (by decide), by decide⟩, ?_, ⟨ready_of (by decide), by decide⟩, by decide, by decide, by decide⟩
  intro d hd
  simp only [List.mem_cons, List.not_mem_nil, or_false] at hd
  rcases hd with rfl | rfl | rfl | rfl | rfl | rfl | rfl <;> exact ready_of (by decide)

theorem witness_NianoAtomics :
    (∃ c, Ready who0 0 c gst ∧ (decide ((c.h.g 1).toNat < 2 ^ 18 ∧ (c.h.g 1).toNat ∉ gst.gal.poison) && decide (2 ^ 18 ≤ (c.h.g 4).toNat)) = true) ∧
    (let s : State := { gst with gal := { gst.gal with poison := [1] } };
      ∃ c, Ready who0 0 c s ∧ decide ((c.h.g 1).toNat ∈ s.gal.poison) = true) := ⟨ready_of (by decide), ready_of (by decide)⟩

/-! Words of the remaining formats of Table 06.6, from the fields' top bit down -/

/-- WLD g4, [g1 + 2], four bytes sign-extended: opcode 0x20, rd, ra, off8, size 2, S. -/
theorem test_word_wld : spelled 0b0100000_00100_00001_00000010_10_1_0_000 (wordFields (.wld who0 0 4 1 2 2 true .good slotNop)) = true := by decide
/-- MFS g1 from 0x103: opcode 0x28, rd, zero, the number. -/
theorem test_word_mfs : spelled 0b0101000_00001_00000_000100000011_000 (wordFields (.mfs who0 0 1 0x103 slotNop)) = true := by decide

/-! Lanes -/

/-- Client group 0 and line group 4 of four ports of two lanes; lane `L` in state `st` with signal `sg`. -/
def laneSt (L st sg : Nat) : State :=
  setAll [(Reg.LAN_GRP_CFG 0, Fd.LAN_GRP_CFG_GROUPING, 2), (Reg.LAN_GRP_CFG 4, Fd.LAN_GRP_CFG_GROUPING, 2),
    (Reg.LAN_LANE_STATUS L, Fd.LAN_LANE_STATUS_STATE, st), (Reg.LAN_LANE_STATUS L, Fd.LAN_LANE_STATUS_SIGNAL, sg)] svc
/-- The same with a bound running since 0 and 600 ms gone by. -/
def laneSt' (L st sg cfg : Nat) : State :=
  let s := laneSt L st sg
  { s with lanes := [(L, { laneRun0 0 with at_ := some 0, cfg := BitVec.ofNat 64 cfg })], time := { s.time with up := 600000000 } }

theorem witness_LaneBringUp :
    (∀ L ∈ [(0 : Fin 73), 33, 64, 72], laneMay (laneSt L.val 1 0) L.val = true ∧ laneF (laneSt L.val 1 0) L.val Fd.LAN_LANE_STATUS_SIGNAL = 0 ∧
      laneState (laneSt L.val 1 0) L.val ≠ 6 ∧ laneState (laneSt L.val 1 0) L.val ≠ 7) ∧
    (laneState (laneSt 0 2 1) 0 = 2 ∧ laneMay (laneSt 0 2 1) 0 = true) ∧
    (laneMay (laneSt' 0 3 1 0xD0) 0 = true ∧ laneState (laneSt' 0 3 1 0xD0) 0 = 3 ∧ fget (laneRun (laneSt' 0 3 1 0xD0) 0).cfg Fd.LAN_LANE_CFG_RX_POL_AUTO = 0) ∧
    (laneState (laneSt' 0 3 1 0xD2) 0 = 3 ∧ fget (laneRun (laneSt' 0 3 1 0xD2) 0).cfg Fd.LAN_LANE_CFG_RX_POL_AUTO = 1 ∧ laneF (laneSt' 0 3 1 0xD2) 0 Fd.LAN_LANE_STATUS_RX_INVERTED = 0) ∧
    laneState (laneSt 0 4 1) 0 = 4 ∧
    (let s := setAll [(Reg.LAN_LANE_STATUS 1, Fd.LAN_LANE_STATUS_STATE, 6)] (laneSt 0 5 1);
      laneMay s 0 = true ∧ laneState s 0 = 5 ∧ macOf s 0 = some 0 ∧ portUp s 0 = false ∧ ∀ M ∈ macLanes s 0, M = 0 ∨ laneUp s M = true) ∧
    (laneState (laneSt 0 5 1) 0 = 5 ∧ macOf (laneSt 0 5 1) 0 = some 0 ∧ 1 ∈ macLanes (laneSt 0 5 1) 0 ∧ 1 ≠ 0 ∧ laneUp (laneSt 0 5 1) 1 = false) ∧
    (∀ st ∈ [2, 3, 4, 5], boundPassed (laneSt' 0 st 1 0xD2) 0 = true ∧ laneMay (laneSt' 0 st 1 0xD2) 0 = true) ∧
    (laneState (laneSt' 0 1 1 0xD2) 0 = 1 ∧ laneF (laneSt' 0 1 1 0xD2) 0 Fd.LAN_LANE_STATUS_SIGNAL = 1 ∧ (laneRun (laneSt' 0 1 1 0xD2) 0).at_ = some 0 ∧
      0 + 10000000 ≤ (laneSt' 0 1 1 0xD2).time.up) := by decide +kernel

/-- Line lane 0, first of line port 32, UP with its port. -/
def upSt : State :=
  setAll [(Reg.LAN_LANE_STATUS 33, Fd.LAN_LANE_STATUS_STATE, 6), (Reg.MAC_PORT_STATUS 32, Fd.MAC_PORT_STATUS_UP, 1), (Reg.LAN_LANE_STATUS 32, Fd.LAN_LANE_STATUS_CDR_LOCK, 1),
    (Reg.TIM_RCLK, Fd.TIM_RCLK_SRC0, 7), (Reg.TIM_RCLK, Fd.TIM_RCLK_SRC1, 7)] (laneSt 32 6 1)

theorem witness_LaneLosses :
    (svc.live = true ∧ lanePresent (laneSt 0 2 1) 0 = true ∧ laneF (laneSt 0 2 1) 0 Fd.LAN_LANE_STATUS_SIGNAL = 1 ∧ laneState (laneSt 0 2 1) 0 ≠ 0 ∧ laneState (laneSt 0 2 1) 0 ≠ 6 ∧
      laneState (laneSt 0 2 1) 0 ≠ 7) ∧
    (∀ st ∈ [3, 4, 5], let s := setAll [(Reg.LAN_LANE_STATUS 0, Fd.LAN_LANE_STATUS_CDR_LOCK, 1)] (laneSt 0 st 1); laneMay s 0 = true ∧
      laneF s 0 Fd.LAN_LANE_STATUS_CDR_LOCK = 1 ∧ (laneState s 0 = 3 ∨ laneState s 0 = 4 ∨ laneState s 0 = 5)) ∧
    (upSt.live = true ∧ laneMay upSt 32 = true ∧ laneUp upSt 32 = true ∧ macOf upSt 32 = some 32 ∧ 32 ≤ 32 ∧ portUp upSt 32 = true ∧ rclkOf upSt 32 = [] ∧
      laneF upSt 32 Fd.LAN_LANE_STATUS_SIGNAL = 1) ∧
    (laneUp upSt 33 = true ∧ countsCw upSt 33 = false ∧ 0 < 1 ∧ 544 ≤ 1 * 544 ∧ 0 < 1 ∧ sdLevel upSt 33 * (1 * 544) < 544 * 2 ^ 20 ∧
      tget nat0 upSt.time.runs 66 < 9 ∧ tget nat0 upSt.time.runs 67 < 10) ∧
    (let s : State := { upSt with time := { upSt.time with runs := [(66, 9)] } };
      9 ≤ tget nat0 s.time.runs 66 ∧ s.flag (Reg.TIM_LANE_LQ 33) Fd.TIM_LANE_LQ_DEGRADED = false) := by decide

/-! Orders -/

/-- Management program 1 of function 2 runs with an ADMIN signer; every target grants function 2 all permissions; landing cells 0 to 7 belong to it, the first five handed over. -/
def withProg (s : State) : State :=
  let s := setAll [(Reg.HST_FN_CELLS 2, Fd.HST_FN_CELLS_CELL_COUNT, 8)] s
  let b : Bundle := ⟨1, 2, 0, 1, 7, 1000, 5, 9, 0, false, false, [⟨[(0, 0)], zeros 8⟩], [], 0⟩
  let r : Running := ⟨b, 0, none, 0, 0, 0, 0, none, 0, 0, 0, false, none, true, true, 0x7FF, []⟩
  { s with
    fore := { s.fore with running := [(1, some r)] }
    host := { s.host with access := (List.range 64).map (fun t => (32 * t + 2, (0xF : Byte))), tokens := [(0, 1), (1, 1), (2, 1), (3, 1), (4, 1)] } }
def o1 : OrdBy := ⟨1, 9, .good⟩
def ordSt : State := withProg svc
/-- The order is accepted, as a decision. -/
def okOrder (code : Nat) (args : List W64) (s : State) : Bool :=
  let q := ordered code o1 args s
  foreRuns s q.t && !programReset s q.t && stateAllows q s && (accessDenies q s).isNone && (!inCaution s || !heldInCaution q.code) && (roleRefuses q s).isNone &&
    !resyncDefers q s && !isActive s
theorem accepted_of {code : Nat} {args : List W64} {s : State} (h : okOrder code args s = true) : Accepted (ordered code o1 args s) s := by
  unfold okOrder at h
  simp only [Bool.and_eq_true, Bool.not_eq_true', Bool.or_eq_true, Option.isNone_iff_eq_none] at h
  exact ⟨h.1.1.1.1.1.1.1, h.1.1.1.1.1.1.2, h.1.1.1.1.1.2, h.1.1.1.1.2, h.1.1.1.2, h.1.1.2, h.1.2, h.2⟩

/-- An accepted order with its other premises. -/
abbrev Both (code : Nat) (args : List W64) (s : State) (p : Prop) : Prop := Accepted (ordered code o1 args s) s ∧ p
theorem both {code : Nat} {args : List W64} {s : State} {p : Prop} (h : okOrder code args s = true) (hp : p) : Both code args s p := ⟨accepted_of h, hp⟩

theorem witness_LaneOrders :
    (let s := withProg (laneSt 0 1 1); Both 0x101 [0] s (laneArg 0 = some 0 ∧ laneArg 63 = some 63 ∧ laneArg 64 = some 64 ∧ laneArg 128 = some 72 ∧ s.mode ≠ 3 ∧ laneMay s 0 = true ∧
      laneHolder s 0 = none ∧ laneUp s 0 = false)) ∧
    (let s := withProg (laneSt 0 6 1); Both 0x102 [0, 3] s (lanePresent s 0 = true ∧ laneHolder s 0 = none ∧ laneUp s 0 = true ∧ ordCellsOk (ordered 0x102 o1 [0, 3] s) s 3 4096 = true)) ∧
    (let s := withProg (setAll [(Reg.PWR_STATUS, Fd.PWR_STATUS_MODE, 1)] (laneSt 0 1 1)); ∀ ms ∈ [(1 : W64), 60000], Both 0x103 [0, 2, ms] s
      (s.mode = 1 ∧ lanePresent s 0 = true ∧ laneHolder s 0 = none ∧ (2 : W64).toNat < 3 ∧ 0 < ms.toNat ∧ ms.toNat ≤ 60000)) ∧
    (let s := laneSt 0 7 1; let q : OrdReq := { ordered 0x103 o1 [0, 2, 1] ordSt with code := 0x103 };
      let s : State := { s.setReg (Reg.PWR_STATUS) 1 with fore := { s.fore with waits := [q] }, time := { s.time with up := 2000000 } };
      laneWait s 0x103 0 = some q ∧ s.live = true ∧ prbsDue s 0 (q.arg 2) = true ∧ laneMay s 0 = false ∧ laneUp s 0 = false) ∧
    (let s := withProg (laneSt 0 6 1); let q := ordered 0x102 o1 [0, 3] s; let s : State := { s with fore := { s.fore with waits := [q] } };
      laneWait s 0x102 0 = some q ∧ (laneRun s 0).scanLost = false ∧ ordCellsOk q s (q.arg 1) 4096 = true) ∧
    (let s := withProg (setAll [(Reg.PWR_STATUS, Fd.PWR_STATUS_MODE, 1)] svc); ∀ v ∈ [(0 : W64), 15], Both 0x104 [4, v] s
      (s.mode ≠ 3 ∧ s.mode ≠ 2 ∧ groupPresent s 4 = true ∧ v.toNat < 16 ∧ (4 ≤ 4 ∨ v.toNat % 8 ≠ 7) ∧ sideRate (setGroup 4 v.toNat s) (4 / 4) ≤ sideLimit s ∧ trunkBroken (setGroup 4 v.toNat s) = false ∧
        groupHeld s 4 = none ∧ ∀ i, i < 8 → laneUp s (8 * 4 + i) = false)) ∧
    (∀ p ∈ [(0 : W64), 63, 64, 65], Both 0x105 [p, 3] ordSt (ordSt.mode ≠ 3 ∧ p.toNat < 66 ∧ (64 ≤ p.toNat ∨ groupPresent ordSt (p.toNat / 8) = true) ∧
      ordCellsOk (ordered 0x105 o1 [p, 3] ordSt) ordSt (3 : W64).toNat 4096 = true)) := by
  refine ⟨both (by decide) (by decide), both (by decide) (by decide), ?_, by decide, by decide, ?_, ?_⟩
  · intro s ms h
    simp only [List.mem_cons, List.not_mem_nil, or_false] at h
    rcases h with rfl | rfl <;> exact both (by decide) (by decide)
  · intro s v h
    simp only [List.mem_cons, List.not_mem_nil, or_false] at h
    rcases h with rfl | rfl <;> exact both (by decide) (by decide)
  · intro p h
    simp only [List.mem_cons, List.not_mem_nil, or_false] at h
    rcases h with rfl | rfl | rfl | rfl <;> exact both (by decide) (by decide)

theorem witness_FramerOrders :
    (∀ p ∈ [(0 : W64), 63], let s := withProg svc; Both 0x201 [p, 1, 0] s (p.toNat < 128 ∧ remapFits s 0 (p.toNat % 64) ((1 : W64).toNat + (0 : W64).toNat * 2 ^ 64) = true ∧
      claimOn s (trunkRes 0 (tribTrunk s 0 (p.toNat % 64))) = none)) ∧
    (let s := withProg svc; Both 0x201 [127, 1, 0] s ((127 : W64).toNat < 128 ∧ remapFits s 1 63 1 = true ∧ claimOn s (trunkRes 1 (tribTrunk s 1 63)) = none)) ∧
    (∀ n ∈ [(0 : W64), 15], let s := withProg (setAll [(Reg.LFR_TRUNK_CFG n.toNat, Fd.LFR_TRUNK_CFG_EN, 1)] svc); Both 0x202 [n] s
      (n.toNat < 16 ∧ txOn s n.toNat = true ∧ groupOf s 0 n.toNat = [n.toNat] ∧ claimOn s (.txTrunk n.toNat) = none ∧ tooSoon s n.toNat = false)) ∧
    (let s := withProg (setAll [(Reg.LFR_TRUNK_CFG 0, Fd.LFR_TRUNK_CFG_EN, 1)] svc);
      let s : State := { s with lfr := { s.lfr with tx := [(0, { txTrunk0 0 with lastSwitch := some 0 })] } };
      Both 0x202 [0] s (txOn s 0 = true ∧ groupOf s 0 0 = [0] ∧ claimOn s (.txTrunk 0) = none ∧ tooSoon s 0 = true ∧ s.fore.deferred.length < 32)) ∧
    (∀ n ∈ [(0 : W64), 15], Both 0x203 [n, 0xFFFFFFFF] ordSt (n.toNat < 16 ∧ (0xFFFFFFFF : W64).toNat < 2 ^ 32 ∧ claimOn ordSt (.rxTrunk n.toNat) = none ∧ atticRO ordSt 3 = false ∧
      (wearStep 3 blkEpochs ordSt).2 = none)) := by
  refine ⟨?_, both (by decide) (by decide), ?_, both (by decide) (by decide), ?_⟩
  all_goals
    intro n h
    simp only [List.mem_cons, List.not_mem_nil, or_false] at h
    rcases h with rfl | rfl <;> exact both (by decide) (by decide)

/-- A bucket of the peer table full: every way of the first candidate of key 5, and of the second. -/
def fullSt : State :=
  let b := peerBuckets 5
  let ways := fun (k : Nat) => (List.range 8).map (fun w => (8 * k + w, (⟨1000 + w, 0, 0, 0, false, none⟩ : Peer)))
  { ordSt with cls := { ordSt.cls with peers := ways b.1 ++ ways b.2 } }
def peerSt : State := { ordSt with cls := { ordSt.cls with peers := [(7, ⟨5, 0, 3, 0, false, none⟩)], scis := [(9, ⟨2, 6, 0, false⟩)] } }
/-- Record 1 receives on line port 2. -/
def sciSt : State := { peerSt with assoc := [(1, { assoc0 1 with ctrl := 0x10001 })] }

theorem witness_TableOrders :
    (Both 0x301 [0, 5, 0xFFFFFFF] peerSt ((5 : W64).toNat < 2 ^ 60 ∧ (0xFFFFFFF : W64).toNat < 2 ^ 28 ∧ findPeer peerSt 5 = some (7, ⟨5, 0, 3, 0, false, none⟩))) ∧
    (Both 0x301 [0, 0xFFFFFFFFFFFFFFF, 0] ordSt ((0xFFFFFFFFFFFFFFF : W64).toNat < 2 ^ 60 ∧ findPeer ordSt 0xFFFFFFFFFFFFFFF = none ∧
      (placeIn ordSt.cls.peers (peerBuckets 0xFFFFFFFFFFFFFFF)).isSome = true)) ∧
    (Both 0x301 [0, 5, 0] fullSt (findPeer fullSt 5 = none ∧ placeIn fullSt.cls.peers (peerBuckets 5) = none)) ∧
    (Both 0x301 [2, 6, 0x40000000001] sciSt ((0x40000000001 : W64).toNat < 2 ^ 46 ∧ (0x40000000001 : W64).toNat / 2 ^ 41 = 2 ∧ sciFits sciSt 2 (BitVec.ofNat 64 1) = true ∧
      findSci sciSt 2 6 = some (9, ⟨2, 6, 0, false⟩))) ∧
    (Both 0x301 [2, 8, 0x40000000001] sciSt (findSci sciSt 2 8 = none ∧ (placeIn sciSt.cls.scis (sciBuckets 2 8)).isSome = true)) ∧
    (Both 0x302 [0, 5, 4] peerSt (findPeer peerSt 5 = some (7, ⟨5, 0, 3, 0, false, none⟩) ∧ 3 < (4 : W64).toNat)) ∧
    (Both 0x302 [0, 5, 3] peerSt (findPeer peerSt 5 = some (7, ⟨5, 0, 3, 0, false, none⟩) ∧ (3 : W64).toNat ≤ 3)) ∧
    (Both 0x302 [0, 8, 3] peerSt (findPeer peerSt 8 = none)) ∧
    (Both 0x302 [2, 6, 2] peerSt ((2 : W64).toNat < 32 ∧ findSci peerSt 2 6 = some (9, ⟨2, 6, 0, false⟩))) := by
  refine ⟨both ?_ ?_, both ?_ ?_, both ?_ ?_, both ?_ ?_, both ?_ ?_, both ?_ ?_, both ?_ ?_, both ?_ ?_, both ?_ ?_⟩ <;> decide +kernel

theorem witness_TableRecords :
    (∀ t ∈ [(0 : W64), 1, 2], t.toNat < 3 ∧ (1 : W64).toNat ≤ tblSize t.toNat ∧
      Both 0x303 [t, 3, 1] ordSt ((recsBar (ordered 0x303 o1 [t, 3, 1] ordSt) ordSt t.toNat 3 1).isNone = true ∧ ordSt.cls.learnQ = [] ∧
        ([parseRec t.toNat (recBytes ordSt t.toNat 3 0)]).all (recFits ordSt t.toNat) = true ∧ recsDistinct t.toNat [parseRec t.toNat (recBytes ordSt t.toNat 3 0)] = true ∧
        ([parseRec t.toNat (recBytes ordSt t.toNat 3 0)]).any (fun r => recLocked ordSt t.toNat r.index) = false) ∧
      Both 0x304 [t, 3, 1, 1] ordSt ((recsBar (ordered 0x304 o1 [t, 3, 1, 1] ordSt) ordSt t.toNat 3 1).isNone = true ∧ (1 : W64).toNat ≤ 1 ∧ ([parseRec t.toNat (recBytes ordSt t.toNat 3 0)]).all (fun r => decide (r.index < tblSize t.toNat)) = true) ∧
      Both 0x305 [t, 0, 1, 3] ordSt ((recCells t.toNat 3 1).all (ordCellOk (ordered 0x305 o1 [t, 0, 1, 3] ordSt) ordSt) = true ∧ (readOut t.toNat 0 3 1 0 ordSt).1 = true)) ∧
    (let s : State := { ordSt with cls := { ordSt.cls with peers := [(0, ⟨5, 0, 3, 0, true, none⟩)] } };
      ([parseRec 0 (recBytes s 0 3 0)]).all (recFits s 0) = true ∧ recsDistinct 0 [parseRec 0 (recBytes s 0 3 0)] = true ∧
      ([parseRec 0 (recBytes s 0 3 0)]).any (fun r => recLocked s 0 r.index) = true ∧ okOrder 0x303 [0, 3, 1] s = true) ∧
    (let s : State := { ordSt with mem := { ordSt.mem with bytes := [(landingAt 3, 0xFF)] } };
      ([parseRec 0 (recBytes s 0 3 0)]).all (recFits s 0) = false ∧ okOrder 0x303 [0, 3, 1] s = true) := by
  refine ⟨?_, by decide, by decide⟩
  intro t h
  simp only [List.mem_cons, List.not_mem_nil, or_false] at h
  rcases h with rfl | rfl | rfl <;> exact ⟨by decide, by decide, both (by decide) (by decide), both (by decide) (by decide), both (by decide) (by decide)⟩

/-- Attachment of one image: three bundles of NOPs. -/
def imBytes : Bytes := natBe 4 0x4E494D47 ++ [1, 0] ++ natBe 2 3 ++ zeros 56 ++ zeros 24
def attSt : State :=
  let r := running ordSt 1
  { ordSt with fore := { ordSt.fore with running := [(1, r.map (fun r => { r with b := { r.b with progs := [⟨[(0, 0)], imBytes⟩] } }))] } }

theorem witness_GalleryOrders :
    (∀ e ∈ [(1 : W64), 3], Both 0x401 [e, 0] attSt (e.toNat < 4 ∧ (ordered 0x401 o1 [e, 0] attSt).atts.getD 0 [] = imBytes ∧ imBytes ≠ [] ∧ attSt.gal.restoring = [] ∧ attSt.gal.draining = [] ∧
      claimOn attSt .store = none ∧ e.toNat ≠ dispatchEpoch attSt ∧ epochCount attSt e.toNat = 0 ∧ imageFits imBytes = true ∧ imageLoads (imageFrom imBytes) = true)) ∧
    (let s := withProg (setAll [(Reg.GAL_EPOCH, Fd.GAL_EPOCH_LOADED, 9)] svc); Both 0x402 [3] s ((3 : W64).toNat < 4 ∧ nbit (loadedMap s) 3 = true ∧ dispatchEpoch s ≠ 3) ∧
      Both 0x402 [0] s (nbit (loadedMap s) 0 = true ∧ dispatchEpoch s = 0) ∧ Both 0x402 [1] s (nbit (loadedMap s) 1 = false) ∧ Both 0x402 [4] s (4 ≤ (4 : W64).toNat)) ∧
    (∀ g ∈ [(0 : W64), 63], Both 0x403 [g] ordSt (g.toNat < 64 ∧ nbit (galPresent ordSt) g.toNat = true ∧ ordSt.mode = 2 ∧ claimOn ordSt (.gallery g.toNat) = none)) ∧
    (Both 0x404 [0x3FE00, 512, 3, 0] ordSt ((512 : W64).toNat ≤ 512 ∧ (0x3FE00 : W64).toNat + (512 : W64).toNat ≤ 2 ^ 18 ∧
      ordCellsOk (ordered 0x404 o1 [0x3FE00, 512, 3, 0] ordSt) ordSt (3 : W64).toNat 4096 = true ∧ (cellWrite 3 (zeros 8) ordSt).1 = true)) ∧
    (Both 0x404 [0, 1, 3, 1] ordSt (ordRead (ordered 0x404 o1 [0, 1, 3, 1] ordSt) ordSt 3 8 = some (zeros 8))) ∧
    (Both 0x405 [131071, 1, 3] ordSt ((1 : W64).toNat ≤ 256 ∧ (131071 : W64).toNat + (1 : W64).toNat ≤ 131072 ∧
      ordCellsOk (ordered 0x405 o1 [131071, 1, 3] ordSt) ordSt 3 16 = true ∧ (cellWrite 3 (zeros 16) ordSt).1 = true)) := by
  refine ⟨?_, ⟨both (by decide) (by decide), both (by decide) (by decide), both (by decide) (by decide), both (by decide) (by decide)⟩, ?_, both (by decide) (by decide +kernel),
    both (by decide) (by decide), both (by decide) (by decide +kernel)⟩
  all_goals
    intro n h
    simp only [List.mem_cons, List.not_mem_nil, or_false] at h
    rcases h with rfl | rfl <;> exact both (by decide) (by decide)

/-- Line port 2 runs MACsec. Record 5 transmits on it: AN 0 in use with one frame in flight, AN 1 installed. Record 6 receives: AN 0 installed with one frame in flight. -/
def recSt : State :=
  let s := withProg (setAll [(Reg.MSC_PORT_CFG 2, Fd.MSC_PORT_CFG_MACSEC_EN, 1)] svc)
  let e : AnEnt := { an0 with valid := true, inflight := 1, nextPn := 9 }
  { s with assoc := [(5, { assoc0 0 with ctrl := 0x120C8, ans := [e, { e with inflight := 0 }, an0, an0] }), (6, { assoc0 0 with ctrl := 0x120C9, ans := [e, an0, an0, an0] }),
    (7, { assoc0 0 with ctrl := 0x100CC })] }

theorem witness_AssocOrders :
    (∀ a ∈ [5, 6, 7, 0xFFFFF], a < 2 ^ 20 ∧ (mayWrite (mapWordAt a / 256) 16 recSt).1 = true ∧ claimOn recSt (.record a) = none ∧ (arec recSt a).ans.length = 4 ∧ isTubRec recSt a = false) ∧
    (Both 0x410 [0xFFFFF, 3] recSt (ordRead (ordered 0x410 o1 [0xFFFFF, 3] recSt) recSt 3 272 = some (zeros 272) ∧ assocFits false (assocParts false (zeros 272)) = true ∧
      (arec recSt 0xFFFFF).used = false ∧ (arec recSt 0xFFFFF).memBad = false)) ∧
    (∀ i ∈ [(2 : W64), 3], ∀ pn ∈ [(1 : W64), 0xFFFFFFFF], ∀ slot ∈ [(16383 : W64), 0x1FFFFF], Both 0x411 [5, i, slot, pn, 0, 0, 3] recSt
      (i.toNat < 4 ∧ portInstalls recSt 5 = true ∧ installFits false (arec recSt 5) pn.toNat 0 slot.toNat = true ∧
        installSalt recSt (ordered 0x411 o1 [5, i, slot, pn, 0, 0, 3] recSt) false = some 0 ∧ ((arec recSt 5).an i.toNat).valid = false ∧ ((arec recSt 5).an i.toNat).inflight = 0)) ∧
    (Both 0x411 [7, 0, 5, 1, 1, 1, 3] recSt (xpn (arec recSt 7).ctrl = true ∧ installSalt recSt (ordered 0x411 o1 [7, 0, 5, 1, 1, 1, 3] recSt) false = some 0)) ∧
    (Both 0x411 [5, 2, 5, 0, 0, 0, 3] recSt ((0 : W64) = 0)) ∧ (Both 0x411 [6, 2, 5, 1, 2, 0, 3] recSt ((arec recSt 6).c AC.DIR = 1 ∧ (1 : W64).toNat < (2 : W64).toNat)) ∧
    (Both 0x412 [5, 0x14] recSt ((0x14 : W64).toNat = 0 + 4 * 1 + 16 * 1 ∧ (arec recSt 5).c AC.DIR = 0 ∧ ((arec recSt 5).an 0).valid = true ∧ ((arec recSt 5).an 1).valid = true ∧
      0 = (arec recSt 5).c AC.CUR_AN)) ∧
    (Both 0x412 [5, 0x0D] recSt ((0x0D : W64).toNat = 1 + 4 * 3 + 16 * 0 ∧ 1 ≠ (arec recSt 5).c AC.CUR_AN ∧ ((arec recSt 5).an 0).retiring = false ∧ ((arec recSt 5).an 0).inflight ≠ 0 ∧
      (arec recSt 5).c AC.STATE = 1)) ∧
    (Both 0x413 [6, 0] recSt ((0 : W64).toNat < 4 ∧ (arec recSt 6).c AC.DIR = 1 ∧ ((arec recSt 6).an 0).valid = true ∧ ((arec recSt 6).an 0).retiring = false ∧ ((arec recSt 6).an 0).inflight ≠ 0)) ∧
    (Both 0x413 [5, 3] recSt ((3 : W64).toNat < 4 ∧ (arec recSt 5).c AC.NEXT_VALID = 0 ∧ ((arec recSt 5).an 3).valid = false ∧ ((arec recSt 5).an 3).inflight = 0)) ∧
    (Both 0x414 [5, 3] recSt (ordCellsOk (ordered 0x414 o1 [5, 3] recSt) recSt 3 272 = true ∧
      (cellWrite 3 (recordBytes recSt 5 ++ (arec recSt 5).ans.flatMap (fun e => natBe 4 e.map.toNat)) recSt).1 = true)) ∧
    (Both 0x415 [5, 3] recSt (ordCellsOk (ordered 0x415 o1 [5, 3] recSt) recSt 3 (counterBytes (arec recSt 5)).length = true ∧ (cellWrite 3 (counterBytes (arec recSt 5)) recSt).1 = true)) := by
  refine ⟨?_, ?_, ?_, ?_, ?_, ?_, ?_, ?_, ?_, ?_, ?_, ?_⟩
  case refine_1 => decide +kernel
  case refine_3 =>
    intro i hi pn hp slot hs
    simp only [List.mem_cons, List.not_mem_nil, or_false] at hi hp hs
    rcases hi with rfl | rfl <;> rcases hp with rfl | rfl <;> rcases hs with rfl | rfl <;> exact both (by decide +kernel) (by decide +kernel)
  all_goals exact both (by decide +kernel) (by decide +kernel)


/-! Keys -/

theorem tget_tput_same {α : Type} [DecidableEq α] (d : Nat → α) (t : Table α) (k : Nat) (v : α) : tget d (tput d t k v) k = v := by
  unfold tput
  split
  · next h => rw [tget_tdel_same, h]
  · exact tget_tins_same ..

theorem deepOf_sealDeep (d : Nat) (x : DSlot) (s : State) : deepOf (sealDeep d x s) d = { x with check := deepCheck s d x } := by
  unfold sealDeep
  generalize ({ x with check := deepCheck s d x } : DSlot) = y
  exact tget_tput_same deep0 s.vault.deep d y

theorem deepWhole_seal (d : Nat) (x : DSlot) (s : State) : deepWhole (sealDeep d x s) d = true := by
  have e : ∀ y, deepCheck s d { x with check := y } = deepCheck s d x := fun _ => by unfold deepCheck; dsimp only
  have b : deepCheck (sealDeep d x s) d = deepCheck s d := by unfold sealDeep; generalize ({ x with check := deepCheck s d x } : DSlot) = y; funext z; unfold deepCheck setDeep; dsimp only
  unfold deepWhole
  rw [b, deepOf_sealDeep, e (deepCheck s d x)]
  dsimp only
  generalize deepCheck s d x = c
  exact beq_self_eq_true c

theorem deepWhole_seal_ne (d e : Nat) (x : DSlot) (s : State) (h : e ≠ d) : deepWhole (sealDeep d x s) e = deepWhole s e := by
  have : deepOf (sealDeep d x s) e = deepOf s e := tget_tput_ne _ _ _ h
  unfold deepWhole
  rw [this]
  rfl

/-- Deep slots 1, 2, 4, 5 and 10 hold keys (slot 10 wraps and derives, slot 1 may be saved), traffic slots below 64 are pinned. -/
def keySt0 : State := withProg (setAll [(Reg.SRM_CFG, Fd.SRM_CFG_PIN_TOP, 64)] svc)
def keySt : State :=
  sealDeep 1 ⟨0x5241, 7, 0, 0⟩ (sealDeep 2 ⟨0x5001, 9, 0, 0⟩ (sealDeep 4 ⟨0x5201, 0, 0, 0⟩ (sealDeep 5 ⟨0x5001, 3, 0, 0⟩ (sealDeep 10 ⟨0x52E1, 5, 0, 0⟩ keySt0))))

theorem key_whole : deepWhole keySt 1 = true ∧ deepWhole keySt 2 = true ∧ deepWhole keySt 4 = true ∧ deepWhole keySt 5 = true ∧ deepWhole keySt 10 = true := by
  have n (d : Nat) (x : DSlot) (s : State) (e : Nat) (h : e ≠ d) (w : deepWhole s e = true) : deepWhole (sealDeep d x s) e = true := (deepWhole_seal_ne d e x s h).trans w
  unfold keySt
  generalize keySt0 = s
  refine ⟨deepWhole_seal _ _ _, n _ _ _ _ (by decide) (deepWhole_seal _ _ _), n _ _ _ _ (by decide) (n _ _ _ _ (by decide) (deepWhole_seal _ _ _)), ?_, ?_⟩
  · exact n _ _ _ _ (by decide) (n _ _ _ _ (by decide) (n _ _ _ _ (by decide) (deepWhole_seal _ _ _)))
  · exact n _ _ _ _ (by decide) (n _ _ _ _ (by decide) (n _ _ _ _ (by decide) (n _ _ _ _ (by decide) (deepWhole_seal _ _ _))))

/-- A blob under a deep slot: its clear header and its wrapped content. -/
def blobOf (s : State) (p : Nat) (head pt : Bytes) : Bytes := head ++ keyWrapPad (deep256 s p) pt

theorem wrap_length (k pt : Bytes) (n : Nat) (hk : k.length = 32) (hp : pt.length = 8 * n) (h1 : 1 < n) : (keyWrapPad k pt).length = 8 * n + 8 := by
  have e := wrapPasses_lengths k n 6 1 ([0xA6, 0x59, 0x59, 0xA6] ++ natBe 4 (8 * n)) (pieces 8 n pt) (keyOk_of_length _ (.inr hk)) (by rw [List.length_append, natBe_length]; rfl) (pieces_all 8 n pt (by omega))
  have c : keyWrapPad k pt = wrapW k ([0xA6, 0x59, 0x59, 0xA6] ++ natBe 4 (8 * n)) (pieces 8 n pt) := by
    unfold keyWrapPad
    dsimp only
    rw [hp, show ceilDiv (8 * n) 8 = n from by unfold ceilDiv; omega, if_neg (by omega)]
    have : slice pt 0 (8 * n) = pt := by rw [slice_eq _ _ _ (by omega), List.drop_zero, List.take_of_length_le (by omega)]
    rw [this]
  rw [c]; unfold wrapW; dsimp only
  rw [pieces_length, List.length_append, e.1, flatten_length 8 _ e.2.2, e.2.1, pieces_length]
  omega

/-- A blob that the vault takes. -/
theorem opens {u : BlobUse} {s : State} {p : Nat} {v2 : Bool} {head pt : Bytes} (hk : (deep256 s p).length = 32) (hh : head.length = 16)
    (hp : pt.length = if v2 then 88 else 56) (hv : ∀ w, be (head ++ w) 2 1 = if v2 then 2 else 1)
    (ph : ∀ w, be (head ++ w) 8 2 % 64 = p) (pt0 : ∀ w, parentOk s (be (head ++ w) 8 2) u = true) (hd : dBit s p 0 = true) (hg : ∀ w, (deepOf s p).g DS.GEN = be (head ++ w) 10 2)
    (h0 : ∀ w, headerOk (head ++ w) u = true) (ht : ∀ w, slice pt (if v2 then 72 else 44) 12 = slice (head ++ w) 4 12) (hz : v2 = true → be pt 84 4 = 0)
    (hc : contentOk v2 (be pt (if v2 then 64 else 32) 8) u = true) (htg : ∀ w, targetOk (head ++ w) u = true) (hpk : paddedKey v2 (be pt (if v2 then 64 else 32) 8) pt = true) :
    (openBlob u (blobOf s p head pt) s).res = 0 ∧ (openBlob u (blobOf s p head pt) s).attr = be pt (if v2 then 64 else 32) 8 ∧
      (openBlob u (blobOf s p head pt) s).expiry = (if v2 then 0 else be pt 40 4) := by
  have hw : (keyWrapPad (deep256 s p) pt).length = if v2 then 96 else 64 := by
    cases v2
    · exact wrap_length _ _ 7 hk (by rw [hp]; rfl) (by decide)
    · exact wrap_length _ _ 11 hk (by rw [hp]; rfl) (by decide)
  have hs : slice (blobOf s p head pt) 16 (if v2 then 96 else 64) = keyWrapPad (deep256 s p) pt := by
    unfold blobOf
    rw [slice_eq _ _ _ (by rw [List.length_append, hh, hw]), List.drop_left' hh, List.take_of_length_le (by rw [hw])]
  have hu := keyUnwrapPad_keyWrapPad (deep256 s p) pt (keyOk_of_length _ (.inr hk)) (by rw [hp]; cases v2 <;> rfl) (by rw [hp]; cases v2 <;> decide) (by rw [hp]; cases v2 <;> decide)
  have a1 := ph (keyWrapPad (deep256 s p) pt); have a2 := pt0 (keyWrapPad (deep256 s p) pt); have a3 := hg (keyWrapPad (deep256 s p) pt); have a4 := h0 (keyWrapPad (deep256 s p) pt)
  have a5 := hv (keyWrapPad (deep256 s p) pt); have a6 := ht (keyWrapPad (deep256 s p) pt)
  have a7 := htg (keyWrapPad (deep256 s p) pt)
  rw [show head ++ keyWrapPad (deep256 s p) pt = blobOf s p head pt from rfl] at *
  unfold openBlob
  simp only [a1, a2, a4, a5, hd, ← a3, a6.symm]
  cases v2 <;> simp at hs hp hc hpk hz ⊢ <;> rw [hs, hu] <;> simp [hp, hc, a7, hpk, hz]

/-- A v1 blob under deep slot 10, GEN 0: a session-class key of 256 bits; and a v2 blob for a deep slot. -/
def head1 (handle : Nat) : Bytes := natBe 2 0x4256 ++ [1, 0] ++ natBe 4 handle ++ natBe 2 0x800A ++ natBe 2 0 ++ natBe 4 0
def pt1 (handle : Nat) : Bytes := zeros 32 ++ natBe 8 0x40 ++ natBe 4 0 ++ (head1 handle).drop 4
def head2 : Bytes := natBe 2 0x4256 ++ [2, 0] ++ natBe 4 7 ++ natBe 2 0x800A ++ natBe 2 0 ++ natBe 4 0
def pt2 : Bytes := zeros 64 ++ natBe 8 0x5000 ++ head2.drop 4 ++ natBe 4 0
def blob1 : Bytes := blobOf keySt 10 (head1 7) (pt1 7)
def blob2 : Bytes := blobOf keySt 10 head2 pt2

theorem deep10_length : (deep256 keySt 10).length = 32 := by
  unfold deep256 deepBytes
  rw [List.length_take, List.length_take, natBe_length]
  split <;> rfl

theorem slice_head (h w : Bytes) (a n : Nat) (hl : a + n ≤ h.length) : slice (h ++ w) a n = slice h a n := by
  rw [slice_eq _ _ _ (by rw [List.length_append]; omega), slice_eq _ _ _ hl, List.drop_append_of_le_length (by omega), List.take_append_of_le_length (by rw [List.length_drop]; omega)]

theorem be_head (h w : Bytes) (a n : Nat) (hl : a + n ≤ h.length) : be (h ++ w) a n = be h a n := by
  unfold be
  rw [slice_head h w a n hl]

theorem head1_reads (w : Bytes) : headerOk (head1 7 ++ w) .install = true ∧ headerOk (head1 7 ++ w) (.fill 7) = true := by
  have a : be (head1 7 ++ w) 0 2 = 0x4256 ∧ be (head1 7 ++ w) 2 1 = 1 ∧ be (head1 7 ++ w) 3 1 = 0 ∧ be (head1 7 ++ w) 4 4 = 7 := by
    refine ⟨?_, ?_, ?_, ?_⟩ <;> rw [be_head _ _ _ _ (by decide)] <;> decide +kernel
  constructor <;> simp only [headerOk, a.1, a.2.1, a.2.2.1, a.2.2.2] <;> decide

theorem head2_reads (w : Bytes) : headerOk (head2 ++ w) .deepImport = true := by
  have a : be (head2 ++ w) 0 2 = 0x4256 ∧ be (head2 ++ w) 2 1 = 2 ∧ be (head2 ++ w) 3 1 = 0 ∧ be (head2 ++ w) 4 4 = 7 := by
    refine ⟨?_, ?_, ?_, ?_⟩ <;> rw [be_head _ _ _ _ (by decide)] <;> decide +kernel
  simp only [headerOk, a.1, a.2.1, a.2.2.1, a.2.2.2]
  decide

theorem blob1_opens (u : BlobUse) (h : u = .install ∨ u = .fill 7) :
    (openBlob u blob1 keySt).res = 0 ∧ (openBlob u blob1 keySt).attr = 0x40 ∧ (openBlob u blob1 keySt).expiry = 0 := by
  have hg : (deepOf keySt 10).g DS.GEN = 0 := by decide +kernel
  have e : be (pt1 7) 32 8 = 0x40 ∧ be (pt1 7) 40 4 = 0 := by decide +kernel
  have hd : dBit keySt 10 0 = true := by decide +kernel
  rcases h with rfl | rfl
  · obtain ⟨r, a, x⟩ := opens (u := .install) (v2 := false) (head := head1 7) (pt := pt1 7) deep10_length rfl (by decide +kernel) (fun w => by rw [be_head _ _ _ _ (by decide)]; decide +kernel) (fun w => by rw [be_head _ _ _ _ (by decide)]; decide +kernel)
      (fun w => by rw [be_head _ _ _ _ (by decide)]; decide +kernel) hd (fun w => by rw [be_head _ _ _ _ (by decide), hg]; decide +kernel) (fun w => (head1_reads w).1)
      (fun w => by rw [slice_head _ _ _ _ (by decide)]; decide +kernel)
      (by decide) (by decide +kernel) (fun w => by unfold targetOk; rw [be_head _ _ _ _ (by decide)]; decide +kernel) (by decide +kernel)
    exact ⟨r, a.trans e.1, x.trans e.2⟩
  · obtain ⟨r, a, x⟩ := opens (u := .fill 7) (v2 := false) (head := head1 7) (pt := pt1 7) deep10_length rfl (by decide +kernel) (fun w => by rw [be_head _ _ _ _ (by decide)]; decide +kernel) (fun w => by rw [be_head _ _ _ _ (by decide)]; decide +kernel)
      (fun w => by rw [be_head _ _ _ _ (by decide)]; decide +kernel) hd (fun w => by rw [be_head _ _ _ _ (by decide), hg]; decide +kernel) (fun w => (head1_reads w).2)
      (fun w => by rw [slice_head _ _ _ _ (by decide)]; decide +kernel)
      (by decide) (by decide +kernel) (fun w => by unfold targetOk; rw [be_head _ _ _ _ (by decide)]; decide +kernel) (by decide +kernel)
    exact ⟨r, a.trans e.1, x.trans e.2⟩

theorem blob2_opens : (openBlob .deepImport blob2 keySt).res = 0 ∧ (openBlob .deepImport blob2 keySt).attr = 0x5000 := by
  have hg : (deepOf keySt 10).g DS.GEN = 0 := by decide +kernel
  have e : be pt2 64 8 = 0x5000 := by decide +kernel
  have hd : dBit keySt 10 0 = true := by decide +kernel
  obtain ⟨r, a, x⟩ := opens (u := .deepImport) (v2 := true) (head := head2) (pt := pt2) deep10_length rfl (by decide +kernel) (fun w => by rw [be_head _ _ _ _ (by decide)]; decide +kernel) (fun w => by rw [be_head _ _ _ _ (by decide)]; decide +kernel)
    (fun w => by rw [be_head _ _ _ _ (by decide)]; decide +kernel) hd (fun w => by rw [be_head _ _ _ _ (by decide), hg]; decide +kernel) head2_reads
    (fun w => by rw [slice_head _ _ _ _ (by decide)]; decide +kernel)
    (by decide +kernel) (by decide +kernel) (fun w => by unfold targetOk; rw [be_head _ _ _ _ (by decide)]; decide +kernel) (by decide +kernel)
  exact ⟨r, a.trans e⟩

theorem openBlob_memPut (u : BlobUse) (b : Bytes) (a : Nat) (w : Bytes) (s : State) : openBlob u b (memPut a w s) = openBlob u b s := by
  unfold openBlob parentOk deep256 deepBytes deepKey dBit deepOf memPut
  dsimp only

/-- The same with blob 1 in landing cell 3. -/
def instSt : State := memPut (landingAt 3) blob1 keySt
/-- With blob 2 there. -/
def impSt : State := memPut (landingAt 3) blob2 keySt

theorem blob1_length : blob1.length = 80 := by
  unfold blob1 blobOf
  rw [List.length_append, wrap_length _ _ 7 deep10_length (by decide +kernel) (by decide)]
  rfl
theorem blob2_length : blob2.length = 112 := by
  unfold blob2 blobOf
  rw [List.length_append, wrap_length _ _ 11 deep10_length (by decide +kernel) (by decide)]
  rfl

theorem deepWhole_mem (d a : Nat) (w : Bytes) (s : State) : deepWhole (memPut a w s) d = deepWhole s d := by
  unfold deepWhole deepCheck deepOf memPut
  dsimp only

/-- The blob is read from its cell. -/
theorem inst_read (q : OrdReq) (hq : q.cell = none) (hb : (cellBar q instSt 3 80).isNone = true) : ordRead q instSt 3 80 = some blob1 := by
  unfold ordRead
  simp only [hq, hb, if_true]
  exact congrArg some (by unfold cellBytes instSt; rw [← blob1_length]; exact memBytes_memPut _ _ _)
theorem imp_read (q : OrdReq) (hq : q.cell = none) (hb : (cellBar q impSt 3 112).isNone = true) : ordRead q impSt 3 112 = some blob2 := by
  unfold ordRead
  simp only [hq, hb, if_true]
  exact congrArg some (by unfold cellBytes impSt; rw [← blob2_length]; exact memBytes_memPut _ _ _)

theorem install_ready : Both 0x501 [63, 3] instSt (SlotOpen 63 instSt ∧ ordRead (ordered 0x501 o1 [63, 3] instSt) instSt 3 80 = some blob1 ∧ deepWhole instSt 10 = true ∧
    (openBlob .install blob1 instSt).res = 0 ∧ standOk (openBlob .install blob1 instSt).attr = true ∧ reached instSt (openBlob .install blob1 instSt).expiry = false) := by
  have o := blob1_opens .install (.inl rfl)
  have e : openBlob .install blob1 instSt = openBlob .install blob1 keySt := by unfold instSt; rw [openBlob_memPut]
  have w : deepWhole instSt 10 = true := by unfold instSt; rw [deepWhole_mem]; exact key_whole.2.2.2.2
  refine both (by decide +kernel) ⟨by unfold SlotOpen; decide +kernel, inst_read _ rfl (by decide +kernel), w, ?_, ?_, ?_⟩
  · rw [e]; exact o.1
  · rw [e, o.2.1]; decide
  · rw [e, o.2.2]; rfl

theorem openBlob_fills (u : BlobUse) (b : Bytes) (l : List Nat) (s : State) : openBlob u b { s with vault := { s.vault with fills := l } } = openBlob u b s := by
  unfold openBlob parentOk deep256 deepBytes deepKey dBit deepOf
  dsimp only

/-- Blob 1 lies in the cellar under handle 7, whose fill is under way. -/
def fillSt : State := memPut (blobAt 7) blob1 { keySt with vault := { keySt.vault with fills := [7] } }

theorem fill_reads : memBytes fillSt (blobAt 7) 80 = blob1 ∧ openBlob (.fill 7) blob1 fillSt = openBlob (.fill 7) blob1 keySt := by
  constructor
  · unfold fillSt; rw [← blob1_length]; exact memBytes_memPut _ _ _
  · unfold fillSt; rw [openBlob_memPut, openBlob_fills]

theorem wrapped_length (k pt : Bytes) (n : Nat) (hk : KeyOk k) (hp : pt.length = 8 * n) : (keyWrap k pt).length = 8 * n + 8 := by
  have e := wrapPasses_lengths k n 6 1 (List.replicate 8 0xA6) (pieces 8 n pt) hk rfl (pieces_all 8 n pt (by omega))
  unfold keyWrap wrapW
  rw [hp, Nat.mul_div_cancel_left _ (by decide)]
  dsimp only
  rw [pieces_length, List.length_append, e.1, flatten_length 8 _ e.2.2, e.2.1, pieces_length]
  omega

theorem slotOf_seal (n : Nat) (t : TSlot) (s : State) : slotOf (sealSlot n t s) n = { t with check := slotCheck s n t } := by
  unfold sealSlot
  generalize ({ t with check := slotCheck s n t } : TSlot) = y
  exact tget_tput_same slot0 s.vault.slots n y

theorem slotWhole_seal (n : Nat) (t : TSlot) (s : State) : slotWhole (sealSlot n t s) n = true := by
  have e : ∀ y, slotCheck s n { t with check := y } = slotCheck s n t := fun _ => by unfold slotCheck slotAttr; dsimp only
  have b : slotCheck (sealSlot n t s) n = slotCheck s n := by
    unfold sealSlot
    generalize ({ t with check := slotCheck s n t } : TSlot) = y
    funext z
    unfold slotCheck slotAttr pinTop State.fld State.reg setSlot
    dsimp only
  unfold slotWhole
  rw [b, slotOf_seal, e (slotCheck s n t)]
  dsimp only
  generalize slotCheck s n t = c
  exact beq_self_eq_true c

/-- Slot 5 holds a CAK that derives (KCLASS 1, 256 bits), slot 6 a KEK that wraps; both belong to function 2. -/
def cak : TSlot := ((((((slot0 0).p0 TS.VALID 1).p0 TS.LEN 1).p0 TS.KCLASS 1).p0 TS.OWNER_FN 2).p0 ⟨TS.U_DERIVE, 1⟩ 1)
def kek : TSlot := ((((((slot0 0).p0 TS.VALID 1).p0 TS.LEN 1).p0 TS.KCLASS 3).p0 TS.OWNER_FN 2).p0 ⟨TS.U_WRAP, 1⟩ 1)
def mkaSt : State := sealSlot 5 cak keySt
def kekSt : State := sealSlot 6 kek keySt

/-- Slot 5 holds a key that has reached its expiry. -/
def oldSt : State :=
  let s := setSlot 5 { (cak.p2 TS.EXPIRY 1) with key := 7 } keySt
  { s with time := { s.time with now := 2000000000 } }

theorem witness_SlotOrders :
    (Both 0x501 [63, 3] instSt (SlotOpen 63 instSt ∧ ordRead (ordered 0x501 o1 [63, 3] instSt) instSt 3 80 = some blob1 ∧ deepWhole instSt 10 = true ∧
      (openBlob .install blob1 instSt).res = 0 ∧ standOk (openBlob .install blob1 instSt).attr = true ∧ reached instSt (openBlob .install blob1 instSt).expiry = false)) ∧
    (Both 0x502 [0, 0x40] keySt (SlotOpen 0 keySt ∧ attrOk 0x40 = true)) ∧
    (∀ len ∈ [(1 : W64), 32], Both 0x503 [0x800A, 63, 3, len, 0x40] keySt ((0x800A : W64).toNat = 0x8000 + 10 ∧ 8 ≤ 10 ∧ 10 < 64 ∧ deepWhole keySt 10 = true ∧ SlotOpen 63 keySt ∧ 0 < len.toNat ∧ len.toNat ≤ 32 ∧
      attrOk 0x40 = true ∧ dBit keySt 10 0 = true ∧ dBit keySt 10 6 = true ∧ (ordRead (ordered 0x503 o1 [0x800A, 63, 3, len, 0x40] keySt) keySt 3 len.toNat).isSome = true)) ∧
    (∀ p ∈ [(0x8001 : W64), 0x8007], Both 0x503 [p, 63, 3, 1, 0x40] keySt (1 ≤ p.toNat - 0x8000 ∧ p.toNat - 0x8000 ≤ 7)) ∧
    (Both 0x504 [5] mkaSt (claimOn mkaSt (.slot 5) = none ∧ (slotOf mkaSt 5).valid = true)) ∧
    (∀ d ∈ [(0x8005 : W64), 0x800A], Both 0x504 [d] keySt (claimOn keySt (.deep (d.toNat - 0x8000)) = none ∧ dBit keySt (d.toNat - 0x8000) 0 = true ∧ 5 ≤ d.toNat - 0x8000 ∧ d.toNat - 0x8000 ≠ 7)) ∧
    (∀ d ∈ [(0x8000 : W64), 0x8004], Both 0x504 [d] keySt (claimOn keySt (.deep (d.toNat - 0x8000)) = none ∧ d.toNat - 0x8000 ≤ 4)) ∧
    (∀ f ∈ [(0 : W64), 1], Both 0x505 [5, 0, f] mkaSt ((slotOf mkaSt 5).valid = true ∧ f.toNat < 2 ∧ reached mkaSt 0 = false)) := by
  refine ⟨install_ready, both (by decide +kernel) (by unfold SlotOpen; decide +kernel), ?_, ?_, both (by decide +kernel) (by decide +kernel), ?_, ?_, ?_⟩
  · intro p h
    simp only [List.mem_cons, List.not_mem_nil, or_false] at h
    have w := key_whole.2.2.2.2
    rcases h with rfl | rfl <;> exact both (by decide +kernel) ⟨rfl, by decide, by decide, w, by unfold SlotOpen; decide +kernel, by decide, by decide, by decide, by decide +kernel, by decide +kernel, by decide +kernel⟩
  all_goals
    intro p h
    simp only [List.mem_cons, List.not_mem_nil, or_false] at h
    rcases h with rfl | rfl <;> exact both (by decide +kernel) (by decide +kernel)

theorem imp_same : openBlob .deepImport blob2 impSt = openBlob .deepImport blob2 keySt := by unfold impSt; rw [openBlob_memPut]
theorem imp_whole :  deepWhole impSt 10 = true := by unfold impSt; rw [deepWhole_mem]; exact key_whole.2.2.2.2
theorem imp_takes : Both 0x507 [12, 3, 0] impSt (claimOn impSt (.deep 12) = none ∧ dBit impSt 12 0 = false ∧ (deepOf impSt 12).g DS.GEN < 0xFFFF) := both (by decide +kernel) (by decide +kernel)
theorem imp_reads : ordRead (ordered 0x507 o1 [12, 3, 0] impSt) impSt 3 112 = some blob2 := imp_read _ rfl (by decide +kernel)
theorem imp_opens : (openBlob .deepImport blob2 impSt).res = 0 := by rw [imp_same]; exact blob2_opens.1
theorem imp_attr : deepUseOk 12 (openBlob .deepImport blob2 impSt).attr = true := by rw [imp_same, blob2_opens.2]; decide

theorem witness_DeepAndMkaOrders :
    (Both 0x506 [3] keySt (dBit keySt 2 0 = true ∧ deepWhole keySt 2 = true ∧ ordCellsOk (ordered 0x506 o1 [3] keySt) keySt 3 1568 = true)) ∧
    (Both 0x507 [12, 3, 0] impSt (claimOn impSt (.deep 12) = none ∧ ordRead (ordered 0x507 o1 [12, 3, 0] impSt) impSt 3 112 = some blob2 ∧ deepWhole impSt 10 = true ∧
      (openBlob .deepImport blob2 impSt).res = 0 ∧ deepUseOk 12 (openBlob .deepImport blob2 impSt).attr = true ∧ dBit impSt 12 0 = false ∧ (deepOf impSt 12).g DS.GEN < 0xFFFF)) ∧
    (Both 0x508 [3, 1] keySt ((ordRead (ordered 0x508 o1 [3, 1] keySt) keySt 3 128).isSome = true ∧ blobHandle (putBlob (ordered 0x508 o1 [3, 1] keySt) keySt 0) < 2 ^ 20 ∧
      putClash keySt [] [putBlob (ordered 0x508 o1 [3, 1] keySt) keySt 0] = [] ∧ (writeBlobs [putBlob (ordered 0x508 o1 [3, 1] keySt) keySt 0] 0 none keySt).2.1 = none)) ∧
    (∀ h ∈ [(0 : W64), 0xFFFFF], Both 0x509 [h] keySt (claimOn keySt (.handle h.toNat) = none ∧ handleNamed keySt h.toNat = false ∧ cellarUsed keySt h.toNat = false)) ∧
    (∀ h ∈ [(0 : W64), 0xFFFFF], let s := memPut (blobAt h.toNat) (natBe 2 0x4256) keySt; Both 0x509 [h] s (handleNamed s h.toNat = false ∧ cellarUsed s h.toNat = true ∧ (memWrite (blobAt h.toNat) (zeros 128) .good s).1 = true)) ∧
    (∀ i ∈ [(0 : W64), 255], Both 0x50A [0x8001, i] keySt (standingOf keySt i.toNat = [] ∧ dBit keySt 1 0 = true ∧ deepWhole keySt 1 = true ∧ (deepOf keySt 1).g DS.STANDING_OK = 1 ∧ AtticTakes (blkStanding i.toNat) keySt)) ∧
    (∀ i ∈ [(0 : W64), 255], Both 0x50B [i] keySt (standingOf keySt i.toNat = [])) ∧
    (let s : State := { keySt with attic := { keySt.attic with standing := [(9, [0x42])] } }; Both 0x50B [9] s (standingOf s 9 ≠ [] ∧ AtticTakes (blkStanding 9) s)) := by
  refine ⟨both (by decide +kernel) ⟨by decide +kernel, key_whole.2.1, by decide +kernel⟩,
    both (by decide +kernel) ⟨by decide +kernel, imp_reads, imp_whole, imp_opens, imp_attr, imp_takes.2.2.1, imp_takes.2.2.2⟩,
    both (by decide +kernel) (by decide +kernel), ?_, ?_, ?_, ?_, both (by decide +kernel) (by unfold AtticTakes; decide +kernel)⟩
  · intro p h
    simp only [List.mem_cons, List.not_mem_nil, or_false] at h
    rcases h with rfl | rfl <;> exact both (by decide +kernel) (by decide +kernel)
  · intro p h
    simp only [List.mem_cons, List.not_mem_nil, or_false] at h
    rcases h with rfl | rfl <;> exact both (by decide +kernel) (by decide +kernel)
  · intro p h
    simp only [List.mem_cons, List.not_mem_nil, or_false] at h
    rcases h with rfl | rfl <;> exact both (by decide +kernel) ⟨by decide +kernel, by decide +kernel, key_whole.1, by decide +kernel, by unfold AtticTakes; decide +kernel⟩
  · intro p h
    simp only [List.mem_cons, List.not_mem_nil, or_false] at h
    rcases h with rfl | rfl <;> exact both (by decide +kernel) (by decide +kernel)

theorem mka_derives : (useKey 5 (some TS.U_DERIVE) (ordered 0x510 o1 [5, 3, 10, 11] mkaSt).caller (slotWhole mkaSt 5) mkaSt).1 = 0 := by
  unfold mkaSt; rw [slotWhole_seal]; decide +kernel
theorem kek_wraps (code : Nat) (h : code = 0x511 ∨ code = 0x512) : (useKey 6 (some TS.U_WRAP) (ordered code o1 [6, 10, 3] kekSt).caller (slotWhole kekSt 6) kekSt).1 = 0 := by
  unfold kekSt; rw [slotWhole_seal]; rcases h with rfl | rfl <;> decide +kernel
theorem unwraps_key (k sak : Bytes) (hk : KeyOk k) (hs : sak.length = 32) : distributedSak k (keyWrap k sak) = some sak := by
  have hl := wrapped_length k sak 4 hk hs
  have hw : slice (keyWrap k sak) 0 40 = keyWrap k sak := by rw [slice_eq _ _ _ (by omega), List.drop_zero, List.take_of_length_le (by omega)]
  unfold distributedSak
  rw [hw, keyUnwrap_keyWrap k sak hk (by rw [hs])]
theorem unwraps : distributedSak (slotOf kekSt 6).bytes (keyWrap (slotOf kekSt 6).bytes (zeros 32)) = some (zeros 32) :=
  unwraps_key _ _ (keyOk_of_length _ (.inr (by decide +kernel))) rfl

theorem witness_MkaOrders :
    (Both 0x510 [5, 3, 10, 11] mkaSt (SlotOpen 10 mkaSt ∧ SlotOpen 11 mkaSt ∧ (10 : W64) ≠ 11 ∧ (ordRead (ordered 0x510 o1 [5, 3, 10, 11] mkaSt) mkaSt 3 16).isSome = true ∧
      (slotOf mkaSt 5).g0 TS.ORPHAN = 0 ∧ (slotOf mkaSt 5).g0 TS.KCLASS = 1)) ∧
    (Both 0x511 [6, 10, 3] kekSt (SlotOpen 10 kekSt ∧ (slotOf kekSt 6).g0 TS.ORPHAN = 0 ∧ (slotOf kekSt 6).g0 TS.KCLASS = 3 ∧
      ordCellsOk (ordered 0x511 o1 [6, 10, 3] kekSt) kekSt 3 40 = true ∧ (slotOf kekSt 6).bytes.length = 32)) ∧
    (okOrder 0x512 [6, 10, 3] kekSt = true) := by
  refine ⟨both (by decide +kernel) ⟨?_, ?_, by decide, by decide +kernel, by decide +kernel, by decide +kernel⟩, both (by decide +kernel) ⟨?_, by decide +kernel⟩, by decide +kernel⟩ <;>
    (unfold SlotOpen; decide +kernel)

theorem witness_VaultCommands :
    (oldSt.live = true ∧ (slotOf oldSt 5).valid = true ∧ reached oldSt ((slotOf oldSt 5).g2 TS.EXPIRY) = true ∧ inCaution oldSt = false) ∧
    ((slotOf mkaSt 5).valid = true ∧ takes (monCode 0x11) mkaSt = true ∧ effective mkaSt 0x11 ≤ 1) ∧
    (let s := setSlot 5 { cak.p0 TS.VALID 0 with key := 7 } keySt; (slotOf s 5).valid = false ∧ inUse s 5 = false ∧ (slotOf s 5).key ≠ 0) ∧
    (let s : State := { mkaSt with vault := { mkaSt.vault with sweeps := [⟨true, 10, 0, 0⟩] } };
      s.vault.sweeps.find? (fun w => w.deep == true && w.slot == 10) = some ⟨true, 10, 0, 0⟩) ∧
    (dBit keySt 10 0 = true ∧ deepWhole keySt 10 = true) ∧
    (let s := setAll [(Reg.TMP_STATUS, Fd.TMP_STATUS_CAUTION, 1)] keySt; inCaution s = true ∧ dBit s 10 0 = true ∧ s.guard.held = []) ∧
    (let s := fillSt; memBytes s (blobAt 7) 80 = blob1 ∧ openBlob (.fill 7) blob1 s = openBlob (.fill 7) blob1 keySt ∧ (openBlob (.fill 7) blob1 keySt).res = 0 ∧
      7 ∈ s.vault.fills ∧ keyHeld s (sectorAt s (blobAt 7 / 256)).mkey (sectorAt s (blobAt 7 / 256)).kgen = true ∧ (sectorAt s (blobAt 7 / 256)).poison = false ∧ s.gal.parked = [] ∧
      (cachedRange s).find? (freeIn s false false) = some 64) ∧
    (let s : State := { setAll [(Reg.PWR_STATUS, Fd.PWR_STATUS_MODE, 2)] keySt with gal := { keySt.gal with restoring := [63] } }; s.mode = 2 ∧ resetDue s 63 = true ∧ s.fore.waits = []) := by
  refine ⟨by decide +kernel, by decide +kernel, by decide +kernel, by decide +kernel, ⟨by decide +kernel, key_whole.2.2.2.2⟩, by decide +kernel, ?_, by decide +kernel⟩
  have o := blob1_opens (.fill 7) (.inr rfl)
  exact ⟨fill_reads.1, fill_reads.2, o.1, by decide +kernel, by decide +kernel, by decide +kernel, by decide +kernel, by decide +kernel⟩

/-! Winder, memory, gate -/

/-- Bytes in landing cell 3. -/
def inCell (b : Bytes) (s : State) : State := memPut (landingAt 3) b s

theorem witness_WinderOrders :
    (∀ n ∈ [(0 : W64), 1023], Both 0x601 [n, 0, 0, 1] ordSt (n.toNat < 1024 ∧ queueFits ordSt n.toNat 0 0 1 = true ∧ claimOn ordSt (.queue n.toNat) = none)) ∧
    (Both 0x601 [256, 0, 0, 0] ordSt (queueFits ordSt 256 0 0 0 = false)) ∧
    (∀ m ∈ [(0 : W64), 0x3FFFF], Both 0x602 [m, 1600000000, 0xFFFFFF, 0, 0] ordSt (m.toNat < 2 ^ 18 ∧ (1600000000 : W64).toNat ≤ 1600000000 ∧ (0xFFFFFF : W64).toNat < 2 ^ 24)) ∧
    (∀ i ∈ [(0 : W64), 1087], Both 0x603 [i, 1600000000, 0xFFFFFF] ordSt (i.toNat < 1088)) ∧ (Both 0x603 [1088, 0, 0] ordSt (1088 ≤ (1088 : W64).toNat)) ∧ (Both 0x603 [0, 1600000001, 0] ordSt (1600000000 < (1600000001 : W64).toNat)) ∧
    (∀ e ∈ [(0 : W64), 63], Both 0x604 [e, 3, 77] ordSt (e.toNat < 64 ∧ claimOn ordSt (.gateList e.toNat) = none ∧ (egressAt ordSt e.toNat).next = none ∧
      ordRead (ordered 0x604 o1 [e, 3, 77] ordSt) ordSt 3 2064 = some (zeros 2064) ∧ be (zeros 2064) 4 2 = 0)) ∧
    (listFits 1000 (listEntries (natBe 4 1000 ++ natBe 2 1 ++ zeros 10 ++ [0xFF, 0x80, 0, 0] ++ natBe 4 1000) 1) = true ∧ listFits 1000000000 [(1, 0, 999999960), (2, 2, 40)] = true ∧
      listFits 999 [(1, 0, 999)] = false ∧ listFits 1000 [(1, 2, 1000)] = false) ∧
    (∀ fn ∈ [(0 : W64), 15], Both 0x607 [fn, 1000000] ordSt (fn.toNat < 16 ∧ (1000000 : W64).toNat ≤ 1000000)) := by
  refine ⟨?_, both (by decide +kernel) (by decide +kernel), ?_, ?_, both (by decide +kernel) (by decide +kernel), both (by decide +kernel) (by decide +kernel), ?_, by decide +kernel, ?_⟩
  all_goals
    intro n h
    simp only [List.mem_cons, List.not_mem_nil, or_false] at h
    rcases h with rfl | rfl <;> exact both (by decide +kernel) (by decide +kernel)

/-- The waiting order on memory key 9, whose walk has ended; a scrub of region 3; cell 0x20000 of region 1 written, and open since long. -/
def keyWait : OrdReq := ordered 0x605 o1 [9] ordSt
def scrubOf (r : Nat) : Scrub := ⟨r, 0, 16, ordered 0x606 o1 [BitVec.ofNat 64 r, 0, 16] ordSt⟩
def memSt : State :=
  let s := setAll [(Reg.MEM_KEY_STATUS 9, Fd.MEM_KEY_STATUS_CHANGING, 1)] ordSt
  let c := blobAt 0 / 256
  { s with
    fore := { s.fore with waits := [keyWait] }
    time := { s.time with up := 1000000 }
    mem := { s.mem with side := [(c, some ⟨regionKey s 1, kgenOf s (regionKey s 1), false, true⟩)], opens := [⟨c, [], 0⟩, ⟨c + 1, List.range 256, 0⟩], scrubs := [scrubOf 1, scrubOf 3] } }

theorem witness_MemoryWork :
    (∀ i ∈ [(0 : W64), 255], Both 0x605 [i] ordSt (i.toNat < 256 ∧ claimOn ordSt (.memKey i.toNat) = none)) ∧
    (memSt.live = true ∧ memSt.mem.walks = [] ∧ memSt.flag (Reg.MEM_KEY_STATUS 9) Fd.MEM_KEY_STATUS_CHANGING = true ∧ liveUnder memSt 9 ((kgenOf memSt 9 + 255) % 256) = false ∧
      memSt.fore.waits.find? (fun o => o.code == 0x605 && o.args.getD 0 0 == BitVec.ofNat 64 9) = some keyWait ∧ keyWait.t < 4) ∧
    (∀ r ∈ [(0 : W64), 6], Both 0x606 [r, 0, 1] ordSt (r.toNat < 7 ∧ (0 : W64).toNat + (1 : W64).toNat ≤ regionSectors r.toNat ∧ claimOn ordSt (.region r.toNat) = none)) ∧
    (Both 0x606 [7, 0, 0] ordSt (7 ≤ (7 : W64).toNat)) ∧
    (∀ r ∈ [1, 3], let s := memSt.setReg (Reg.MEM_KEY_STATUS 9) 0; s.live = true ∧ s.mem.scrubs.find? (fun c => c.region == r) = some (scrubOf r) ∧ scrubPaused s r = false ∧ (scrubOf r).req.t < 4 ∧ r ≠ 0 ∧ r ≠ 5) ∧
    (let c := blobAt 0 / 256; c < 2 ^ 27 ∧ (sectorAt memSt c).written = true ∧ keyHeld memSt (sectorAt memSt c).mkey (sectorAt memSt c).kgen = true ∧ (sectorAt memSt c).poison = false ∧
      regionOfCell c = 1 ∧ takes (monCode 0x0F) memSt = true ∧ effective memSt 0x0F ≤ 1) ∧
    (let c := blobAt 0 / 256; memSt.mem.opens.find? (fun o => o.cell == c + 1) = some ⟨c + 1, List.range 256, 0⟩ ∧ coalesced memSt ⟨c + 1, List.range 256, 0⟩ = true ∧ 256 ≤ (List.range 256).length) := by
  refine ⟨?_, by decide +kernel, ?_, both (by decide +kernel) (by decide), by decide +kernel, by decide +kernel, by decide +kernel⟩
  all_goals
    intro n h
    simp only [List.mem_cons, List.not_mem_nil, or_false] at h
    rcases h with rfl | rfl <;> exact both (by decide +kernel) (by decide +kernel)

/-- Flow 0 carries rule 5; entry 0 holds a verified frame under key 7, entry 16383 one not yet verified. -/
def gateFr : QFrame := ⟨zeros 200, 0, 0, false, true, 0, 0, none, false, 0, 0, 0, none, false, [], 0, 0, none, false, []⟩
def gateEnt (flow seqNo : Nat) (v : Option Bool) : GEntry := ⟨flow, 5, gateFr, 0, 7, 100, 1, zeros 64, zeros 8, v, seqNo, 0, 1000, 16⟩
def gateSt : State :=
  let s := setAll [(Reg.GATE_FLOW_CFG 0, Fd.GATE_FLOW_CFG_VALID, 1), (Reg.GATE_FLOW_CFG 0, Fd.GATE_FLOW_CFG_RULE, 5)] ordSt
  { s with
    gate := { s.gate with keys := [(7, some ⟨1, 1, zeros 32, 99, 0⟩)], entries := [(0, some (gateEnt 0 0 (some true))), (16383, some (gateEnt 1 1 none))] }
    fore := { s.fore with pkeOk := true }
    attic := { s.attic with floors := [(7, 100000)] }
    twin := { s.twin with elims := [(0, some ⟨0, 0, 0⟩)] } }

theorem witness_GateKeys :
    (∀ a ∈ [(0x100000001 : W64), 0x100000002], Both 0x701 [0xFFFFFFFF, 3, a] ordSt ((0xFFFFFFFF : W64).toNat < 2 ^ 32 ∧ (a.toNat % 4 = 1 ∨ a.toNat % 4 = 2) ∧ a.toNat / 2 ^ 32 ≠ 0 ∧ gkey ordSt 0xFFFFFFFF = none ∧
      keyCount ordSt < 4096 ∧ (ordRead (ordered 0x701 o1 [0xFFFFFFFF, 3, a] ordSt) ordSt 3 97).isSome = true ∧ takes Ev.GATE_KEY_ADDED ordSt = true)) ∧
    (Both 0x702 [8] gateSt (gkey gateSt 8 = none)) ∧ (Both 0x702 [7] gateSt ((gkey gateSt 7).isSome = true ∧ takes Ev.GATE_KEY_REVOKED gateSt = true)) := by
  refine ⟨?_, both (by decide +kernel) (by decide +kernel), both (by decide +kernel) (by decide +kernel)⟩
  intro n h
  simp only [List.mem_cons, List.not_mem_nil, or_false] at h
  rcases h with rfl | rfl <;> exact both (by decide +kernel) (by decide +kernel)

theorem witness_GateFlows :
    (Both 0x703 [5, 1, 0x1FFFF3D090] gateSt ((5 : W64).toNat < 2 ^ 13 ∧ (0x1FFFF3D090 : W64).toNat = 250000 + 2 ^ 20 * 0xFFFF + 2 ^ 36 * 1 ∧ flowOf gateSt (some 5) = some 0)) ∧
    (Both 0x703 [0x8005, 0, 0] gateSt ((0x8005 : W64).toNat = 5 + 2 ^ 15 ∧ flowOf gateSt (some 5) = some 0)) :=
  ⟨both (by decide +kernel) (by decide +kernel), both (by decide +kernel) (by decide +kernel)⟩

theorem witness_GateWork :
    (gentry gateSt 16383 = some (gateEnt 1 1 none) ∧ trafficOn gateSt = true ∧ gateSt.fore.pkeOk = true ∧ gkey gateSt 7 = some ⟨1, 1, zeros 32, 99, 0⟩) ∧
    (gentry gateSt 0 = some (gateEnt 0 0 (some true)) ∧ firstOfFlow gateSt (gateEnt 0 0 (some true)) = true ∧ acceptable ⟨1, 1, zeros 32, 99, 0⟩ 100 = true ∧
      needsFloor gateSt (gateEnt 0 0 (some true)) = false ∧ acceptable ⟨1, 1, zeros 32, 164, 0⟩ 100 = false) ∧
    (let s := setAll [(Reg.TMP_STATUS, Fd.TMP_STATUS_CAUTION, 1)] gateSt; let s : State := { s with attic := { s.attic with floors := [] } };
      inCaution s = true ∧ needsFloor s (gateEnt 0 0 (some true)) = true ∧ s.guard.held = [] ∧ trafficOn s = true) ∧
    (let f : QFrame := { gateFr with hbm := true, cells := [5] }; let g := { gateEnt 0 0 (some true) with frame := f };
      let s : State := { gateSt with gate := { gateSt.gate with entries := [(0, some g)] }, mem := { gateSt.mem with side := [(5, some ⟨0, 0, true, true⟩)] } };
      gentry s 0 = some g ∧ firstOfFlow s g = true ∧ (readCells [5] .good s).1 = false ∧ inCaution s = false) ∧
    (let s : State := { gateSt with time := { gateSt.time with up := 1000 } }; (gateEnt 0 0 (some true)).due ≤ s.time.up ∧ gateSt.time.up < (gateEnt 0 0 (some true)).due ∧ trafficOn s = true) ∧
    (elimOf gateSt 0 = some ⟨0, 0, 0⟩ ∧ gateSt.live = true ∧ (let s : State := { gateSt with time := { gateSt.time with up := 1000000 * elimF gateSt 0 Fd.TWN_ELIM_CFG_RESET_MS } };
      0 + 1000000 * elimF s 0 Fd.TWN_ELIM_CFG_RESET_MS ≤ s.time.up) ∧ gateSt.time.up < 0 + 1000000 * elimF gateSt 0 Fd.TWN_ELIM_CFG_RESET_MS) := by decide +kernel

/-! Time and the twin -/

/-- Part time locked; egress 40 runs a list. -/
def lockSt : State :=
  let s := setAll [(Reg.TIM_STATUS, Fd.TIM_STATUS_STATE, 1)] ordSt
  { s with wnd := { s.wnd with egress := [(40, { egress0 0 with list := some ⟨1000, 0, [(0xFF, 0, 1000)]⟩ })] } }
/-- Sampling queues 0 and 1023 every us, due. -/
def sampSt : State := { ordSt with time := { ordSt.time with sampleSet := [0, 1023], samplePeriod := 1, up := 1000 } }

theorem witness_TimeAndSampling :
    (Both 0x801 [7, 0] ordSt (0 = 0)) ∧
    (Both 0x801 [1000000000, 1] lockSt ((1000000000 : W64).toInt.natAbs ≤ 1000000000 ∧ locked lockSt = true)) ∧
    (Both 0x801 [0xFFFFFFFFC4653600, 1] ordSt ((0xFFFFFFFFC4653600 : W64).toInt.natAbs ≤ 1000000000 ∧ locked ordSt = false)) ∧
    (Both 0x801 [1000000001, 1] ordSt (1000000000 < (1000000001 : W64).toInt.natAbs)) ∧ (Both 0x801 [32768000000, 2] ordSt ((32768000000 : W64).toInt.natAbs ≤ 32768000000)) ∧
    (Both 0x801 [32768000001, 2] ordSt (32768000000 < (32768000001 : W64).toInt.natAbs)) ∧
    (Both 0x801 [0, 3] lockSt ((listed lockSt).Nodup ∧ locked lockSt = true)) ∧ (Both 0x801 [0, 3] ordSt ((listed ordSt).Nodup ∧ locked ordSt = false)) ∧ (Both 0x801 [1, 3] ordSt ((1 : W64) ≠ 0)) ∧
    (lockSt.live = true ∧ lockSt.time.up < lockSt.time.lastSteer + 1000000000 * lockSt.fld Reg.TIM_CFG Fd.TIM_CFG_LOCK_TMO) ∧
    (let s : State := { lockSt with time := { lockSt.time with up := 1000000000 * lockSt.fld Reg.TIM_CFG Fd.TIM_CFG_LOCK_TMO } };
      s.time.lastSteer + 1000000000 * s.fld Reg.TIM_CFG Fd.TIM_CFG_LOCK_TMO ≤ s.time.up ∧ locked s = true ∧ (listed s).Nodup) ∧
    (lockSt.time.up < lockSt.time.rtcAt + 1000000000) ∧ (let s : State := { lockSt with time := { lockSt.time with up := 1000000000 } }; s.time.rtcAt + 1000000000 ≤ s.time.up ∧ s.live = true) ∧
    (∀ p ∈ [(1 : W64), 1000], Both 0x802 [3, p] ordSt (ordRead (ordered 0x802 o1 [3, p] ordSt) ordSt 3 128 = some (zeros 128) ∧ 1 ≤ p.toNat ∧ p.toNat ≤ 1000 ∧ ordSt.time.samplePeriod = 0)) ∧
    (∀ p ∈ [(0 : W64), 1001], Both 0x802 [3, p] sampSt ((ordRead (ordered 0x802 o1 [3, p] sampSt) sampSt 3 128).isSome = true ∧ (p.toNat = 0 ∨ 1000 < p.toNat))) ∧
    (Both 0x802 [3, 9] sampSt (sampSt.time.samplePeriod ≠ 0)) ∧ (sampSt.live = true ∧ sampSt.time.sampleAt + 1000 * sampSt.time.samplePeriod ≤ sampSt.time.up) ∧
    (ordSt.time.samplePeriod = 0) := by
  refine ⟨both (by decide +kernel) rfl, both (by decide +kernel) (by decide +kernel), both (by decide +kernel) (by decide +kernel), both (by decide +kernel) (by decide +kernel), both (by decide +kernel) (by decide +kernel),
    both (by decide +kernel) (by decide +kernel), both (by decide +kernel) (by decide +kernel), both (by decide +kernel) (by decide +kernel), both (by decide +kernel) (by decide +kernel),
    by decide +kernel, by decide +kernel, by decide +kernel, by decide +kernel, ?_, ?_, both (by decide +kernel) (by decide +kernel), by decide +kernel, by decide +kernel⟩
  all_goals
    intro n h
    simp only [List.mem_cons, List.not_mem_nil, or_false] at h
    rcases h with rfl | rfl <;> exact both (by decide +kernel) (by decide +kernel)

/-- One of a pair, on standby, its crosscut up. -/
def stbySt : State :=
  let s := setAll [(Reg.TWN_CFG, Fd.TWN_CFG_TWIN_EN, 1), (Reg.TWN_STATUS, Fd.TWN_STATUS_CTRL, 1)] ordSt
  { s with twin := { s.twin with link := { s.twin.link with up := true } } }
/-- The active one, its partner in step. -/
def actSt : State :=
  let s := setAll [(Reg.TWN_CFG, Fd.TWN_CFG_TWIN_EN, 1), (Reg.TWN_STATUS, Fd.TWN_STATUS_CTRL, 2), (Reg.TWN_STATUS, Fd.TWN_STATUS_PEER, 2)] ordSt
  { s with twin := { s.twin with peerSynced := true } }
/-- The overman with one hewer. -/
def overSt : State :=
  let s := setAll [(Reg.TWN_STATUS, Fd.TWN_STATUS_ROLE_SEL, 1)] ordSt
  { s with variant := 0, twin := { s.twin with hewers := [(5, some ⟨1, 2, { s.twin.link with up := true }⟩)] } }
/-- A run of BLOB_SEND that waits for one answer of hewer 5. -/
def runReq : OrdReq := ordered 0x904 o1 [0x20, 0, 1] overSt
def runSt (up : Nat) : State :=
  { overSt with time := { overSt.time with up := up }, twin := { overSt.twin with blobRun := some ⟨runReq, 0x20, [(5, 1)], 0, 0, 0⟩ } }

theorem witness_TwinOrders :
    (Both 0x901 [] ordSt (isStandby ordSt = false)) ∧
    (∀ s, s = stbySt → isStandby s = true ∧ s.twin.link.up = true ∧ claimOn s .image = none) ∧
    (let q := ordered 0x902 o1 [1] actSt; foreRuns actSt q.t = true ∧ programReset actSt q.t = false ∧ stateAllows q actSt = true ∧ accessDenies q actSt = none ∧ inCaution actSt = false ∧ resyncOn actSt = false ∧
      twinOn actSt = true ∧ isActive actSt = true ∧ claimOn actSt .image = none ∧ claimOn actSt .role = none ∧ peerAlive actSt = true ∧ actSt.twin.peerSynced = true ∧ actSt.twin.overlapAt = none ∧
      actSt.twin.blobRun = none ∧ actSt.twin.hewers = []) ∧
    (twinOn stbySt = true ∧ isActive stbySt = false ∧ foreRuns stbySt 1 = true) ∧
    (∀ h ∈ [(0 : W64), 63], Both 0x903 [h, 3] overSt (isOverman overSt = true ∧ h.toNat < 64 ∧ ordRead (ordered 0x903 o1 [h, 3] overSt) overSt 3 22 = some (zeros 22) ∧ claimOn overSt (.hewer h.toNat) = none ∧
      overSt.twin.hewers.length < 64 ∧ hewerOf overSt h.toNat = none)) ∧
    (let s : State := { overSt with twin := { overSt.twin with hewers := (List.range 64).map (fun h => (h, some ⟨1, 2, overSt.twin.link⟩)) } }; 64 ≤ s.twin.hewers.length ∧ isOverman s = true) ∧
    (∀ f ∈ [(0 : W64), 0xFFFFF], Both 0x904 [0x21, f, 1] overSt (isOverman overSt = true ∧ f.toNat + 1 ≤ 2 ^ 20 ∧ claimOn overSt (.handle f.toNat) = none ∧ overSt.twin.blobRun = none ∧ o1.ecc ≠ .bad ∧
      readable overSt (blobAt f.toNat) 80 = true ∧ hewerOf overSt 0 = none ∧ hewerOf overSt 5 = some ⟨1, 2, { overSt.twin.link with up := true }⟩)) ∧
    (Both 0x904 [0, 0, 4097] overSt (4096 < (4097 : W64).toNat)) ∧ (Both 0x904 [0, 0, 1] ordSt (isOverman { ordSt with variant := 1 } = false)) ∧
    ((runSt 100000000).twin.blobRun = some ⟨runReq, 0x20, [(5, 1)], 0, 0, 0⟩ ∧ (runSt 0).live = true ∧ runReq.t < 4 ∧ 0 + 100000000 ≤ (runSt 100000000).time.up ∧ (runSt 0).time.up < 0 + 100000000) := by
  refine ⟨both (by decide +kernel) (by decide +kernel), fun s h => h ▸ (by decide +kernel), by decide +kernel, by decide +kernel, ?_, by decide +kernel, ?_, both (by decide +kernel) (by decide +kernel), both (by decide +kernel) (by decide +kernel), by decide +kernel⟩
  all_goals
    intro n h
    simp only [List.mem_cons, List.not_mem_nil, or_false] at h
    rcases h with rfl | rfl <;> exact both (by decide +kernel) (by decide +kernel)

/-! Control orders -/

/-- Program 1 runs for a signer without ADMIN. -/
def noAdmin : State := { ordSt with fore := { ordSt.fore with running := [(1, (running ordSt 1).map (fun r => { r with admin := false, testOk := false }))] } }
/-- A signer record with key id 9 in cell 3. -/
def signerBytes : Bytes := natBe 4 9 ++ [0, 1] ++ natBe 2 0x7FF ++ natBe 2 0xFFFF ++ zeros 2689
def signSt : State := inCell signerBytes ordSt
def lifeSt (l : Nat) (s : State) : State := { s with attic := { s.attic with lifecycle := l } }

theorem witness_RegisterOrders :
    (let a := Reg.MSC_PORT_CFG 2; Both 0xA01 [BitVec.ofNat 64 a, 3, 1] ordSt (a < 0xF00000 ∧ a % 4 = 0 ∧ owBits a ≠ 0 ∧ a / 0x100000 = 5 ∧ absentUnit ordSt a = false ∧ ordSt.lfr.waiting = [] ∧
      regRange ordSt a 1 = true ∧ regBusy ordSt a (latest ordSt a) 1 = none)) ∧
    (let a := Reg.MSC_PORT_CFG 2 + 4; a % 8 = 4 ∧ okOrder 0xA01 [BitVec.ofNat 64 a, 0, 1] ordSt = true) ∧
    (∀ a ∈ [(0xF00000 : W64), 0xEFFFFE], Both 0xA01 [a, 0, 0] ordSt (0xF00000 ≤ a.toNat ∨ a.toNat % 4 ≠ 0)) ∧
    (let a := Reg.GAL_CFG; Both 0xA01 [BitVec.ofNat 64 a, 0, 0xFFFFFFFF] ordSt (owBits a ≠ 0 ∧ regRange ordSt a ((latest ordSt a &&& ~~~(0xFFFFFFFF &&& owBits a)) ||| (0 &&& owBits a)) = false)) ∧
    (∀ a ∈ [(0x800000 : W64), 0x800004, 0xEFFFFC], Both 0xA02 [a] ordSt (a.toNat < 0xF00000 ∧ a.toNat % 4 = 0)) ∧ (Both 0xA02 [0xF00000] ordSt (0xF00000 ≤ (0xF00000 : W64).toNat)) ∧
    (∀ m ∈ [(24 : W64), 0xFFFFFFFF], Both 0xB02 [m, 4] ordSt (24 ≤ m.toNat)) ∧ (Both 0xB02 [23, 5] ordSt (4 < (5 : W64).toNat)) ∧ (Both 0xB02 [0x0E, 2] ordSt ((2 : W64).toNat < floorOf ordSt 0x0E)) ∧
    (Both 0xB02 [0x0E, 3] ordSt (floorOf ordSt 0x0E ≤ (3 : W64).toNat)) ∧ (Both 0xB02 [23, 4] ordSt ((23 : W64).toNat < 24 ∧ floorOf ordSt 23 ≤ 4)) := by
  refine ⟨both (by decide +kernel) (by decide +kernel), by decide +kernel, ?_, both (by decide +kernel) (by decide +kernel), ?_, both (by decide +kernel) (by decide +kernel), ?_, both (by decide +kernel) (by decide +kernel),
    both (by decide +kernel) (by decide +kernel), both (by decide +kernel) (by decide +kernel), both (by decide +kernel) (by decide +kernel)⟩
  all_goals
    intro n h
    simp only [List.mem_cons, List.not_mem_nil, or_false] at h
    first
    | (rcases h with rfl | rfl <;> exact both (by decide +kernel) (by decide +kernel))
    | (rcases h with rfl | rfl | rfl <;> exact both (by decide +kernel) (by decide +kernel))

/-- Two records of the event ring. -/
def ringSt : State :=
  let r : TRec := ⟨0, 0, 0x0401, 0, false, 0, 0, 0, 0, 0, [], 0xA5, 0⟩
  { ordSt with attic := { ordSt.attic with ring := [r, { r with seq := 1 }], nextSeq := 2 } }

theorem witness_ControlOrders :
    (Both 0xA09 [32] ordSt (32 ≤ (32 : W64).toNat)) ∧ (Both 0xA09 [17] ordSt ((17 : W64).toNat < 18)) ∧
    (∀ n ∈ [(18 : W64), 31], Both 0xA09 [n] ordSt (18 ≤ n.toNat ∧ n.toNat < 32 ∧ counterOf ordSt n.toNat < 2 ^ 32 - 1 ∧ AtticTakes blkCounters ordSt)) ∧
    (Both 0xA0A [2, 0, 0] ordSt (targetKnown 2 = false)) ∧ (Both 0xA0A [0, 24, 0] ordSt (24 ≤ (24 : W64).toNat)) ∧ (Both 0xA0A [1, 2, 1] ordSt (grantForbidden 1 2 1 = true)) ∧
    (∀ m ∈ [(0 : W64), 23], Both 0xA0A [0x3E, m, 15] ordSt (targetKnown 0x3E = true ∧ m.toNat < 24 ∧ grantForbidden 0x3E m.toNat 15 = false ∧ takes Ev.ACCESS_CHANGED ordSt = true)) ∧
    (Both 0xA0A [0x15, 15, 0x400080000003] ordSt (rangeFits ordSt 15 8 0x4000 = true ∧ leaving ordSt 15 8 0x4000 = [] ∧ grantForbidden 0x15 15 3 = false)) ∧
    (Both 0xA0A [0x15, 15, 0x400100000003] ordSt (rangeFits ordSt 15 0 0x4001 = false)) ∧
    (Both 0xB01 [3, 0, 1, 3] ordSt (2 < (3 : W64).toNat)) ∧ (Both 0xB01 [0, 0, 4097, 3] ordSt (4096 < (4097 : W64).toNat)) ∧ (Both 0xB01 [2, 9, 4096, 3] ordSt (ordSt.attic.nextSeq ≤ 9)) ∧
    (Both 0xB01 [1, 0, 3, 3] ringSt (0 < ringSt.attic.nextSeq ∧ (recordsIn ringSt.attic.ring 0 2).length = 2)) ∧ (Both 0xB01 [2, 0, 1, 3] ringSt (1 ≤ (recordsIn (ringSt.attic.evid ++ ringSt.attic.ring) 0 2).length)) ∧
    (Both 0xA08 [] ordSt (claimOn ordSt .profile = none ∧ profileFits ordSt = true ∧ counterOf ordSt 17 + 1 < 2 ^ 32 ∧ atticRO ordSt 2 = false ∧ (wearStep 2 (blkProfile (1 - newestCopy ordSt)) ordSt).2 = none ∧ AtticTakes blkCounters ordSt)) := by
  unfold AtticTakes
  refine ⟨both (by decide +kernel) (by decide +kernel), both (by decide +kernel) (by decide +kernel), ?_, both (by decide +kernel) (by decide +kernel), both (by decide +kernel) (by decide +kernel), both (by decide +kernel) (by decide +kernel), ?_,
    both (by decide +kernel) (by decide +kernel), both (by decide +kernel) (by decide +kernel), both (by decide +kernel) (by decide +kernel), both (by decide +kernel) (by decide +kernel), both (by decide +kernel) (by decide +kernel),
    both (by decide +kernel) (by decide +kernel), both (by decide +kernel) (by decide +kernel), both (by decide +kernel) (by decide +kernel)⟩
  all_goals
    intro n h
    simp only [List.mem_cons, List.not_mem_nil, or_false] at h
    rcases h with rfl | rfl <;> exact both (by decide +kernel) (by decide +kernel)

theorem sign_read (code : Nat) (args : List W64) (hb : (cellBar (ordered code o1 args signSt) signSt 3 signerLen).isNone = true) :
    ordRead (ordered code o1 args signSt) signSt 3 signerLen = some signerBytes := by
  unfold ordRead
  have h : (ordered code o1 args signSt).cell = none := rfl
  simp only [h, hb, if_true]
  have l : signerBytes.length = signerLen := by decide +kernel
  exact congrArg some (by unfold cellBytes signSt inCell; rw [← l]; exact memBytes_memPut _ _ _)

theorem witness_LifeOrders :
    (Both 0xA03 [9, 3] noAdmin ((ordered 0xA03 o1 [9, 3] noAdmin).admin = false)) ∧
    (Both 0xA03 [9, 3] signSt ((ordered 0xA03 o1 [9, 3] signSt).admin = true ∧ (parseSigner signerBytes).keyId = 9 ∧ (ordered 0xA03 o1 [9, 3] signSt).blank = false ∧ signerOf signSt 9 = none ∧
      signSt.attic.signers.length < 32 ∧ AtticTakes blkSigners signSt)) ∧
    (ordRead (ordered 0xA03 o1 [9, 3] signSt) signSt 3 signerLen = some signerBytes) ∧
    (Both 0xA04 [9] ordSt (signerOf ordSt 9 = none)) ∧
    (let s : State := { ordSt with attic := { ordSt.attic with signers := [⟨9, true, false, false, 0, 0, [], [], 0⟩] } }; Both 0xA04 [9] s ((signerOf s 9).isSome = true ∧ AtticTakes blkSigners s)) ∧
    (Both 0xA05 [3, 1] ordSt ((ordRead (ordered 0xA05 o1 [3, 1] ordSt) ordSt 3 4096).isSome = true ∧ counterOf ordSt 16 < 2 ^ 32 - 1)) ∧
    (Both 0xA06 [2] noAdmin ((ordered 0xA06 o1 [2] noAdmin).admin = false)) ∧ (Both 0xA06 [2] ordSt (ordSt.attic.lifecycle ≠ 1)) ∧
    (let s := lifeSt 1 ordSt; Both 0xA06 [2] s (s.attic.lifecycle = 1 ∧ s.fore.claims = [] ∧ AtticTakes blkLife s ∧ takes Ev.LIFECYCLE_CHANGE s = true)) ∧
    (let s := lifeSt 2 ordSt; Both 0xA06 [1, 3] s (s.attic.lifecycle = 2 ∧ s.fore.claims = [] ∧ AtticTakes blkEnrol s ∧ takes Ev.LIFECYCLE_CHANGE s = true ∧ (ordered 0xA06 o1 [1, 3] s).blank = false)) ∧
    (∀ l ∈ [0, 2], Both 0xA06 [3] (lifeSt l ordSt) ((lifeSt l ordSt).attic.lifecycle < 3 ∧ AtticTakes blkLife (lifeSt l ordSt))) := by
  unfold AtticTakes
  refine ⟨both (by decide +kernel) (by decide +kernel), both (by decide +kernel) (by decide +kernel), sign_read _ _ (by decide +kernel), both (by decide +kernel) (by decide +kernel), both (by decide +kernel) (by decide +kernel),
    both (by decide +kernel) (by decide +kernel), both (by decide +kernel) (by decide +kernel), both (by decide +kernel) (by decide +kernel), both (by decide +kernel) (by decide +kernel), both (by decide +kernel) (by decide +kernel), ?_⟩
  intro n h
  simp only [List.mem_cons, List.not_mem_nil, or_false] at h
  rcases h with rfl | rfl <;> exact both (by decide +kernel) (by decide +kernel)

def modeSt (m : Nat) (s : State) : State := s.setFld Reg.PWR_STATUS Fd.PWR_STATUS_MODE m
/-- In Banked, on its way back. -/
def backSt : State :=
  let s := modeSt 3 ordSt
  { s with fore := { s.fore with claims := [hwClaim .mode 0x005], waits := [ordered 0xA07 o1 [2] ordSt] } }

theorem witness_ModeOrders :
    (claimOn ordSt .mode = none ∧ resyncOn ordSt = false ∧ bankedMeets ordSt = none) ∧
    (∀ m ∈ [(1 : Nat), 2], Both 0xA07 [1] (modeSt m ordSt) ((modeSt m ordSt).mode = m ∧ testAllowed (ordered 0xA07 o1 [1] (modeSt m ordSt)) (modeSt m ordSt) = true)) ∧
    (Both 0xA07 [1] (lifeSt 2 noAdmin) (testAllowed (ordered 0xA07 o1 [1] (lifeSt 2 noAdmin)) (lifeSt 2 noAdmin) = false ∧ takes (monCode 0x15) (lifeSt 2 noAdmin) = true ∧
      effective (setAll [(Reg.TMP_LEVEL 0x15, Fd.TMP_LEVEL_LEVEL, 1)] svc) 0x15 ≤ 1)) ∧
    (∀ m ∈ [(1 : Nat), 2, 3, 4], Both 0xA07 [2] (modeSt m ordSt) ((modeSt m ordSt).mode = m)) ∧
    (∀ m ∈ [(1 : Nat), 2], Both 0xA07 [3] (modeSt m ordSt) ((modeSt m ordSt).mode = m ∧ bankedMeets (modeSt m ordSt) = none)) ∧
    (Both 0xA07 [3] (modeSt 3 ordSt) ((modeSt 3 ordSt).mode = 3)) ∧ ((modeSt 3 ordSt).live = true) ∧
    (backSt.live = true ∧ backSt.mode = 3 ∧ backSt.reg Reg.GAL_ONLINE = 0 ∧ claimOn backSt .mode = some (hwClaim .mode 0x005) ∧ (hwClaim .mode 0x005).code = 0x005 ∧
      backSt.fore.waits.find? (fun o => o.code == 0xA07 && o.arg 0 == 2) = some (ordered 0xA07 o1 [2] ordSt) ∧ (ordered 0xA07 o1 [2] ordSt).t < 4) := by
  refine ⟨by decide +kernel, ?_, both (by decide +kernel) (by decide +kernel), ?_, ?_, both (by decide +kernel) (by decide +kernel), by decide +kernel, by decide +kernel⟩
  all_goals
    intro n h
    simp only [List.mem_cons, List.not_mem_nil, or_false] at h
    first
    | (rcases h with rfl | rfl <;> exact both (by decide +kernel) (by decide +kernel))
    | (rcases h with rfl | rfl | rfl | rfl <;> exact both (by decide +kernel) (by decide +kernel))

/-! The path of an order, jobs, programs -/

def o0 : OrdBy := ⟨0, 9, .good⟩

theorem witness_OrderPath :
    (orderCmd (.epochSet o1 9) = some (0x402, o1, [9]) ∧ foreRuns svc 1 = false ∧ foreRuns ordSt 1 = true ∧ programReset ordSt 1 = false) ∧
    (let s : State := { ordSt with fore := { ordSt.fore with running := [(1, (running ordSt 1).map (fun r => { r with aborted := true }))] } }; foreRuns s 1 = true ∧ programReset s 1 = true) ∧
    (let s : State := { ordSt with fore := { ordSt.fore with running := [(1, (running ordSt 1).map (fun r => { r with orderMask := 0 }))] } }; stateAllows (ordered 0x402 o1 [9] s) s = false) ∧
    (let s : State := { ordSt with host := { ordSt.host with access := [] } }; let q := ordered 0x402 o1 [9] s; stateAllows q s = true ∧ (accessDenies q s).isSome = true ∧ takes Ev.ACCESS_VIOLATION s = true) ∧
    (let s := setAll [(Reg.TMP_STATUS, Fd.TMP_STATUS_CAUTION, 1)] ordSt; let q := ordered 0xA09 o1 [9] s; stateAllows q s = true ∧ accessDenies q s = none ∧ inCaution s = true ∧ heldInCaution 0xA09 = true) ∧
    (let s := stbySt; let q := ordered 0x402 o1 [9] s; stateAllows q s = true ∧ accessDenies q s = none ∧ (roleRefuses q s).isSome = true) ∧
    (let s := setAll [(Reg.TWN_STATUS, Fd.TWN_STATUS_RESYNC_ACTIVE, 1)] actSt; let q := ordered 0x402 o1 [9] s; stateAllows q s = true ∧ accessDenies q s = none ∧ roleRefuses q s = none ∧ resyncDefers q s = true ∧ s.fore.deferred.length < 32) ∧
    (let q := ordered 0x402 o1 [4] ordSt; roleRefuses q ordSt = none ∧ resyncDefers q ordSt = false ∧ isActive ordSt = false ∧ ordSt.mode ≠ 3 ∧ laneArg 128 = some 72 ∧ laneArg 129 = none) := by decide +kernel

/-- Firmware with a register read in g16, and with shaper parameters. -/
def ordFw : State := { ordSt with fore := { ordSt.fore with threads := [(0, { thread0 0 with regs := [(16, 0x800000), (17, 1600000000), (18, 0xFFFFFF)] })] } }
theorem witness_OrderInstruction :
    (∃ c, Ready (.fore 0) 0 c ordFw ∧ ((c.h.g 16 == 0x800000) && c.code.isNone) = true) ∧ programReset ordFw 0 = false ∧
    (∀ code ∈ [0xA02, 0x603, 0x7FF], okOrder code [] ordSt = true ∨ code = 0x7FF) ∧ ((orderBodiesLow ++ orderBodiesMid ++ orderBodiesHigh).all (fun e => e.1 != 0x7FF) = true) ∧
    (let d : Deferred := ⟨7, { ordered 0x402 o1 [0] ordSt with t := 11 }, true⟩;
      let s : State := { setAll [(Reg.GAL_EPOCH, Fd.GAL_EPOCH_LOADED, 1)] ordSt with fore := { ordSt.fore with deferred := [d] } };
      s.fore.deferred.find? (fun d => d.ticket == 7) = some d ∧ s.live = true ∧ foreOn s = true ∧ d.req.t = 4 + 7 ∧ inCaution s = false ∧ s.fore.waits = [] ∧ roleRefuses d.req s = none ∧ resyncDefers d.req s = false ∧
      isActive s = false ∧ d.req.arg 0 < 4 ∧ d.req.arg 0 = dispatchEpoch s ∧ nbit (loadedMap s) (d.req.arg 0) = true) := by
  refine ⟨ready_of (by decide +kernel), by decide +kernel, by decide +kernel, by decide +kernel, by decide +kernel⟩

/-- Job slot 15 of function 2: mode, key slot 5, cells 0 and 1, a length; gallery 5 is online. -/
def jobSt (mode len : Nat) : State :=
  let s := setAll [(Reg.SRM_CFG, Fd.SRM_CFG_PIN_TOP, 64)] (ordSt.setReg Reg.GAL_ONLINE 0x20)
  ((s.setPg 2 (pgJob 15 0) (BitVec.ofNat 64 (2 ^ 32 + 5 * 16 + mode))).setPg 2 (pgJob 15 8) (BitVec.ofNat 64 (1 * 2 ^ 32))).setPg 2 (pgJob 15 0x10) (BitVec.ofNat 64 len)
/-- Its key may be used for AEAD. -/
def jobKeySt : State := sealSlot 5 ((((slot0 0).p0 TS.VALID 1).p0 TS.OWNER_FN 2).p0 ⟨TS.U_AEAD, 1⟩ 1) (jobSt 0 4096)
/-- It runs, in context 3 of gallery 5. -/
def jobRunSt (silent : Bool) (loaded : Bool) : State :=
  let s := jobSt 0 4096
  { s with gal := { s.gal with jobs := [⟨2, 15, 0, 5, false, 5, silent⟩], ctxs := if loaded then [(23, ⟨some (.job 2 15), 7⟩)] else [] } }

theorem jobKey_takes : (useKey 5 (some (jobUse 0)) 2 true jobKeySt).1 = 0 := by decide +kernel

theorem witness_Jobs :
    (ordSt.live = true ∧ 2 ∉ ordSt.host.flr ∧ ideOk ordSt true = true ∧ (let i := ordSt.setFld Reg.HST_IDE_CFG Fd.HST_IDE_CFG_REQUIRE 1; ideOk i true = false ∧ losesEvidence Ev.ACCESS_VIOLATION i = false) ∧ (let s : State := { ordSt with host := { ordSt.host with flr := [2] } }; 2 ∈ s.host.flr)) ∧
    (∀ len ∈ [1, 65536], let s := jobSt 0 len; jobGallery s = some 5 ∧ squelched s = false ∧ nextJob s = some (2, 15) ∧ s.gal.jobs.length < 256 ∧ jobFits s 2 15 = true) ∧
    (∀ len ∈ [0, 65537], jobFits (jobSt 0 len) 2 15 = false) ∧ (jobFits (jobSt 9 8) 2 15 = false ∧ jobFits (jobSt 9 16) 2 15 = true ∧ jobFits (jobSt 15 64) 2 15 = false) ∧
    (jobCellsOk (jobSt 0 4096) 2 15 = true ∧ jobMayUse (jobSt 0 4096) 2 = true ∧ isXts (jobMode (jobSt 0 4096) 2 15) = false) ∧
    (let s := (jobSt 0 4096).setPg 2 (pgJob 15 8) (BitVec.ofNat 64 (9 * 2 ^ 32)); jobCellsOk s 2 15 = false ∧ (jobCells s 2 15).find? (fun c => !ownsCell s 2 c) = some 9 ∧ takes Ev.ACCESS_VIOLATION s = true) ∧
    (let s := (jobSt 0 4096).setPg 2 (pgJob 15 8) (BitVec.ofNat 64 (7 * 2 ^ 32)); jobCellsOk s 2 15 = false ∧ (jobCells s 2 15).all (ownsCell s 2) = true) ∧
    (let s := jobSt 0 4096; let s : State := { s with host := { s.host with access := [] } }; jobMayUse s 2 = false) ∧
    ((jobRunSt false true).gal.jobs.find? (fun b => b.fn == 2 && b.j == 15) = some ⟨2, 15, 0, 5, false, 5, false⟩ ∧ unitKey (jobRunSt false false) 5 (.job 2 15) = none ∧ unitKey (jobRunSt false true) 5 (.job 2 15) = some 7 ∧
      unitKey (jobRunSt true true) 5 (.job 2 15) = some 7) := by decide +kernel

/-- A bundle of one program of one bundle of NOPs, for the signer 9 with SEQ 3. -/
def bundleBytes : Bytes :=
  natBe 4 0x4E4D5042 ++ [1, 1, 1, 0] ++ natBe 4 (88 + 4723) ++ natBe 4 9 ++ natBe 8 3 ++ natBe 4 88 ++ zeros 36 ++ natBe 4 80 ++ natBe 2 1 ++ zeros 10 ++ zeros 8112
def sig9 : Signer := ⟨9, true, false, false, 0x7FF, 0xFFFF, [], [], 2⟩
/-- Function 2's ring holds one descriptor of cells 0 and 1. -/
def bellSt : State :=
  let s := ordSt.setPg 2 0x1000 (BitVec.ofNat 64 (0 + 2 ^ 16 * 2 + 2 ^ 32 * 2 + 2 ^ 48 * 10000))
  memPut (landingAt 0) bundleBytes { s with attic := { s.attic with lifecycle := 1, signers := [sig9] } }

theorem bell_reads : cellBytes bellSt 0 8192 = bundleBytes := by
  have l : bundleBytes.length = 8192 := by decide +kernel
  unfold cellBytes bellSt
  rw [← l]
  exact memBytes_memPut _ _ _

theorem witness_Programs :
    (let head := bellSt.pgFld 2 pgOrdDb RF.ORD_HEAD; bellSt.live = true ∧ 2 ∉ bellSt.host.flr ∧ ideOk bellSt true = true ∧ (let i := bellSt.setFld Reg.HST_IDE_CFG Fd.HST_IDE_CFG_REQUIRE 1; ideOk i true = false ∧ losesEvidence Ev.ACCESS_VIOLATION i = false) ∧ head = 0 ∧ tailFits 64 head (bellSt.pgFld 2 pgOrdDb RF.ORD_TAIL) 1 = true ∧ (head + 1) % 64 = 1 ∧ bellSt.fore.verify.length < 32 ∧
      (bellSt.pg 2 0x1000).toNat = 0 + 2 ^ 16 * 2 + 2 ^ 32 * 2 + 2 ^ 48 * 10000 ∧ bellSt.pg 2 0x1008 = 0 ∧ rangeReady bellSt 2 0 2 = true ∧ readable bellSt (landingAt 0) 8192 = true) ∧
    (tailFits 64 5 8 6 = false ∧ tailFits 64 5 5 5 = true ∧ tailFits 64 63 63 62 = true) ∧
    (bundleFits bundleBytes 8192 = true) ∧
    (let b : Bundle := ⟨0, 2, 0, 2, 2, 10000, 9, 3, 0, false, false, [], [], 88⟩; signerCheck bellSt b = none ∧ signerFor bellSt b = some (sig9, false) ∧
      signerTakes bellSt sig9 b.fn = true ∧ lastSeqOf bellSt sig9 < b.seq ∧ b.ticket ∉ bellSt.fore.revoked ∧ b.progs.all (fun p => codeLoads p.code) = true ∧
      AtticTakes blkSigners bellSt ∧
      (let s : State := { bellSt with fore := { bellSt.fore with verify := [b], pkeOk := true } }; s.fore.verify = b :: [] ∧ ∀ f, f < 16 → s.pgFld f pgOrdDb RF.ORD_HEAD = s.pgFld f pgOrdDb RF.ORD_TAIL) ∧
      (let s : State := { bellSt with fore := { bellSt.fore with accepted := [b], running := [] } }; s.fore.accepted = b :: [] ∧ foreOn s = true ∧ inCaution s = false ∧ running s 3 = none ∧ (startSigner s b).isSome = true)) ∧
    (∃ r, running ordSt 1 = some r ∧ orderIdle ordSt 1 = true ∧ r.aborted = false ∧ r.status = none ∧ ranOut ordSt 1 r = false ∧ r.b.progs.length ≤ r.idx + 1 ∧
      ranFor ordSt r ≤ r.b.limit * 1000000 ∧ r.b.limit * 1000000 < ranFor { ordSt with time := { ordSt.time with up := 1000000001 } } r) := by
  refine ⟨?_, by decide +kernel, by decide +kernel, by unfold AtticTakes; decide +kernel, ⟨_, rfl, by decide +kernel⟩⟩
  decide +kernel

/-! Frames -/

/-- Client and line port 31 up and bound to each other, the client port's default record 5, line port 30 up and of no client. -/
def rxSt : State :=
  setAll [(Reg.MAC_PORT_STATUS 31, Fd.MAC_PORT_STATUS_UP, 1), (Reg.MAC_PORT_STATUS 63, Fd.MAC_PORT_STATUS_UP, 1), (Reg.MAC_PORT_STATUS 62, Fd.MAC_PORT_STATUS_UP, 1), (Reg.TBL_PORT_CFG 31, Fd.TBL_PORT_CFG_BIND_EN, 1),
    (Reg.TBL_PORT_CFG 31, Fd.TBL_PORT_CFG_BIND_LINE, 31), (Reg.TBL_PORT_CFG 31, Fd.TBL_PORT_CFG_DEF_VALID, 1), (Reg.TBL_PORT_CFG 31, Fd.TBL_PORT_CFG_DEF_ASSOC, 5),
    (Reg.TBL_CFG, Fd.TBL_CFG_LEARN_EN, 0)] svc
/-- The same with one rule for everything, which answers `res`. -/
def ruleSt (res : W64) : State := { rxSt with cls := { rxSt.cls with rules := [(4, ⟨0, 0, res, false⟩)] } }
/-- Line port 31 runs MACsec. -/
def macSt (res : W64) : State := (ruleSt res).setFld (Reg.MSC_PORT_CFG 31) Fd.MSC_PORT_CFG_MACSEC_EN 1
/-- A frame between two stations with the EtherType `ty` and `n` zero bytes. -/
def frameOf (ty n : Nat) : Bytes := natBe 6 2 ++ natBe 6 4 ++ natBe 2 ty ++ zeros n

theorem witness_FrameEntry :
    (trafficOn rxSt = true ∧ rxSt.flag Reg.WND_DN_CFG Fd.WND_DN_CFG_EN = false ∧ portUp rxSt 31 = true ∧ portUp rxSt 63 = true ∧ portUp rxSt 30 = false ∧ portUp rxSt 32 = false ∧ svc.live = true ∧
      (zeros 59).length + 4 < 64 ∧ (frameOf 0x9000 46).length + 4 = 64 ∧ effMax rxSt 31 = 1486 ∧ effMax rxSt 63 = 1518) ∧
    (∀ n ∈ [46, 1468], let data := frameOf 0x9000 n; let v := classify 31 data true (macCountRx 31 data .good rxSt); let w := police 31 v.1 data (requestAssoc 5 v.2);
      64 ≤ data.length + 4 ∧ data.length + 4 ≤ effMax rxSt 31 ∧ isControl data = false ∧ rxSt.flag Reg.TBL_CFG Fd.TBL_CFG_LEARN_EN = false ∧ fget v.1.res RR.DROP = 0 ∧ lineFramed v.2 31 = false ∧
      boundLine v.2 31 = some 31 ∧ clientAssoc v.2 31 31 v.1 = some 5 ∧ isRepl v.2 31 = false ∧ w.1 ≠ 2 ∧ backlogRoom w.2 31 data.length = true) ∧
    (let data := frameOf 0x9000 46; fget (classify 31 data true (macCountRx 31 data .good (ruleSt 0x8000000000))).1.res RR.DROP = 1 ∧ isControl data = false) ∧
    (∀ r ∈ [((0x8000000000 : W64), 1, 0), (0, 0, 0), (0x1000000000, 0, 1)], let data := frameOf 0x9000 46; let s := ruleSt r.1; let k := (classify 63 data (macsecOn s 31) (macCountRx 63 data .good s)).1;
      macsecOn s 31 = false ∧ boundClient s 31 = some 31 ∧ boundClient s 30 = none ∧ hasFlag k.flags fEapol = false ∧ fget k.res RR.DROP = r.2.1 ∧ fget k.res RR.CLEAR_OK = r.2.2) ∧
    (let s := macSt 0; let bad := natBe 6 2 ++ natBe 6 4 ++ natBe 2 0x88E5 ++ [0x80] ++ zeros 45; let good := natBe 6 2 ++ natBe 6 4 ++ natBe 2 0x88E5 ++ [0x20, 16] ++ zeros 44;
      (∀ d ∈ [bad, good], macsecOn s 31 = true ∧ etype s d = 0x88E5 ∧ fget (classify 63 d true (macCountRx 63 d .good s)).1.res RR.DROP = 0 ∧ boundClient s 31 = some 31 ∧ isControl d = false ∧ d.length + 4 = 64) ∧
      badTag s 31 bad (l2Off s bad) = true ∧ (badTag s 31 good (l2Off s good) = false ∧ findSci (classify 63 good true (macCountRx 63 good .good s)).2 31 (frameSci s 31 good (l2Off s good)) = none)) := by
  refine ⟨?_, ?_, ?_, ?_, ?_⟩
  case refine_2 =>
    intro n h
    simp only [List.mem_cons, List.not_mem_nil, or_false] at h
    rcases h with rfl | rfl <;> decide +kernel
  all_goals decide +kernel

/-- Client port 31 one lane wide; class `c` of it paused, and held by the part. -/
def pauseSt (up : Nat) (c : Nat) : State :=
  let s := setAll [(Reg.WND_PFC_CFG 31, Fd.WND_PFC_CFG_TX_EN, 0xFF), (Reg.WND_PFC_CFG 31, Fd.WND_PFC_CFG_QUANTA, 100), (Reg.LAN_GRP_CFG 3, Fd.LAN_GRP_CFG_GROUPING, 1)] rxSt
  { s with
    time := { s.time with up := up }
    wnd := { s.wnd with queues := [(queueAt 31 c, { queue0 0 with pausedUntil := some 200000000 }), (queueAt 63 c, { queue0 0 with xoff := true })] } }
/-- A learn of key 5 on port 3 waits, 6 s after the counter began; the table holds what `ps` says. -/
def learnSt (ps : Table Peer) : State := { svc with time := { svc.time with up := 6000000000 }, cls := { svc.cls with learnQ := [⟨5, 3, 3⟩], peers := ps, fetching := [9] } }
/-- The peer of key 5 at location `loc`. -/
def peer5 (loc static learned : Nat) (c : Option Nat) : Table Peer := [(7, ⟨5, BitVec.ofNat 64 (loc * 2 ^ 21 + static * 2 ^ 27), 0, learned, false, c⟩)]

theorem witness_PausesAndLearns :
    (trafficOn rxSt = true ∧ portUp rxSt 63 = true ∧ (let s := pauseSt 0 7; trafficOn s = true ∧ portUp s 31 = true ∧ portRate s 31 ≠ 0)) ∧
    (∀ c ∈ [0, 7], (queueOf (pauseSt 0 c) (queueAt 31 c)).pausedUntil = some 200000000 ∧ (pauseSt 0 c).time.up < 200000000 ∧ 200000000 ≤ (pauseSt 200000000 c).time.up ∧
      (queueOf (pauseSt 100000000 c) (queueAt 31 c)).pausedLong = false ∧ (queueOf (pauseSt 100000000 c) (queueAt 31 c)).pausedAt + 100000000 ≤ (pauseSt 100000000 c).time.up ∧
      priorityHeld (pauseSt 128 c) 31 c = true ∧ pfcDue (pauseSt 128 c) 31 c = true ∧ pfcDue (pauseSt 127 c) 31 c = false ∧ priorityHeld (pauseSt 128 c) 31 (7 - c) = false) ∧
    (let s := learnSt []; s.cls.fetching.contains 9 = true ∧ s.cls.fetching.contains 8 = false ∧ (s.cls.cached.erase 9).length < 32768 ∧ (readCells [recordAt 9 / 256, mapWordAt 9 / 256] .good s).1 = true ∧
      (let c := recordAt 9 / 256; let p : State := { s with mem := { s.mem with side := [(c, some ⟨regionKey s 1, kgenOf s (regionKey s 1), true, true⟩)] } }; (readCells [recordAt 9 / 256, mapWordAt 9 / 256] .good p).1 = false) ∧
      keyHeld s (sectorAt s (recordAt 9 / 256)).mkey (sectorAt s (recordAt 9 / 256)).kgen = true ∧ (sectorAt s (recordAt 9 / 256)).poison = false ∧ Ecc.good ≠ .bad) ∧
    (svc.cls.learnQ = [] ∧ (learnSt []).live = true ∧ (learnSt []).cls.learnQ = [⟨5, 3, 3⟩] ∧ findPeer (learnSt []) 5 = none ∧ placeIn (learnSt []).cls.peers (peerBuckets 5) = some 183112) ∧
    (let s : State := { fullSt with cls := { fullSt.cls with learnQ := [⟨5, 3, 3⟩] } }; findPeer s 5 = none ∧ placeIn s.cls.peers (peerBuckets 5) = none) ∧
    (∀ x ∈ [(3, 0, 0, none), (4, 1, 0, none), (4, 0, 5999, some 5999), (4, 0, 5999, none), (4, 0, 0, none)], let s := learnSt (peer5 x.1 x.2.1 x.2.2.1 x.2.2.2);
      findPeer s 5 = some (7, ⟨5, BitVec.ofNat 64 (x.1 * 2 ^ 21 + x.2.1 * 2 ^ 27), 0, x.2.2.1, false, x.2.2.2⟩) ∧ takes Ev.STATIC_CONFLICT s = true ∧
      fget (BitVec.ofNat 64 (x.1 * 2 ^ 21 + x.2.1 * 2 ^ 27)) PR.LOC = x.1 ∧ fget (BitVec.ofNat 64 (x.1 * 2 ^ 21 + x.2.1 * 2 ^ 27)) PR.STATIC = x.2.1) ∧
    (tblStamp (learnSt []) = 6000 ∧ svc.fld Reg.TBL_CFG Fd.TBL_CFG_MOVE_HOLD = 100 ∧ 6000 - 5999 < 100 ∧ 6000 < 5999 + 100 ∧ 100 ≤ 6000 - 0) := by decide +kernel

/-- Record 5 transmits for line port 31 with AN 3 on slot 16383, NEXT_PN 9; record 6 receives on it, AN 2 with a key in the cellar at handle 77. -/
def dispRec : State :=
  let e : AnEnt := { an0 with valid := true, slot := 16383, nextPn := 9 }
  let q : AnEnt := { an0 with valid := true, slot := 0x3FFF, map := 0x10004D }
  { (rxSt.setReg Reg.GAL_ONLINE 0x8000000000000001) with
    assoc := [(5, { assoc0 5 with ctrl := 0xFA3C8, ans := [an0, an0, an0, e] }), (6, { assoc0 6 with ctrl := 0xFA0C9, ans := [an0, an0, q, an0] })]
    vault := { rxSt.vault with slots := [(16383, { slot0 0 with w0 := 0x801, key := 77 })] } }
def txIt : Item := { newItem 31 31 (frameOf 0x9000 46) 0 with assoc := some 5, target := 63, queue := 504 }
def rxIt (an : Nat) : Item := { newItem 63 63 (frameOf 0x88E5 300) 0 with assoc := some 6, an := an, pn32 := 5, target := 31, queue := 248 }
def dispSt (it : Item) : State := { dispRec with gal := { dispRec.gal with backlog := [(it.dom, [it, it])] } }
/-- Every tag in use. -/
theorem tagsFree_full (s : State) (f : Nat → Option Item) (h : s.gal.items = (List.range 65536).map (fun t => (t, f t))) : tagsFree s = 0 := by
  unfold tagsFree
  rw [h, List.filter_eq_self.mpr, List.length_map, List.length_range]
  intro e he
  obtain ⟨t, ht, rfl⟩ := List.mem_map.mp he
  simpa using List.mem_range.mp ht

theorem witness_Dispatcher :
    (trafficOn { svc with mainOn := false } = false ∧ svc.gal.parked = [] ∧ backlogOf svc 111 = []) ∧
    (let s := dispSt txIt; trafficOn s = true ∧ s.gal.parked = [] ∧ backlogOf s 31 = [txIt, txIt] ∧ txIt.dom = 31 ∧
      planOf { s with cls := { s.cls with fetching := [5] } } txIt = .wait ∧ txIt.assoc = some 5 ∧ s.cls.fetching.contains 5 = false ∧ (arec s 5).memBad = false ∧ (arec s 5).ans.length = 4 ∧
      (arec s 5).c AC.STATE = 1 ∧ (arec s 5).c AC.CUR_AN = 3 ∧ ((arec s 5).an 3).valid = true ∧ ((arec s 5).an 3).retiring = false ∧ ((arec s 5).an 3).handle = none ∧
      ((arec s 5).an 3).nextPn ≤ (arec s 5).limit ∧ ((arec s 5).an 3).nextPn + 1 < (arec s 5).limit - (arec s 5).warn ∧ (slotOf s 16383).valid = true ∧ ((arec s 5).an 3).slot = 16383 ∧
      parentSame s (slotOf s 16383) = true ∧ reached s ((slotOf s 16383).g2 TS.EXPIRY) = false ∧ (slotOf s 16383).bit TS.U_AEAD = true ∧ s.gal.paused.contains 31 = false ∧
      pfcField s 31 Fd.WND_PFC_CFG_TX_EN = 0 ∧ ptpFind s txIt.data = none ∧ (∀ tag ∈ [0, 65535], itemOf s tag = none) ∧ mayGo s txIt = true ∧ pickGallery s = some 0 ∧
      mayGo (s.setReg Reg.GAL_ONLINE 0) txIt = false) ∧
    (let s := dispSt (rxIt 2); planOf s (rxIt 2) = .park (some 77) ∧ (rxIt 2).dom = 63 ∧ backlogOf s 63 = [rxIt 2, rxIt 2] ∧ ceilDiv (rxIt 2).len 256 = 2 ∧ 2 ≤ parkRoom s ∧ s.vault.fills.contains 77 = false ∧
      s.flag Reg.SRM_CFG Fd.SRM_CFG_FILL_EN = true ∧ s.gal.parked = [] ∧ trafficOn s = true) ∧
    (let s := dispSt (rxIt 3); planOf s (rxIt 3) = .drop 7 false ∧ s.flag Reg.WND_DN_CFG Fd.WND_DN_CFG_EN = false ∧ 7 ≠ 6) ∧
    (∀ (up : Nat) (l : Table (Option Item)), l = (List.range 65536).map (fun t => (t, some txIt)) → let s : State := { svc with time := { svc.time with up := up }, gal := { svc.gal with stallAt := some 0, items := l } };
      tagsFree s = 0 ∧ s.live = true ∧ s.gal.stallAt = some 0 ∧ s.gal.stallRaised = none) := by
  refine ⟨by decide, by decide +kernel, by decide +kernel, by decide +kernel, fun _ _ h => ⟨tagsFree_full _ _ h, rfl, rfl, rfl⟩⟩

/-- A frame without confidentiality and the tag that belongs to it. -/
def clearTagged : Bytes := frameOf 0x88E5 62
/-- Item 65535 of line port 31 in the cipher unit of gallery 63, its key in context 3; `st` says what the unit does with it. -/
def unitIt (st : IState) (icv : Bytes) : Item :=
  { newItem 63 63 (clearTagged ++ icv) 0 with
    tag := 65535, gal := 63, st := st, key := some ⟨16383, 77, false⟩, tagOff := 12, target := 31, queue := 248 }
def unitSt (it : Item) : State :=
  { dispRec with gal := { dispRec.gal with items := [(65535, some it)], tags := [(it.dom, [65535])], ctxs := [(255, { ctx0 0 with work := some (.item 65535), key := 77 })] } }

theorem opens_own (it : Item) (k : KeyUse) (hd icv : Bytes) (hdata : it.data = hd ++ icv) (he : nbit it.tci.toNat 3 = false) (hs : it.tagOff + secTagLen (hd ++ icv) it.tagOff ≤ hd.length) (hl : icv.length = 16)
    (ht : icv = gcmTag k.bytes (macsecIv it) hd []) : (openFrame it k).ok = true := by
  have e1 : it.data.length - 16 = hd.length := by rw [hdata, List.length_append, hl, Nat.add_sub_cancel]
  have e2 : it.data.take hd.length = hd := by rw [hdata, List.take_left' rfl]
  have e3 : it.data.drop hd.length = icv := by rw [hdata, List.drop_left' rfl]
  have e4 : it.data.take (it.tagOff + secTagLen it.data it.tagOff) = hd.take (it.tagOff + secTagLen it.data it.tagOff) := by
    rw [← hdata] at hs
    rw [hdata, List.take_append_of_le_length (hdata ▸ hs)]
  unfold openFrame
  simp only [e1, e2, e3, e4, he, Bool.false_eq_true, if_false, List.append_assoc, List.take_append_drop]
  rw [← ht, beq_self_eq_true]

theorem gcmTag_length (key iv aad ct : Bytes) (h : KeyOk key) (hi : iv.length = 12) : (gcmTag key iv aad ct).length = 16 := by
  unfold gcmTag
  simp only [xorB_length, natBe_length]
  rw [aesEnc_length key _ h (by rw [List.length_append, natBe_length, hi])]
  rfl

theorem macsecIv_unit (icv : Bytes) : macsecIv (unitIt .opening icv) = zeros 12 := by
  unfold macsecIv
  rw [show (unitIt .opening icv).ctrl = 0 from rfl, show (unitIt .opening icv).sci = 0 from rfl, show (unitIt .opening icv).pn = 0 from rfl, if_neg (by decide)]
  decide

theorem opens_unit (icv : Bytes) (ht : icv = gcmTag (⟨16383, 77, false⟩ : KeyUse).bytes (zeros 12) clearTagged []) :
    (openOf (unitSt (unitIt .opening icv)) (unitIt .opening icv)).ok = true ∧ (unitIt .opening icv).key = some ⟨16383, 77, false⟩ := by
  have hl : icv.length = 16 := by
    rw [ht]
    exact gcmTag_length _ _ _ _ (keyOk_of_length _ (.inl (by decide))) (by decide)
  refine ⟨?_, rfl⟩
  have : secTagLen (clearTagged ++ icv) 12 = 8 := by
    unfold secTagLen tciBit b8
    rw [List.getD_eq_getElem?_getD, List.getElem?_append_left (by decide)]
    decide
  show (openFrame (unitIt .opening icv) ⟨16383, 77, false⟩).ok = true
  refine opens_own _ _ clearTagged icv rfl (show nbit (0 : Byte).toNat 3 = false by decide) ?_ hl (by rw [macsecIv_unit]; exact ht)
  show 12 + secTagLen (clearTagged ++ icv) 12 ≤ clearTagged.length
  rw [this]
  decide

theorem witness_CipherAndScreen :
    (∀ tag : Nat, unitItem svc tag .sealing = none ∧ unitItem svc tag .opening = none) ∧
    (let it := unitIt .sealing (zeros 16); let s := unitSt it; s.live = true ∧ unitItem s 65535 .sealing = some it ∧ unitKey s it.gal (.item it.tag) = some 77 ∧ it.key = some ⟨16383, 77, false⟩ ∧ it.gone = none ∧
      unitKey { s with gal := { s.gal with ctxs := [] } } it.gal (.item it.tag) = none ∧ ctxOfWork s it.gal (.item it.tag) = some 3 ∧ tget nil0 s.gal.unitQ it.gal = []) ∧
    (let it := { unitIt .sealing [] with gone := some (0x11, 0xFD) }; unitItem (unitSt it) 65535 .sealing = some it ∧ it.key.isSome = true ∧ it.gone.isSome = true) ∧
    (let it := { unitIt .sealing [] with key := none }; unitItem (unitSt it) 65535 .sealing = some it ∧ it.key = none ∧ it.gone = none) ∧
    (∀ icv, icv = gcmTag (⟨16383, 77, false⟩ : KeyUse).bytes (zeros 12) clearTagged [] → let it := unitIt .opening icv
      (unitSt it).live = true ∧ unitItem (unitSt it) 65535 .opening = some it ∧ unitKey (unitSt it) it.gal (.item it.tag) = some 77 ∧ it.key = some ⟨16383, 77, false⟩ ∧ (77 : BitVec 512).setWidth 256 = 77 ∧ it.gone = none ∧
      (openOf (unitSt it) it).ok = true) ∧
    (let it := { unitIt .opening [] with key := none }; (openOf (unitSt it) it).ok = false ∧ isTub it = false ∧ it.assoc = none ∧ it.gone = none ∧ unitItem (unitSt it) 65535 .opening = some it) ∧
    (∀ g : Fin 64, let s := svc.setReg Reg.GAL_ONLINE 0xFFFFFFFFFFFFFFFF; s.live = true ∧ (s.reg Reg.GAL_ONLINE).getLsbD g.val = true ∧ (svc.reg Reg.GAL_ONLINE).getLsbD g.val = false ∧
      s.gal.items = [] ∧ s.gal.jobs = [] ∧ s.gal.ctxs = [] ∧ takes (monCode 0x12) s = true ∧ effective s 0x12 ≤ 1 ∧ s.flag Reg.WND_DN_CFG Fd.WND_DN_CFG_EN = false) ∧
    (∀ d : Nat, tagsOf svc d = []) ∧
    (∀ st ∈ [IState.done, .punted, .dropped 9 0, .queued], let it := { unitIt st [] with key := none }; let s := unitSt it;
      trafficOn s = true ∧ tagsOf s 63 = 65535 :: [] ∧ itemOf s 65535 = some it ∧ it.dom = 63 ∧ it.tag = 65535 ∧ complete it = decide (st ≠ .queued) ∧ it.assoc = none ∧ it.counted = false ∧ it.epoch = dispatchEpoch s ∧
      it.port < noPort ∧ (∀ up ∈ [1000 * s.fld Reg.GAL_CFG Fd.GAL_CFG_SCREEN_TMO], s.time.up < it.at_ + up ∧ it.at_ + up ≤ ({ s.time with up := up } : TimeSt).up)) := by
  refine ⟨fun _ => ⟨rfl, rfl⟩, by decide +kernel, by decide +kernel, by decide +kernel, fun icv h => ⟨rfl, rfl, rfl, rfl, by decide +kernel, rfl, (opens_unit icv h).1⟩, by decide +kernel, by decide +kernel, fun _ => rfl, by decide +kernel⟩

theorem witness_ReplayWindows :
    (cfield 0xC8 AC.REPLAY = 1 ∧ cfield 0xC8 AC.DUP = 1 ∧
      (∀ e : AnEnt, e = { an0 with nextPn := 300, lowestPn := 100, dupMap := 3 } →
        (99 < e.lowestPn ∧ ¬100 < e.lowestPn) ∧ ((298 < e.nextPn ∧ e.nextPn ≤ 298 + 128 ∧ nbit e.dupMap (e.nextPn - 1 - 298) = true) ∧ nbit e.dupMap (e.nextPn - 1 - 297) = false ∧ ¬e.nextPn ≤ 171 + 128))) ∧
    (let e : AnEnt := { an0 with nextPn := 20000, seen := 1 }; e.nextPn < 20001 ∧ 3616 ≤ e.nextPn ∧ 3616 + 16384 ≤ e.nextPn ∧ e.nextPn < 3617 + 16384 ∧ nbit e.seen (e.nextPn - 20000) = true ∧
      nbit e.seen (e.nextPn - 3617) = false) := by
  refine ⟨⟨by decide, by decide, ?_⟩, by decide +kernel⟩
  rintro e rfl
  decide

/-! Schedulers -/

/-- A frame for an egress. -/
def qf : QFrame := ⟨frameOf 0x9000 46, 31, 0, false, false, 0, 0, none, false, 0, 0, 0, none, false, [], 0, 0, none, false, []⟩
/-- Line port 31 with the frames of one queue. -/
def egSt (c : Nat) (l : List QFrame) (x : Egress) : State :=
  { rxSt with wnd := { rxSt.wnd with queues := [(queueAt 63 c, { queue0 0 with frames := l, deficit := 1000 })], egress := [(63, x)] } }

theorem witness_EgressSends :
    (portUp rxSt 62 = true ∧ portUp rxSt 61 = false ∧ (∀ e : Fin 64, (egressAt svc e.val).busy = none ∧ (egressAt svc e.val).fetch = none ∧ ∀ c : Fin 8, (queueOf svc (queueAt e.val c.val)).frames = [])) ∧
    (∀ cut ∈ [true, false], let s := egSt 0 [] { egress0 0 with busy := some { qf with cut := cut } }; trafficOn s = true ∧ portUp s 63 = true ∧ (egressAt s 63).busy = some { qf with cut := cut } ∧
      ∀ c : Fin 8, (queueOf s (queueAt 63 c.val)).frames = []) ∧
    (∀ c ∈ [0, 7], FirstToGo 63 c qf (egSt c [qf, qf] (egress0 0)) ∧ (egressAt (egSt c [qf, qf] (egress0 0)) 63).busy = none ∧ (egressAt (egSt c [qf, qf] (egress0 0)) 63).fetch = none) ∧
    (let h := { qf with hbm := true, cells := [5] }; let s := egSt 7 [h] { egress0 0 with fetch := some 511 };
      let p : State := { s with mem := { s.mem with side := [(5, some ⟨0, 0, true, true⟩)] } }; let u := fun (s : State) => setEgress 63 { egressAt s 63 with fetch := none } s;
      trafficOn s = true ∧ (egressAt s 63).busy = none ∧ (egressAt s 63).fetch = some 511 ∧ headFrame s 511 = some h ∧ (readCells h.cells .good (u s)).1 = true ∧ mayServe (readCells h.cells .good (u s)).2 63 7 = true ∧
      (readCells h.cells .good (u p)).1 = false ∧ (readCells h.cells .good (u p)).2.flag Reg.WND_DN_CFG Fd.WND_DN_CFG_EN = false ∧
      (let n := { s with wnd := { s.wnd with shapers := [(511, ⟨1, 1, -5, 0⟩)] } }; mayServe (readCells h.cells .good (u n)).2 63 7 = false) ∧
      headFrame (egSt 7 [] { egress0 0 with fetch := some 511 }) 511 = none ∧ headFrame (egSt 7 [qf] { egress0 0 with fetch := some 511 }) 511 = some qf ∧ qf.hbm = false) ∧
    (let h := { qf with hbm := true, data := zeros 600 }; let s := (egSt 7 [] { egress0 0 with busy := some h }).setFld (Reg.MEM_START 63) Fd.MEM_START_START 256; let m := s.fld (Reg.MEM_START 63) Fd.MEM_START_START;
      (egressAt s 63).busy = some h ∧ h.hbm = true ∧ 0 < m ∧ m < h.data.length ∧ m ≤ 599 ∧ 599 < h.data.length) ∧
    (let d := { qf with ptpAt := some 0 }; let s := egSt 7 [d] (egress0 0); dueFrame svc 63 = none ∧ dueFrame s 63 = some (511, d) ∧ missedInstant s d = false ∧ d.tsKind = 0 ∧ d.hbm = false ∧
      (let r := { d with hbm := true, cells := [5] }; let p := egSt 7 [r] (egress0 0); let p : State := { p with mem := { p.mem with side := [(5, some ⟨0, 0, true, true⟩)] } };
        dueFrame p 63 = some (511, r) ∧ missedInstant p r = false ∧ (readCells r.cells .good p).1 = false)) := by
  refine ⟨by decide +kernel, by decide +kernel, ?_, by decide +kernel, by decide +kernel, by decide +kernel⟩
  intro c h
  simp only [List.mem_cons, List.not_mem_nil, or_false] at h
  rcases h with rfl | rfl
  · refine ⟨?_, by decide +kernel⟩
    unfold FirstToGo
    refine ⟨by decide +kernel, by decide +kernel, by decide +kernel, rfl, by decide +kernel, by decide +kernel, by decide +kernel, rfl, rfl, by decide, by decide, by decide, ?_, fun _ => by decide +kernel⟩
    intro k h1 h2
    have : k = 1 ∨ k = 2 ∨ k = 3 ∨ k = 4 ∨ k = 5 ∨ k = 6 ∨ k = 7 := by omega
    rcases this with rfl | rfl | rfl | rfl | rfl | rfl | rfl <;> decide +kernel
  · refine ⟨?_, by decide +kernel⟩
    unfold FirstToGo
    refine ⟨by decide +kernel, by decide +kernel, by decide +kernel, rfl, by decide +kernel, by decide +kernel, by decide +kernel, rfl, rfl, by decide, by decide, by decide, fun k _ _ => by omega, fun h => by omega⟩

/-- Egress 63 runs a list of two entries. -/
def gateList : GList := ⟨1000, 0, [(0xFF, 0, 400), (0x80, 2, 600)]⟩
def tgSt (up : Nat) (x : Egress) : State := let s := egSt 7 [qf] x; { s with time := { s.time with up := up, now := up } }
def tgX : Egress := { egress0 0 with list := some gateList }

theorem witness_GatesAndShapers :
    (∀ e : Fin 64, (egressAt svc e.val).list = none ∧ (egressAt svc e.val).next = none) ∧
    (let s := tgSt 400 { tgX with holdTill := some 400 }; s.live = true ∧ (egressAt s 63).list = some gateList ∧ (egressAt s 63).holdTill = some 400 ∧ 400 ≤ s.time.now ∧ staleNow s (egressAt s 63) = false ∧ gateList.entries ≠ [] ∧
      (tgSt 399 tgX).time.now < 400) ∧
    (∀ l ∈ [none, some gateList], let s := tgSt 400 { tgX with next := some (l, 400) }; s.live = true ∧ (egressAt s 63).next = some (l, 400) ∧ 400 ≤ s.time.now ∧ (tgSt 399 tgX).time.now < 400) ∧
    (let s := tgSt (1000000000 * svc.fld Reg.WND_TG_CFG Fd.WND_TG_CFG_HO_MAX) tgX; s.live = true ∧ locked s = false ∧ 1000000000 * s.fld Reg.WND_TG_CFG Fd.WND_TG_CFG_HO_MAX ≤ heldOver s ∧ (listed s).filter (fun e => !(egressAt s e).stale) = [63] ∧
      heldTooLong (tgSt 399 tgX) = false ∧ listed (tgSt 399 { tgX with stale := true }) = [63]) ∧
    (let d := svc.fld Reg.WND_TG_CFG Fd.WND_TG_CFG_STALE_CYCLES * 1000; let s := tgSt (d + 1) tgX; headFrame svc 0 = none ∧ headFrame s 511 = some qf ∧ (egressAt s (egressOf 511)).list = some gateList ∧ 511 < 512 ∧ qf.resv = false ∧
      isControlFlags qf.flags = false ∧ (queueOf s 511).headAt + s.fld Reg.WND_TG_CFG Fd.WND_TG_CFG_STALE_CYCLES * gateList.cycle < s.time.up ∧ s.flag Reg.WND_DN_CFG Fd.WND_DN_CFG_EN = false ∧
      (let r := tgSt 0 { tgX with list := none }; headFrame r 511 = some qf ∧ (egressAt r (egressOf 511)).list = none)) ∧
    (let s : State := { tgSt 8 tgX with wnd := { (tgSt 8 tgX).wnd with
        queues := [(508, { queue0 0 with credit := -1 }), (509, { queue0 0 with frames := [qf], credit := 5 })], egress := [], shapers := [(0, ⟨1, 1, -5, 0⟩), (1087, ⟨1600000000, 16777215, 0, 0⟩)] } };
      s.live = true ∧ s.wnd.lastTick + 8 ≤ s.time.up ∧ (tgSt 7 tgX).time.up < s.wnd.lastTick + 8 ∧ Table.wf shaper0 s.wnd.shapers = true ∧ Table.wf queue0 s.wnd.queues = true ∧ (shaperOf s 1).rate = 0 ∧ (shaperOf s 1087).rate ≠ 0 ∧
      (egressAt s (egressOf 508)).list = none ∧ (egressAt s (egressOf 508)).busy = none ∧ (queueOf s 508).credit < 0 ∧ (queueOf s 509).frames ≠ [] ∧ (queueOf s 4).frames = [] ∧ 0 ≤ (queueOf s 4).credit) := by
  refine ⟨by decide +kernel, by decide +kernel, by decide +kernel, by decide +kernel, by decide +kernel, by decide +kernel⟩

/-! The line framer -/

/-- Line group 7 framed; trunk 15 both ways on its lane 31, which is locked; tributary 63 both ways on it, record 9, key under slot 40. -/
def lfrSt : State :=
  let s := setAll [(Reg.LAN_GRP_CFG 7, Fd.LAN_GRP_CFG_GROUPING, 7), (Reg.LAN_GRP_CFG 7, Fd.LAN_GRP_CFG_AUTO_REV, 0), (Reg.LAN_LANE_STATUS 63, Fd.LAN_LANE_STATUS_FEC_LOCK, 1), (Reg.LFR_TRUNK_CFG 15, Fd.LFR_TRUNK_CFG_EN, 1),
    (Reg.LFR_TRUNK_RXCFG 15, Fd.LFR_TRUNK_RXCFG_EN, 1), (Reg.LFR_TRUNK_CFG 15, Fd.LFR_TRUNK_CFG_BASE_SLOT, 40), (Reg.LFR_TRUNK_RXCFG 15, Fd.LFR_TRUNK_RXCFG_BASE_SLOT, 40), (Reg.LFR_TRIB_CFG 0 63, Fd.LFR_TRIB_CFG_EN, 1),
    (Reg.LFR_TRIB_CFG 1 63, Fd.LFR_TRIB_CFG_EN, 1), (Reg.LFR_TRIB_CFG 0 63, Fd.LFR_TRIB_CFG_TRUNK, 15), (Reg.LFR_TRIB_CFG 1 63, Fd.LFR_TRIB_CFG_TRUNK, 15), (Reg.LFR_TRIB_CFG 0 63, Fd.LFR_TRIB_CFG_ASSOC, 9),
    (Reg.LFR_TRIB_CFG 1 63, Fd.LFR_TRIB_CFG_ASSOC, 8)] svc
  let s := ((s.setReg (Reg.LFR_TRUNK_LANES 15 0) 0x9F).setReg (Reg.LFR_TRIB_SLOTS_LO 0 63) 0x80).setReg (Reg.LFR_TRIB_SLOTS_LO 1 63) 0x80
  { s with cls := { s.cls with cached := [8, 9] } }
def txX (x : TxTrunk) : State := { lfrSt with lfr := { lfrSt.lfr with tx := [(15, x)] } }
def txTub (o : OpenTub) (up : Nat) : State := { lfrSt with time := { lfrSt.time with up := up }, lfr := { lfrSt.lfr with txTribs := [(63, { txTrib0 0 with open_ := some o })] } }

theorem witness_LineTransmit :
    (trafficOn { svc with mainOn := false } = false ∧ tribOn svc 0 63 = false ∧ (∀ x : Fin 64, (txTribOf svc x.val).open_ = none) ∧ (∀ c : Fin 8, (queueOf svc (queueAt 127 c.val)).frames = [])) ∧
    (let s : State := { lfrSt with wnd := { lfrSt.wnd with queues := [(queueAt 127 7, { queue0 0 with frames := [qf, qf] })] } };
      trafficOn s = true ∧ tribOn s 0 63 = true ∧ tribHeld s 63 = false ∧ FirstToGo (64 + 63) 7 qf s ∧ (openTubOf 63 s).data.length + 16 + qf.data.length ≤ tubSize s 0 63) ∧
    (let o : OpenTub := ⟨zeros 16, some 0, false, 0, 0⟩; let f := svc.fld Reg.LFR_TUB_FLUSH Fd.LFR_TUB_FLUSH_FLUSH; let m := svc.fld Reg.LFR_TUB_FLUSH Fd.LFR_TUB_FLUSH_MAX_AGE;
      (txTribOf (txTub o 0) 63).open_ = some o ∧ trafficOn (txTub o 0) = true ∧ 0 < 10 * f ∧ 0 < 10 * m ∧ o.lastAt + 10 * f ≤ (txTub o (10 * f)).time.up ∧ o.firstAt + 10 * m ≤ (txTub o (10 * m)).time.up ∧
      (txTub o 0).time.up < o.lastAt + 10 * f ∧ tribTrunk (txTub o 0) 0 63 = 15 ∧ backlogRoom (txTub o (10 * m)) (64 + 15) (tubSize (txTub o (10 * m)) 0 63) = true) ∧
    (laneTx svc 31 = none ∧ laneTx lfrSt 31 = some (15, 0) ∧ framed lfrSt 31 = true ∧ txWidth lfrSt 15 = 1 ∧ 0 ∈ (txTrunkOf (txX { txTrunk0 0 with sent := [0] }) 15).sent ∧
      (let x := { txTrunk0 0 with sent := [1], lastSwitch := some 0 }; 0 ∉ (txTrunkOf (txX x) 15).sent ∧ (txTrunkOf (txX x) 15).sent ≠ []) ∧
      (let x := { txTrunk0 0 with mfc := 255, lastSwitch := some 0 }; (txTrunkOf (txX x) 15).sent = [] ∧ (txTrunkOf (txX x) 15).mfc ≠ 0 ∧ (txTrunkOf (txX x) 15).lastSwitch ≠ none) ∧ (txX (txTrunk0 0)).lfr.waiting = []) ∧
    (let x := { txTrunk0 0 with announcing := true, announced := 16, mf := 2, lastSwitch := some 0 }; let s := txX x;
      atMfStart s 15 = true ∧ atMfStart (txX { x with mfc := 1 }) 15 = false ∧ groupOf s 0 15 = [15] ∧ (txTrunkOf s 15).announcing = true ∧ 16 ≤ (txTrunkOf s 15).announced ∧ 0 + 2 ≤ (txTrunkOf s 15).mf ∧
      ({ x with announced := 15 } : TxTrunk).announced < 16 ∧ ({ x with mf := 1 } : TxTrunk).mf < 0 + 2 ∧ (txTrunkOf s 15).counted = false ∧ (txTrunkOf (txX { x with counted := true }) 15).counted = true ∧
      inCaution s = false ∧ counterOf s 15 < 2 ^ 32 - 1 ∧ AtticTakes blkCounters s ∧ s.fore.waits = [] ∧ inCaution (s.setFld Reg.TMP_STATUS Fd.TMP_STATUS_CAUTION 1) = true ∧ s.guard.held.contains (.epochTx 15) = false) ∧
    (svc.lfr.remaps = [] ∧ (∀ d ∈ [0, 1], let s : State := { lfrSt with lfr := { lfrSt.lfr with remaps := [(d, 63, 5, 6)] } }; s.live = true ∧ s.lfr.remaps.find? (fun m => m.1 == d && m.2.1 == 63) = some (d, 63, 5, 6) ∧
      remapDue s d 63 = true) ∧ (let s : State := { txX { txTrunk0 0 with mfc := 1 } with lfr := { (txX { txTrunk0 0 with mfc := 1 }).lfr with remaps := [(0, 63, 5, 6)] } }; remapDue s 0 63 = false)) := by
  refine ⟨by decide +kernel, ?_, by decide +kernel, by decide +kernel, ?_, by decide +kernel⟩
  · refine ⟨by decide +kernel, by decide +kernel, by decide +kernel, ?_, by decide +kernel⟩
    unfold FirstToGo
    exact ⟨by decide +kernel, by decide +kernel, by decide +kernel, rfl, by decide +kernel, by decide +kernel, by decide +kernel, rfl, rfl, by decide, by decide, by decide, fun k _ _ => by omega, fun h => by omega⟩
  · unfold AtticTakes
    decide +kernel

/-- A header with MFC, identity, epoch and flags, and its CRC; one with a wrong CRC; one inverted. -/
def hdr (mfc ident epoch flags : Nat) : Bytes :=
  let b := natBe 8 alignWord ++ natBe 1 mfc ++ natBe 1 ident ++ natBe 2 0 ++ natBe 1 epoch ++ natBe 1 flags
  b ++ natBe 2 (crc16 0xFFFF b)
def badHdr : Bytes := natBe 8 alignWord ++ zeros 8
def invHdr : Bytes := natBe 8 (alignWord ^^^ 0xAAAAAAAAAAAAAAAA) ++ zeros 8
/-- Lane 31 as `x` has it, its trunk down or up. -/
def rxX (x : RxLane) (up : Bool) : State :=
  let s := if up then lfrSt.setFld (Reg.LFR_TRUNK_STATUS 15) Fd.LFR_TRUNK_STATUS_UP 1 else lfrSt
  { s with lfr := { s.lfr with lanes := [(31, x)] } }
/-- A lane in frame at MFC 254. -/
def inFr : RxLane := { rxLane0 0 with inFrame := true, mfc := 254, next := 65536 }

theorem witness_LaneAcquisition :
    (hdrAlign (hdr 255 240 0 0) = true ∧ hdrGood (hdr 255 240 0 0) = true ∧ hdrMfc (hdr 255 240 0 0) = 255 ∧ (hdr 255 240 0 0).length = 16 ∧ hdrAlign badHdr = true ∧ hdrGood badHdr = false ∧ hdrInverted invHdr = true ∧
      hdrAlign invHdr = false ∧ hdrAlign (zeros 16) = false ∧ hdrGood (zeros 16) = false ∧ hdrInverted (zeros 16) = false ∧ hdrInverted badHdr = false) ∧
    (laneLive svc 31 = false ∧ laneLive lfrSt 31 = true ∧ (rxLaneOf lfrSt 31).inFrame = false ∧ (∀ k : Fin 4, (rxLaneOf lfrSt 31).trackers.getD k.val none = none) ∧
      (let x := { rxLane0 0 with trackers := List.replicate 4 (some ⟨1, 7, 9⟩) }; (rxLaneOf (rxX x false) 31).trackers = List.replicate 4 (some ⟨1, 7, 9⟩) ∧ (∀ k : Fin 4, x.trackers.getD k.val none ≠ none) ∧ (⟨1, 7, 9⟩ : Tracker).next ≠ 8) ∧
      (let s : State := { lfrSt with lanes := [(63, { laneRun0 0 with cfg := 0 })] }; let c := (tget laneRun0 s.lanes 63).cfg; fget c Fd.LAN_LANE_CFG_RX_POL_AUTO ≠ 1) ∧
      (let s : State := { lfrSt with lanes := [(63, { laneRun0 0 with cfg := BitVec.ofNat 64 (2 ^ Fd.LAN_LANE_CFG_RX_POL_AUTO.lo) })] }; let c := (tget laneRun0 s.lanes 63).cfg;
        fget c Fd.LAN_LANE_CFG_RX_POL_AUTO = 1 ∧ fget c Fd.LAN_LANE_CFG_TRAIN_EN = 0)) ∧
    (∀ n ∈ [1, 2], let x := { rxLane0 0 with trackers := [none, none, none, some ⟨n, 254, 65536⟩] }; x.trackers.getD 3 none = some ⟨n, 254, 65536⟩ ∧ laneLive (rxX x false) 31 = true ∧ (rxLaneOf (rxX x false) 31).inFrame = false) ∧
    (let s := rxX inFr false; rxPlace svc 31 = none ∧ laneLive s 31 = true ∧ (rxLaneOf s 31).inFrame = true ∧ rxPlace s 31 = some (15, 0) ∧ (∀ m : Fin 16, lfrUp s m.val = false) ∧ idByte s 15 0 = 0) ∧
    (∀ lof ∈ [2, 3], ∀ mfm ∈ [1, 2], ∀ bad ∈ [0, 2], ∀ late ∈ [true, false], let x := { inFr with lof := lof, mfm := mfm, idBad := bad, idGood := 2 - bad, late := late }; let s := rxX x false;
      rxLaneOf s 31 = x ∧ hdrMfc (hdr 254 0 0 0) ≠ (x.mfc + 1) % 256 ∧ hdrMfc (hdr 255 0 0 0) = (x.mfc + 1) % 256 ∧ b8 (hdr 255 0 0 0) 9 = idByte s 15 0 ∧ b8 (hdr 255 240 0 0) 9 ≠ idByte s 15 0 ∧
      hdrReq (hdr 255 240 0 0) = s.fld (Reg.LFR_TRUNK_STATUS 15) Fd.LFR_TRUNK_STATUS_RX_SWREQ ∧ s.flag (Reg.LAN_GRP_CFG (lineGroup 31)) Fd.LAN_GRP_CFG_AUTO_REV = false ∧ takes Ev.TRUNK_MISMATCH s = true) ∧
    (let x := { inFr with idOk := true, lof := 3 }; let s := rxX x true; lfrUp s 15 = true ∧ (∀ m : Fin 15, lfrUp s m.val = false) ∧ rxPhys s 15 0 = some 31 ∧ 0 < rxWidth s 15 ∧ s.lfr.waiting = [] ∧
      hdrMfc (hdr 255 0 0 0) = (x.mfc + 1) % 256 ∧ hdrMfc (hdr 255 0 0 0) ≠ 0 ∧ b8 (hdr 255 0 0 0) 9 = idByte s 15 0 ∧ hdrReq (hdr 255 0 0 0) = s.fld (Reg.LFR_TRUNK_STATUS 15) Fd.LFR_TRUNK_STATUS_RX_SWREQ ∧
      nbit (b8 (hdr 255 0 0 0) 13) 7 = false ∧ rxOn s 15 = true ∧ rxWidth s 15 = 1 ∧ (rxTrunkOf s 15).rows = []) ∧
    (let s := rxX { inFr with idOk := true } false; trafficOn s = true ∧ lfrUp s 15 = false ∧ trunkGood s 15 = true ∧ trunkGood lfrSt 15 = false ∧ lfrUp (rxX inFr true) 15 = true) := by
  refine ⟨?_, ?_, ?_, ?_, ?_, ?_, ?_⟩ <;> decide +kernel

theorem useKey_good (n : Nat) (u : Option Nat) (f : Nat) (s : State) (h : (useKey n u f true s).1 = 0) : useKey n u f true s = (0, s) := by
  unfold useKey absentStatus at *
  dsimp only at h ⊢
  split_ifs at h ⊢
  all_goals simp_all

/-- A tub's header in epoch 0, and two of them around a tub. -/
def tubHdr (flags seq epoch : Nat) : Bytes := natBe 1 (64 * (epoch % 4) + 63) ++ natBe 1 flags ++ natBe 2 0xFFFF ++ natBe 6 seq ++ natBe 1 epoch ++ zeros 5
def twoTubs : Bytes := tubHdr 0 7 0 ++ zeros 2064 ++ tubHdr 0 8 0
/-- Tributary 63 receives on trunk 15, which is up; its lane shows `k`. -/
def tubSt (r : RxTrib) (k : Option Nat) : State :=
  let s := lfrSt.setFld (Reg.LFR_TRUNK_STATUS 15) Fd.LFR_TRUNK_STATUS_UP 1
  { s with lfr := { s.lfr with rxTribs := [(63, r)], lanes := [(31, { inFr with idOk := true, epoch := k })] } }
def inDelin (fails : Nat) (last : Option (Nat × Nat × Bool)) (b : Bytes) : RxTrib := { rxTrib0 0 with delin0 := ⟨true, fails, last⟩, stream0 := b }

theorem witness_TubDelineation :
    (tribOn svc 1 63 = false ∧ (let s := tubSt (rxTrib0 0) none; trafficOn s = true ∧ tribOn s 1 63 = true ∧ 15 = tribTrunk s 1 63 ∧ lfrUp s 15 = true ∧ shownEpoch s 15 = none ∧ (rxTribOf s 63).delin0.ok = false ∧ tubSize s 1 63 + 32 = 2080)) ∧
    (let s := tubSt { rxTrib0 0 with stream0 := twoTubs } none; (List.range (twoTubs.length - (2080 + 15))).find? (joinsAt s 15 63 twoTubs) = some 0) ∧
    (let s := tubSt { rxTrib0 0 with stream0 := zeros 2096 } none; ∀ p : Fin 1, joinsAt s 15 63 (zeros 2096) p.val = false) ∧
    (∀ x ∈ [(0, 0xFFFF), (0x10, 0)], let b := tubHdr x.1 7 0 ++ zeros 2064; let s := tubSt (inDelin 2 (some (0, 6, false)) b) none; (rxTribOf s 63).delin0.ok = true ∧ 2080 ≤ b.length ∧ tubEpoch s 15 63 (b.take 2080) = some 0 ∧
      headerForm s 63 (b.take 2080) = true ∧ (∀ m, (rxTribOf s 63).delin0.last = some m → m.1 = 0) ∧ nbit (b8 b 1) 4 = decide (x.1 = 0x10) ∧ tribMerge s 1 63 = false ∧ s.cls.cached.contains (tribAssoc s 1 63) = true ∧
      backlogRoom s (80 + 15) (2080 - 16) = true) ∧
    (∀ fails ∈ [1, 2], let b := zeros 2080; let s := tubSt (inDelin fails (some (3, 6, false)) b) none; headerForm s 63 (b.take 2080) = false ∧ (rxTribOf s 63).delin0.fails = fails) ∧
    (let b := tubHdr 0x10 7 0 ++ zeros 2064; let s := tubSt (inDelin 0 (some (3, 6, false)) b) none; (rxTribOf s 63).delin0.last = some (3, 6, false) ∧ 3 ≠ b8 b 0 / 64) := by
  refine ⟨by decide +kernel, by decide +kernel, by decide +kernel, ?_, by decide +kernel, by decide +kernel⟩
  intro x h
  simp only [List.mem_cons, List.not_mem_nil, or_false] at h
  rcases h with rfl | rfl <;> exact ⟨by decide +kernel, by decide +kernel, by decide +kernel, by decide +kernel, fun m h => by cases h; rfl, by decide +kernel, by decide +kernel, by decide +kernel, by decide +kernel⟩

/-- The receive trunk at epoch 5 with an old epoch that ended `at_`. -/
def oldX : RxTrunk := { rxTrunk0 0 with olds := [⟨4, 0, false⟩] }
def oldTrunk (up : Nat) (x : RxTrunk) : State :=
  { tubSt (rxTrib0 0) none with
    time := { svc.time with up := up }, lfr := { (tubSt (rxTrib0 0) none).lfr with rx := [(15, x)] }
    assoc := [(8, { assoc0 8 with ans := [{ an0 with valid := true, slot := 16000, epoch := 4 }, an0, an0, an0] })] }
/-- Base slot 40 holds a key that derives. -/
def baseSt : State := sealSlot 40 ((((slot0 0).p0 TS.VALID 1).p0 TS.LEN 1).p0 ⟨TS.U_DERIVE, 1⟩ 1) (lfrSt.setFld Reg.SRM_CFG Fd.SRM_CFG_PIN_TOP 16380)
def heldTub (mark : Nat) (cells : List Nat) : OpenedTub := ⟨0, 7, false, 0, natBe 8 (mark * 2 ^ 48) ++ zeros 8, [], 0, 0, 0, 0, cells⟩
def holdSt (u : OpenedTub) (up : Nat) (bad : Bool) : State :=
  { tubSt { rxTrib0 0 with holds := [u] } none with
    time := { svc.time with up := up }, mem := { svc.mem with side := if bad then [(5, some ⟨0, 0, true, true⟩)] else [] } }

theorem base_derives : useKey 40 (some TS.U_DERIVE) 16 (slotWhole baseSt 40) baseSt = (0, baseSt) := by
  have h : slotWhole baseSt 40 = true := slotWhole_seal ..
  rw [h]
  exact useKey_good _ _ _ _ (by decide +kernel)

theorem witness_TubReceive :
    (∀ k ∈ [128, 129], let s := tubSt (inDelin 0 none []) (some k); shownEpoch s 15 = some (31, k) ∧ (rxTrunkOf s 15).reject = false ∧ recoverEpoch (epochRx s 15) k = k ∧ epochRx s 15 = 0 ∧
      (rxTribOf s 63).delin0.ok = true ∧ (rxTribOf s 63).stream0.length < tubSize s 1 63 + 32 ∧ inCaution s = false ∧ AtticTakes blkEpochs s ∧ (0 + 128 < 129 ∧ 128 ≤ 0 + 128)) ∧
    (let s := tubSt (inDelin 0 none []) (some 128); let s : State := { s with lfr := { s.lfr with rx := [(15, { rxTrunk0 0 with reject := true })] } }; (rxTrunkOf s 15).reject = true ∧ shownEpoch s 15 = some (31, 128)) ∧
    (let ns := mfNs (rxCfg (oldTrunk 0 oldX) 15 Fd.LFR_TRUNK_RXCFG_RATE); (oldTrunk 0 oldX).live = true ∧ 0 + ns ≤ (oldTrunk ns oldX).time.up ∧ (oldTrunk 0 oldX).time.up < 0 + ns ∧ oldKeyDue (oldTrunk (4 * ns) oldX) 15 = true ∧
      oldKeyDue (oldTrunk (4 * ns - 1) oldX) 15 = false ∧ oldTxDue (oldTrunk (4 * ns) oldX) 15 = false ∧ groupOf (oldTrunk (4 * ns) oldX) 1 15 = [15] ∧ inCaution (oldTrunk (4 * ns) oldX) = false ∧
      (oldTrunk (4 * ns) oldX).guard.held.contains (.oldKeys 15) = false ∧ ((arec (oldTrunk 0 oldX) (tribAssoc (oldTrunk 0 oldX) 1 63)).an 0).valid = true ∧ ((arec (oldTrunk 0 oldX) (tribAssoc (oldTrunk 0 oldX) 1 63)).an 0).epoch = 4 ∧
      63 ∈ tribsOn (oldTrunk 0 oldX) 1 [15]) ∧
    (derives svc true 15 0 = false ∧ derives lfrSt true 15 0 = true ∧ tubKeyDue true 63 0 lfrSt = true ∧ lfrSt.guard.held = [] ∧ inCaution (lfrSt.setFld Reg.TMP_STATUS Fd.TMP_STATUS_CAUTION 1) = true ∧
      baseSt.live = true ∧ inCaution baseSt = false ∧ tribOn baseSt 1 63 = true ∧ derives baseSt true 15 0 = true ∧ ((arec baseSt 8).an 0).valid = false ∧ (arec baseSt 8).ans.length = 4 ∧
      (slotOf baseSt 40).g0 TS.ORPHAN = 0 ∧ allocSlot baseSt = some 16380 ∧ rxCfg baseSt 15 Fd.LFR_TRUNK_RXCFG_BASE_SLOT = 40 ∧ tribTrunk baseSt 1 63 = 15 ∧ tribAssoc baseSt 1 63 = 8) ∧
    (useKey 40 (some TS.U_DERIVE) 16 (slotWhole baseSt 40) baseSt = (0, baseSt)) ∧
    (let w := 1000 * tribF svc 1 63 Fd.LFR_TRIB_CFG_MERGE_WAIT; ∀ bad ∈ [true, false], let u := heldTub 1 [5]; let s := holdSt u w bad; mergeDue svc 63 = false ∧ trafficOn s = true ∧ mergeDue s 63 = true ∧ (rxTribOf s 63).holds = [u] ∧
      u.at_ + w ≤ s.time.up ∧ (readCells u.cells .good (setRxTrib 63 { rxTribOf s 63 with holds := [] } s)).1 = !bad ∧ (rxTribOf s 63).part = none ∧ u.cont = false ∧ 8 ≤ u.data.length ∧
      shimType (beNat (slice u.data 0 8)) = 1 ∧ shimLen (beNat (slice u.data 0 8)) = 0 ∧ (readCells u.cells .good (setRxTrib 63 { rxTribOf s 63 with holds := [] } s)).2.flag Reg.WND_DN_CFG Fd.WND_DN_CFG_EN = false) := by
  refine ⟨?_, by decide +kernel, by decide +kernel, by decide +kernel, base_derives, by decide +kernel⟩
  unfold AtticTakes
  decide +kernel

/-! Twins and the shaft -/

theorem parent_ready (s : State) (d : Nat) (h : deepWhole s d = true) (h0 : dBit s d 0 = true) (h1 : dBit s d DS.U_DERIVE = true) : ∃ x, deepParent s d = (x, s) ∧ x.st = 0 := by
  have hf : fetchDeep d s = s := by unfold fetchDeep; rw [h]; simp
  unfold deepParent
  simp only [hf, h0, h1, Bool.not_true, Bool.false_eq_true, if_false]
  exact ⟨_, rfl, rfl⟩

/-- Ports 64 and 65 up, deep slot 5 or 6 with a key that derives, few slots in the pool. -/
def linkSt0 : State :=
  let s := setAll [(Reg.MAC_PORT_STATUS 64, Fd.MAC_PORT_STATUS_UP, 1), (Reg.MAC_PORT_STATUS 65, Fd.MAC_PORT_STATUS_UP, 1), (Reg.SRM_CFG, Fd.SRM_CFG_PIN_TOP, 16380), (Reg.TWN_CFG, Fd.TWN_CFG_TWIN_EN, 1),
    (Reg.TWN_SHAFT_CFG, Fd.TWN_SHAFT_CFG_EN, 1), (Reg.TWN_SHAFT_CFG, Fd.TWN_SHAFT_CFG_HEWER_ID, 63), (Reg.TWN_SHAFT_PEER, Fd.TWN_SHAFT_PEER_ADDR, 7), (Reg.TWN_STATUS, Fd.TWN_STATUS_CTRL, 1)] ordSt
  { s with vault := { s.vault with slots := [(16382, { slot0 0 with w0 := 0x801 })] } }
def linkSt (d : Nat) : State := sealDeep d ⟨0x5041, 3, 0, 0⟩ linkSt0
/-- With a session whose last message was 5. -/
def xcSt (ctrl : Nat) (up : Bool) (at_ : Nat) : State :=
  let s := linkSt0.setFld Reg.TWN_STATUS Fd.TWN_STATUS_CTRL ctrl
  { s with time := { s.time with up := at_ }, twin := { s.twin with link := { s.twin.link with slot := some 16382, up := up, rx := 5 } } }
def hdrOf (auth : Bool) (seq : Nat) (claim : Bool) : XcHdr := ⟨true, claim, true, 9, seq, auth⟩
theorem link_ready (d : Nat) (h0 : dBit (linkSt d) d 0 = true) (h1 : dBit (linkSt d) d DS.U_DERIVE = true) : ∃ x, deepParent (linkSt d) d = (x, linkSt d) ∧ x.st = 0 :=
  parent_ready _ _ (deepWhole_seal ..) h0 h1

theorem witness_Crosscut :
    (xcOn svc = false ∧ xcOn linkSt0 = true ∧ linkSt0.position = 0 ∧ b2n false = 0 ∧ b2n true ≠ 0 ∧ (xcSt 1 true 0).twin.link.up = true ∧ linkSt0.twin.link.up = false ∧ linkSt0.twin.link.slot = none ∧ linkSt0.twin.link.nonce = none ∧
      isHewer linkSt0 = false ∧ linkSt0.twin.link.peer = none ∧ helloDue linkSt0 linkSt0.twin.link = false ∧
      (∀ n ∈ [none, some 5], let s : State := { linkSt0 with time := { linkSt0.time with up := 1000000 }, twin := { linkSt0.twin with link := { linkSt0.twin.link with nonce := n } } };
        helloDue s s.twin.link = true ∧ xcOn s = true ∧ s.twin.link.nonce = n ∧ s.twin.link.peer = none)) ∧
    ((∃ d, deepParent (linkSt 5) 5 = (d, linkSt 5) ∧ d.st = 0) ∧ allocSlot (linkSt 5) = some 16380 ∧ xcOn (linkSt 5) = true ∧ (linkSt 5).twin.link.slot = none) ∧
    (let s := xcSt 1 true 0; xcOn s = true ∧ isActive s = false ∧ keyed s s.twin.link = true ∧ keyed linkSt0 linkSt0.twin.link = false ∧ takes Ev.XC_AUTH_FAIL s = true ∧ (hdrOf true 5 false).seq ≤ s.twin.link.rx ∧
      s.twin.link.rx < (hdrOf true 6 false).seq ∧ b2n (hdrOf true 6 false).pos ≠ s.position ∧ b2n ({ hdrOf true 6 false with pos := false } : XcHdr).pos = s.position ∧ (hdrOf false 6 false).auth = false ∧ (hdrOf true 6 false).auth = true ∧
      xcCmd (.takeover (hdrOf true 6 false)) = some (hdrOf true 6 false)) ∧
    (∀ up ∈ [true, false], let s := xcSt 2 up 0; Fresh (hdrOf true 6 false) s ∧ isActive s = true ∧ (hdrOf true 6 false).claim = false ∧ s.twin.overlapAt = none ∧ s.twin.link.up = up) ∧
    ((xcSt 2 true 9999).time.up < (xcSt 2 true 9999).twin.hbAt + 10000 ∧ (xcSt 2 true 10000).twin.hbAt + 10000 ≤ (xcSt 2 true 10000).time.up ∧ keyed (xcSt 2 true 10000) (xcSt 2 true 10000).twin.link = true) ∧
    ((xcSt 1 true 29999).time.up < (xcSt 1 true 29999).twin.link.lastAt + 30000 ∧ (let s := xcSt 1 true 30000; s.live = true ∧ twinOn s = true ∧ s.twin.link.up = true ∧ s.twin.link.lastAt + 30000 ≤ s.time.up ∧ s.twin.overlapAt = none ∧
      s.fore.waits = [] ∧ takes Ev.PEER_SILENT s = true)) ∧
    (svc.twin.xcBuf = [] ∧ (∀ x ∈ [(199, 16320), (199, 16321), (200, 1)], let s := xcSt 1 true x.1; let s : State := { s with twin := { s.twin with xcBuf := [⟨0, zeros x.2, 0, none⟩] } };
      xcOn s = true ∧ s.twin.link.up = true ∧ keyed s s.twin.link = true ∧ s.twin.xcBuf ≠ []) ∧ 8 + 16320 < 16329 ∧ 16329 ≤ 8 + 16321) := by
  refine ⟨by decide +kernel, ⟨link_ready 5 (by decide +kernel) (by decide +kernel), by decide +kernel, by decide +kernel, by decide +kernel⟩, by decide +kernel, by unfold Fresh; decide +kernel, by decide +kernel, by decide +kernel, by decide +kernel⟩

/-- Fields of TWN_STATUS over the session's state. -/
def roleSt (ctrl : Nat) (l : List (Fld × Nat)) (at_ : Nat) : State := l.foldl (fun s x => s.setFld Reg.TWN_STATUS x.1 x.2) (xcSt ctrl true at_)
def twX (f : Twin → Twin) (s : State) : State := { s with twin := f s.twin }
def hd6 : XcHdr := hdrOf true 6 false
def item0 : ImageItem := ⟨0, [7, 9], [], []⟩
def xfr (decrypt : Bool) (stream : Option (Fin 1024)) : XcFrame := ⟨decrypt, 7, true, 31, stream, frameOf 0x9000 46⟩

theorem witness_TwinRoles :
    (isActive (roleSt 1 [] 0) = false ∧ yieldTrigger (roleSt 2 [] 0) 0 = false ∧ (∀ c ∈ [1, 4], let s := roleSt 2 [] 0; let s : State := { s with fore := { s.fore with stopped := true }, guard := { s.guard with cautionLong := true } };
      s.live = true ∧ twinOn s = true ∧ isActive s = true ∧ yieldTrigger s c = true ∧ s.twin.overlapAt = none ∧ s.twin.blobRun = none ∧ resyncOn s = false ∧ takes Ev.ROLE_YIELD s = true)) ∧
    (ctrlOf (roleSt 1 [] 0) ≠ 3 ∧ ctrlOf (roleSt 3 [] 0) = 3 ∧ (roleSt 3 [] 0).live = true) ∧
    (roleIn (roleSt 2 [] 0) = false ∧ (let s := roleSt 2 [(Fd.TWN_STATUS_POSITION, 1)] 0; s.position = 1 ∧ isActive s = true ∧ roleIn s ≠ true ∧ twinOn s = true ∧ takes Ev.ROLE_YIELD s = true) ∧ twinOn svc = false ∧ roleIn svc = false) ∧
    (isStandby svc = false ∧ (∀ claim ∈ [true, false], let s := twX (fun x => { x with startAt := some 0, peerClaim := claim, link := Link.reset }) (roleSt 1 [] 100000000); s.live = true ∧ twinOn s = true ∧ isStandby s = true ∧ startWaitOver s = true ∧
      synced s = false ∧ roleIn s = false ∧ s.twin.peerClaim = claim ∧ s.mode = 2 ∧ selfFault s = false ∧ s.twin.ownPos = false ∧ s.twin.link.up = false) ∧
      (let s := twX (fun x => { x with startAt := some 0 }) (roleSt 1 [] 99999999); startWaitOver s = false)) ∧
    (let s := twX (fun x => { x with releaseAt := some 5 }) (roleSt 1 [] 5); s.live = true ∧ isStandby s = true ∧ s.twin.releaseAt = some 5 ∧ 5 ≤ s.time.up ∧ (roleSt 1 [] 4).time.up < 5 ∧ (roleSt 1 [] 4).twin.releaseAt = none) ∧
    (∀ ctrl ∈ [1, 2], let s := roleSt ctrl [] 0; xcOn s = true ∧ Fresh hd6 s ∧ s.twin.link.up = true ∧ s.twin.overlapAt = none ∧ isStandby s = decide (ctrl = 1) ∧ isActive s = decide (ctrl = 2) ∧ s.fore.waits = [] ∧ synced s = false ∧ resyncOn s = false ∧
      trafficOn s = true) ∧
    (let s := roleSt 1 [(Fd.TWN_STATUS_SYNCED, 1)] 0; isStandby s = true ∧ synced s = true ∧ roleIn s = false ∧ s.mode = 2 ∧ selfFault s = false ∧ roleEpoch s ≤ hd6.epoch ∧ takes Ev.ROLE_ACTIVE s = true ∧ 0 ≠ s.twin.gen + 1 ∧ 1 = s.twin.gen + 1 ∧
      (applyItem item0 (heard hd6 s)).1 = true ∧ ({ hd6 with epoch := 8 } : XcHdr).epoch < roleEpoch (roleSt 1 [(Fd.TWN_STATUS_ROLE_EPOCH, 9)] 0)) ∧
    (let s := roleSt 1 [(Fd.TWN_STATUS_RESYNC_ACTIVE, 1)] 0; isStandby s = true ∧ resyncOn s = true ∧ (applyItem item0 (heard hd6 s)).1 = true) ∧
    (let s := roleSt 1 [] 0; isProxy s 31 = false ∧ clientEnabled s 31 = false ∧ s.flag Reg.WND_DN_CFG Fd.WND_DN_CFG_EN = false ∧ (xfr false none).port.val = 31 ∧ (xfr true none).stream = none ∧
      clientEnabled (s.setFld (Reg.LAN_GRP_CFG 3) Fd.LAN_GRP_CFG_GROUPING 1) 31 = true ∧ (let p := s.setFld (Reg.TWN_XC_BIND 31) Fd.TWN_XC_BIND_PROXY 1; isProxy p 31 = true ∧ clientEnabled p 31 = false)) ∧
    (let s := roleSt 2 [] 0; isActive s = true ∧ resyncOn s = false) ∧
    (let s := roleSt 2 [(Fd.TWN_STATUS_RESYNC_ACTIVE, 1)] 0; isActive s = true ∧ resyncOn s = true ∧ xcOn s = true ∧ s.twin.link.up = true ∧ keyed s s.twin.link = true) := by
  unfold Fresh
  refine ⟨?_, ?_, ?_, ?_, ?_, ?_, ?_, ?_, ?_, ?_, ?_⟩ <;> decide +kernel

/-- The overman with hewer 63 in its table, and a hewer of identity 63; the link as `l`. -/
def shaft0 (sel : Nat) (s : State) : State := { (setAll [(Reg.TWN_STATUS, Fd.TWN_STATUS_ROLE_SEL, sel), (Reg.TWN_CFG, Fd.TWN_CFG_TWIN_EN, 0)] s) with variant := 0 }
def shLink (up : Bool) : Link := { Link.reset with slot := some 16382, up := up, rx := 5, peer := some ⟨9, 1, 0, 0⟩, nonce := some 4 }
def overX (l : Link) (at_ : Nat) : State := let s := shaft0 1 linkSt0; { s with time := { s.time with up := at_ }, twin := { s.twin with hewers := [(63, some ⟨9, 2, l⟩)] } }
def hewX (l : Link) (at_ : Nat) : State := let s := shaft0 2 linkSt0; { s with time := { s.time with up := at_ }, twin := { s.twin with overman := l } }
/-- The same with deep slot 6 in place. -/
def overKey : State := sealDeep 6 ⟨0x5041, 3, 0, 0⟩ (overX Link.reset 0)
def hewKey : State := sealDeep 6 ⟨0x5041, 3, 0, 0⟩ (hewX { Link.reset with nonce := some 4 } 0)
/-- Deep slot 3 wraps for the hewer. -/
def hewBlob (ok : Bool) : State :=
  let s := hewX (shLink true) 0
  let s : State := { s with host := { s.host with access := if ok then [(0x11 * 32 + mShaft, 0xFF)] else [] } }
  sealDeep 3 ⟨0x5021, 3, 0, 0⟩ s
theorem fetchDeep_whole (d : Nat) (s : State) (h : deepWhole s d = true) : fetchDeep d s = s := by unfold fetchDeep; rw [h]; simp
theorem deepWhole_rx (d : Nat) (s : State) (l : Link) : deepWhole { s with twin := { s.twin with overman := l } } d = deepWhole s d := rfl
theorem session_made (d : Nat) (ctx : Bytes) (s : State) (n : Nat) (h : ∃ x, deepParent s d = (x, s) ∧ x.st = 0) (ha : allocSlot s = some n) : ∃ u, sessionKey d ctx s = (some n, u) := by
  obtain ⟨x, e, hx⟩ := h
  refine ⟨(sessionKey d ctx s).2, ?_⟩
  unfold sessionKey
  simp only [e, hx, ha, ne_eq, not_true_eq_false, if_false]

theorem witness_Shaft :
    (overmanOn svc = false ∧ (let s := overX Link.reset 0; overmanOn s = true ∧ hewerOf s 62 = none ∧ hewerOf s 63 = some ⟨9, 2, Link.reset⟩ ∧ (9 : BitVec 128).toNat = 9 ∧ takes Ev.HEWER_REFUSED s = true ∧
      (deepParent s 6).2 = s ∧ (deepParent s 6).1.st ≠ 0)) ∧
    ((∃ d, deepParent overKey 6 = (d, overKey) ∧ d.st = 0) ∧ overmanOn overKey = true ∧ hewerOf overKey 63 = some ⟨9, 2, Link.reset⟩ ∧ allocSlot overKey = some 16380) ∧
    (overmanOn hewKey = false ∧ isHewer hewKey = true ∧ shaftOn hewKey = true ∧ (7 : BitVec 48).toNat = shaftPeer hewKey ∧ (63 : Fin 64).val = hewerId hewKey ∧ hewKey.twin.overman.nonce = some 4 ∧ hewKey.twin.overman.up = false ∧
      hewKey.twin.overman.slot = none ∧ ∀ ctx, ∃ u, sessionKey 6 ctx hewKey = (some 16380, u)) ∧
    (let s := hewX (shLink true) 0; isHewer s = true ∧ shaftOn s = true ∧ s.twin.overman.up = true ∧ keyed s s.twin.overman = true ∧ s.twin.overman.rx < 6 ∧ 5 ≤ s.twin.overman.rx ∧ hewerId s = 63 ∧ s.twin.overman.peer = some ⟨9, 1, 0, 0⟩) ∧
    ((overX Link.reset 9999999).time.up < (overX Link.reset 9999999).twin.statusAt + 10000000 ∧ (overX Link.reset 10000000).twin.statusAt + 10000000 ≤ (overX Link.reset 10000000).time.up ∧ overmanOn (overX Link.reset 10000000) = true ∧
      Table.wf none0 (overX Link.reset 0).twin.hewers = true ∧ (hewX (shLink true) 10000000).twin.overman.up = true ∧ overmanOn (hewX (shLink true) 10000000) = false) ∧
    (let s := overX (shLink true) 0; hewerOf s 63 = some ⟨9, 2, shLink true⟩ ∧ (shLink true).up = true ∧ keyed s (shLink true) = true ∧ (shLink true).rx < 6) ∧
    (shaftLost (overX (shLink true) 29999999) (shLink true) = false ∧ overmanOn (overX (shLink true) 30000000) = true ∧ (shLink true).lastAt + 30000000 ≤ (overX (shLink true) 30000000).time.up ∧
      (hewX (shLink true) 30000000).live = true ∧ (hewX (shLink true) 30000000).twin.overman.lastAt + 30000000 ≤ (hewX (shLink true) 30000000).time.up) ∧
    (∀ l : Link, fetchDeep 3 { hewBlob true with twin := { (hewBlob true).twin with overman := l } } = { hewBlob true with twin := { (hewBlob true).twin with overman := l } } ∧
      fetchDeep 3 { hewBlob false with twin := { (hewBlob false).twin with overman := l } } = { hewBlob false with twin := { (hewBlob false).twin with overman := l } }) ∧
    (permits (hewBlob true) 0x11 mShaft 1 = true ∧ permits (hewBlob false) 0x11 mShaft 1 = false ∧ takes Ev.ACCESS_VIOLATION (hewBlob false) = true ∧ deepParentOk (hewBlob true) 3 DS.U_WRAP = true ∧
      (∀ h ∈ [0, 0xFFFFF], cellarUsed (hewBlob true) h = false ∧ claimOn (hewBlob true) (.handle h) = none) ∧ 0xFFFFF < 2 ^ 20 ∧ 2 ^ 20 ≤ 0x100000 ∧ keyed (hewBlob true) (hewBlob true).twin.overman = true ∧
      isHewer (hewBlob true) = true ∧ shaftOn (hewBlob true) = true ∧ (hewBlob true).twin.overman.up = true) ∧
    (let s := hewX (shLink true) 0; let s : State := { s with host := { s.host with access := [(0x11 * 32 + mShaft, 0xFF)] } }; deepParentOk s 3 DS.U_WRAP = false ∧ fetchDeep 3 s = s) ∧
    (let s := overX (shLink true) 0; s.twin.blobRun = none ∧ (let r : BlobRun := ⟨runReq, 0x20, [(63, 1)], 0, 0, 0⟩; let b := twX (fun x => { x with blobRun := some r }) s; b.twin.blobRun = some r ∧ r.waiting = [(63, 1)] ∧ overmanOn b = true)) := by
  refine ⟨by decide +kernel, ⟨parent_ready _ _ (deepWhole_seal ..) (by decide +kernel) (by decide +kernel), by decide +kernel, by decide +kernel, by decide +kernel⟩,
    ⟨by decide +kernel, by decide +kernel, by decide +kernel, by decide +kernel, by decide +kernel, by decide +kernel, by decide +kernel, by decide +kernel,
      fun ctx => session_made _ _ _ _ (parent_ready _ _ (deepWhole_seal ..) (by decide +kernel) (by decide +kernel)) (by decide +kernel)⟩,
    by decide +kernel, by decide +kernel, by decide +kernel, by decide +kernel, fun l => ⟨fetchDeep_whole _ _ ?_, fetchDeep_whole _ _ ?_⟩, by decide +kernel, by decide +kernel, by decide +kernel⟩
  · rw [deepWhole_rx]; exact deepWhole_seal ..
  · rw [deepWhole_rx]; exact deepWhole_seal ..

/-! Resets, Start-up, the lamp room, the board -/

/-- Main supplies off: loop 3 and its monitor under power, monitor 7 at L3, monitor 12 at level `lv`. -/
def lampSt (lv n : Nat) : State :=
  let l := State.reset.lamp
  { State.reset with mainOn := false, lamp := { l with rtcRun := true, cfg := 0xFF, levels := [(7, 3), (12, lv)], root := some 1, tail := (List.range n).map (fun i => ⟨i, 0, 0x1004, 3, true, 1, 3, 0, 0, 0, [], 0xA5, i⟩) } }

theorem witness_DeviceResets :
    (lampSt 0 0).mainOn = false ∧ svc.mainOn = true ∧ 1000 ≤ 1000 ∧ 999 < 1000 ∧ svc.live = true ∧ (lampSt 0 0).live = false ∧ (∀ r : Fin 8, r.val ≠ 8) ∧ effective svc 0 ≤ 1 ∧ svc.lamp.tail.length < 64 := by decide +kernel

theorem witness_LampRoom :
    (∀ lv ∈ [3, 4], let s := lampSt lv 0; s.mainOn = false ∧ s.lamp.tail.length < 63 ∧ lampMonitors.contains 12 = true ∧ loopOn s 3 = true ∧ tget nat0 s.lamp.levels 12 = lv ∧ lampMonitors.contains 7 = true ∧ tget nat0 s.lamp.levels 7 < 4 ∧
      pollDue s = true ∧ (∀ j : Fin 4, (nbit (8 : BitVec 4).toNat j.val && loopOn s j.val) = (j.val == 3)) ∧ tget nat0 s.lamp.levels (9 + 3) = lv) ∧
    (lampMonitors.contains 1 = false ∧ loopOn svc 0 = false ∧ (let s := lampSt 0 0; let s : State := { s with lamp := { s.lamp with rtc := 30518 } }; pollDue s = false)) ∧
    (let s := lampSt 0 64; 64 ≤ s.lamp.tail.length ∧ s.lamp.tail = [] ++ ⟨0, 0, 0x1004, 3, true, 1, 3, 0, 0, 0, [], 0xA5, 0⟩ :: s.lamp.tail.tail ∧ 3 ≤ (evInfo Ev.ROOT_ERASED).1 ∧ (∀ x ∈ s.lamp.tail, (evInfo Ev.ALARM_CLEARED).1 < x.sev)) ∧
    svc.mainOn = true := by decide +kernel

/-- A part with image A, a profile, a root key and memory that answers. -/
def bootSt : State :=
  let s := State.reset
  { s with
    mainOn := true, held := false, lamp := { s.lamp with root := some 1, alive := true }
    attic := { s.attic with fwA := ⟨1, [], true⟩, prof0 := some ⟨0, true, [], [], [], [], [], [], [], [], [], [], []⟩ } }
def startIn (ok : Bool) : StartIn := ⟨ok, true, [], true, false⟩

theorem witness_StartUpEnds :
    (svc.mode ≠ 0 ∧ bootSt.live = true ∧ bootSt.mode = 0 ∧ bootSt.lamp.alive = true ∧ bootSt.lamp.tail = [] ∧ bootSt.lamp.tailLost = 0 ∧ bootSt.attic.readonly = 0 ∧ bootSt.attic.spares ≤ 100 ∧ bootSt.attic.evid.length ≤ 16000 ∧
      tornCount bootSt = 0 ∧ bootSt.attic.standing = [] ∧ (∀ L : Fin 73, laneUp bootSt L.val = false)) ∧
    (chooseImage bootSt = some 0 ∧ (chooseProfile bootSt).map (fun c => (c.1, c.2.1.regs, c.2.2)) = some (0, [], true) ∧ bootSt.fld Reg.PWR_CFG Fd.PWR_CFG_AUTOSTART = 0 ∧ bootSt.lamp.root = some 1 ∧ (startIn true).selfTest = true ∧
      (startIn true).hbm = true ∧ (startIn true).memCheck = false ∧ (startIn true).galBad = [] ∧ takes Ev.RESET bootSt = true) ∧
    (chooseImage { bootSt with attic := { bootSt.attic with fwA := ⟨1, [], false⟩ } } = none ∧ (startIn false).selfTest = false ∧ ({ startIn true with hbm := false } : StartIn).hbm = false ∧
      ({ bootSt with lamp := { bootSt.lamp with root := none } } : State).lamp.root = none ∧ (chooseProfile { bootSt with attic := { bootSt.attic with prof0 := none } }).isNone = true) := by
  refine ⟨by decide +kernel, by decide +kernel, by decide +kernel⟩

/-- The PF may read every register block; the management port is addressed and may read too. -/
def brdSt : State :=
  { svc with
    host := { svc.host with access := (List.range 16).flatMap (fun k => [((0x30 + k) * 32, 1), ((0x30 + k) * 32 + mI3c, 1)]), i3cDyn := some 9, i3cPtr := 0xFFFFF8 }
    gal := { svc.gal with tags := [] } }

theorem witness_ClearingReads :
    (∀ off ∈ [Reg.GAL_TAGS, Reg.TIM_QSAMPLE_MAX 0, Reg.TIM_QSAMPLE_MAX 1023, Reg.TIM_MERGE_DIFF 0, Reg.TIM_MERGE_DIFF 63, Reg.TMP_RAIL 0, Reg.TMP_RAIL 8, Reg.TMP_TEMP 0, Reg.TMP_TEMP 16],
      (ideOk brdSt true && permits brdSt (0x30 + off / 0x100000) 0 0) = true ∧ (ideOk svc true && permits svc (0x30 + off / 0x100000) 0 0) = false) ∧
    brdSt.live = true ∧ (lampSt 0 0).live = false ∧ (9 ≤ (9 : Fin 17).val ∧ (8 : Fin 17).val < 9) ∧ losesEvidence Ev.ACCESS_VIOLATION svc = false := by decide +kernel

theorem witness_BoardReadings :
    (∀ pin : Fin 8, svc.live = true ∧ nbit (svc.fld Reg.PWR_DIN Fd.PWR_DIN_LEVEL) pin.val = true ∧ true ≠ false) ∧
    (svc.host.measuredAt = none ∧ (let s : State := { svc with host := { svc.host with measuredAt := some 5 }, time := { svc.time with up := 1000005 } }; s.host.measuredAt = some 5 ∧ 5 + 1000000 ≤ s.time.up ∧ svc.time.up < 5 + 1000000)) ∧
    (let m : Telemetry := ⟨List.replicate 9 0xFFFF, List.replicate 17 0x8000, List.replicate 80 1⟩; m.mv[8]? = some 0xFFFF ∧ m.temp[16]? = some 0x8000 ∧ m.mw[79]? = some 1 ∧ (⟨[], [], []⟩ : Telemetry).mv[8]? = none) := by decide +kernel

theorem witness_ManagementPorts :
    ((lampSt 0 0).live = false ∧ svc.host.i3cDyn = none ∧ svc.live = true ∧ brdSt.host.i3cDyn.isSome = true ∧ (0x52 : BitVec 7).toNat = 0x52 + svc.position ∧ (0x53 : BitVec 7).toNat ≠ 0x52 + svc.position) ∧
    (∀ d ∈ [natBe 4 0, natBe 4 0xFFFFF8], d.length = 4 ∧ beNat d % 8 = 0 ∧ beNat d < 0x1000000) ∧ 0x1000000 ≤ beNat (natBe 4 0x1000000) ∧ beNat (natBe 4 4) % 8 ≠ 0 ∧
    (∀ i : Fin 16, let b : State := { brdSt with host := { brdSt.host with i3cPtr := 0x700000 } }; i3cMay b ((b.host.i3cPtr + i.val) % 0x1000000) = true) ∧ 16 = min 16 64 ∧ i3cMay svc ((svc.host.i3cPtr + 0) % 0x1000000) = false ∧
    losesEvidence Ev.ACCESS_VIOLATION svc = false ∧
    ((lampSt 0 0).mainOn = false ∧ svc.mainOn = true ∧ svc.attic.lifecycle = 0 ∧ dep.attic.lifecycle ≠ 0 ∧ dep.mode ≠ 1 ∧ dep.live = true ∧
      (let s := dep.setFld (Reg.TMP_LEVEL 0x15) Fd.TMP_LEVEL_LEVEL 1; effective s 0x15 ≤ 1 ∧ takes (monCode 0x15) s = true) ∧ (dep.setFld Reg.PWR_STATUS Fd.PWR_STATUS_MODE 1).mode = 1) := by decide +kernel

/-! The host -/

/-- Function 15 owns the last two landing cells and may read, write and send to port 63; its last cell's token as `tok`. -/
def hostSt (tok : Nat) : State :=
  let s := setAll [(Reg.HST_FN_CELLS 15, Fd.HST_FN_CELLS_CELL_BASE, 65534), (Reg.HST_FN_CELLS 15, Fd.HST_FN_CELLS_CELL_COUNT, 2)] svc
  { s with host := { s.host with access := [(0x15 * 32 + 15, 3), (0x30 * 32, 2), (0x40 * 32 + 15, 3), ((0x40 + 63) * 32 + 15, 3)], tokens := if tok = 0 then [] else [(65535, tok)] } }

theorem witness_LandingCells :
    (svc.live = true ∧ (lampSt 0 0).live = false ∧ ideOk svc false = true ∧ (let i := svc.setFld Reg.HST_IDE_CFG Fd.HST_IDE_CFG_REQUIRE 1; ideOk i true = false ∧ losesEvidence Ev.ACCESS_VIOLATION i = false)) ∧
    (∀ tok ∈ [0, 1], let s := hostSt tok; let off := 4096; 65535 = cellBase s 15 + off / 4096 ∧ ownsCell s 15 65535 = true ∧ permits s 0x15 15 1 = true ∧ permits s 0x15 15 0 = true ∧ tokenOf s 65535 = tok ∧
      keyHeld s (regionKey s 5) (kgenOf s (regionKey s 5)) = true ∧ s.mem.opens.length ≤ 60 ∧ s.host.flr.contains 15 = false ∧ ownsCell s 14 65535 = false ∧ permits s 0x15 14 0 = false ∧
      readable s (landingAt 65535) 4096 = true ∧ 4096 ≤ 2 ^ 26 ∧ off % 4096 + 4096 ≤ 4096 ∧ off % 4096 + (zeros 1).length ≤ 4096) ∧
    (let s := hostSt 0; let s : State := { s with host := { s.host with flr := [15] } }; s.host.flr.contains 15 = true) ∧
    (let s := hostSt 0; let s : State := { s with mem := { s.mem with side := [(landingAt 65535 / 256, some ⟨regionKey s 5, kgenOf s (regionKey s 5), true, true⟩)] } }; (readCells (cellsOf (landingAt 65535) 1) .good s).1 = false) ∧
    (∀ tok ∈ [0, 1, 2], let s := hostSt tok; 1 < 0x4000 ∧ 65535 = cellBase s 15 + 1 ∧ 1 < cellCount s 15 ∧ cellCount s 15 ≤ 2 ∧ tokenOf s 65535 = tok) ∧
    (let s := hostSt 2; let s : State := { s with host := { s.host with clearing := [65535] } }; s.host.clearing.contains 65535 = true ∧ svc.host.clearing.contains 65535 = false) := by
  refine ⟨by decide +kernel, by decide +kernel, by decide +kernel, by decide +kernel, by decide +kernel, by decide +kernel⟩

/-- The rings of function 15 with the entry `w0` at the head of its transmit ring. -/
def txRingSt (w0 w1 : Nat) : State :=
  let s := hostSt 1
  { s with page := [(15 * 0x10000 + pgTxDb, 5), (15 * 0x10000 + pgRxf, 1023), (15 * 0x10000 + 0x2000, BitVec.ofNat 64 w0), (15 * 0x10000 + 0x2008, BitVec.ofNat 64 w1)] }

theorem witness_HostRings :
    (let s := txRingSt 0 0; s.pgFld 15 pgTxDb RF.TX_HEAD = 0 ∧ s.pgFld 15 pgTxDb RF.TX_TAIL = 5 ∧ s.pgFld 15 pgRxf RF.RXF_HEAD = 0 ∧ s.pgFld 15 pgRxf RF.RXF_TAIL = 1023 ∧ 5 ≤ ((5 : BitVec 8).toNat + 256 - 0) % 256 ∧ ((4 : BitVec 8).toNat + 256 - 0) % 256 < 5 ∧
      1023 ≤ ((1023 : BitVec 10).toNat + 1024 - 0) % 1024 ∧ ((0 : BitVec 10).toNat + 1024 - 0) % 1024 < 1023 ∧ trafficOn s = true ∧ s.host.flr.contains 15 = false ∧ ideOk s true = true ∧
      (let i := s.setFld Reg.HST_IDE_CFG Fd.HST_IDE_CFG_REQUIRE 1; ideOk i true = false ∧ losesEvidence Ev.ACCESS_VIOLATION i = false)) ∧
    (let w0 := 65535 + 2 ^ 16 * 60 + 2 ^ 32 * 63 + 2 ^ 38 * 7; let s := txRingSt w0 0; txWord s 15 0 0 = w0 ∧ nbits w0 16 14 = 60 ∧ nbit w0 41 = false ∧ txEntryOk s 15 w0 0 = true ∧ backlogRoom s (96 + 15) 60 = true ∧
      readable s (landingAt 65535) 60 = true ∧ (let z := s.setFld (Reg.GAL_DOM_CFG 111) Fd.GAL_DOM_CFG_BACKLOG_MAX 0; txEntryOk z 15 w0 0 = true ∧ backlogRoom z (96 + 15) 60 = false) ∧
      (let p : State := { s with mem := { s.mem with side := [(landingAt 65535 / 256, some ⟨regionKey s 5, kgenOf s (regionKey s 5), true, true⟩)] } }; (readCells (cellsOf (landingAt 65535) 60) .good p).1 = false)) ∧
    (nbits (65535 + 2 ^ 16 * 59) 16 14 = 59 ∧ cellsReady (hostSt 0) 15 65535 60 = false ∧ permits (hostSt 1) (0x40 + 62) 15 1 = false ∧ nbit (2 ^ 41) 41 = true ∧ assocWithin (hostSt 1) 0xFFFFF 63 = false) ∧
    (∀ due ∈ [true, false], let s : State := { txRingSt 0 0 with host := { (hostSt 1).host with moderating := [(31, some (due, 0))] } }; tget none0 s.host.moderating 31 = some (due, 0) ∧ modTime 15 2 s = 0 ∧
      0 + 1000 * modTime 15 2 s ≤ s.time.up ∧ nbit (s.pg 15 (pgMsix 2 1)).toNat 32 = true) ∧
    (let s : State := { txRingSt 0 0 with page := [(15 * 0x10000 + pgPba, 4), (15 * 0x10000 + pgMsix 2 1, 1), (15 * 0x10000 + pgMod, 0x10000)] }; nbit (s.pg 15 pgPba).toNat 2 = true ∧ nbit (s.pg 15 pgPba).toNat 63 = false ∧
      nbit (s.pg 15 (pgMsix 2 1)).toNat 32 = false ∧ modTime 15 2 s = 1 ∧ s.time.up < 0 + 1000 * modTime 15 2 s) ∧
    (let s := svc; s.attic.lifecycle ≠ 2 ∧ dep.attic.lifecycle = 2 ∧ takes Ev.REG_WRITE_IGNORED dep = true ∧ hostMayWrite s Reg.TMP_ALARM = false ∧ ideOk s false = true ∧ losesEvidence Ev.ACCESS_VIOLATION s = false ∧
      hostMayWrite (hostSt 0) Reg.HST_IDE_CFG = decide (0x30 = 0x30 + Reg.HST_IDE_CFG / 0x100000) ∧ (descAt Reg.HST_IDE_CFG).isSome = true ∧ ((descAt Reg.HST_IDE_CFG).map (fun d => typeMask .ow d.fields)) ≠ some 0 ∧
      ((descAt Reg.HST_LINK_STATUS).map (fun d => typeMask .ow d.fields)) = some 0 ∧ descAt 0xE8 = none ∧ Reg.TMP_ALARM % 8 = 0 ∧ Reg.TMP_ALARM < 0xF00000 ∧ nbit (1 : W64).toNat 0 = true) ∧
    (0x2000 % 8 = 0 ∧ 0x3FF8 % 8 = 0 ∧ pgCause % 8 = 0 ∧ 0xA000 < 0x10000) := by
  refine ⟨by decide +kernel, by decide +kernel, by decide +kernel, by decide +kernel, by decide +kernel, by decide +kernel, by decide +kernel⟩

theorem witness_HostResets :
    ((lampSt 0 0).live = false ∧ (15 : Fin 16) ≠ 0 ∧ svc.live = true ∧ svc.fore.running = [] ∧ svc.gal.jobs = [] ∧ svc.host.sessions = [] ∧ ownsCell (hostSt 1) 15 65535 = true ∧ tokenOf (hostSt 1) 65535 = 1 ∧
      pageLost svc 15 (15 * 0x10000 + pgTxDb) = true ∧ pageLost svc 15 (15 * 0x10000 + pgRingFault) = false) ∧
    (let s : State := { svc with host := { svc.host with flr := [0, 15] } }; s.host.flr.contains 0 = true ∧ s.host.flr.contains 15 = true) ∧
    ([1, 2, 4, 8].contains (8 : Fin 16).val = true ∧ [1, 2, 4, 8].contains (3 : Fin 16).val = false ∧ 1 ≤ (6 : Fin 16).val ∧ (6 : Fin 16).val ≤ 6 ∧ 6 < (7 : Fin 16).val) := by decide +kernel

/-- A part with its identity and a session, the request state `st`. -/
def spSt (st : Nat) (est : Bool) (ident : Bool) : State :=
  { svc with
    vault := { svc.vault with identity := ident }
    host := { svc.host with spdmState := st, spdmAlg := 15, sessions := [⟨5, est, [], [], 0⟩], ide := [(3, ⟨[(0, 1), (1, 1)], [0, 1], true⟩)] } }

theorem witness_IdeStreams :
    (secured svc = false ∧ svc.live = true ∧ (let s := spSt 3 true true; s.live = true ∧ secured s = true ∧ (ideOf s 3).go.Nodup ∧ tfind (ideOf s 3).keys 0 ≠ none ∧ tfind (ideOf s 2).keys 0 = none ∧
      (ideOf s 3).go.contains (2 * (1 - 0)) = false ∧ (ideOf s 3).secure = true ∧ (ideOf s 2).secure = false ∧ losesEvidence Ev.IDE_FAIL s = false ∧ (ideOf s 2).go = [])) := by decide +kernel

theorem witness_SpdmRequests :
    (spdmCmd .getVersion = true ∧ (lampSt 0 0).live = false ∧ svc.live = true ∧ needsKey (.endSession 5) = true ∧ spdmCmd (.endSession 5) = true ∧ (spSt 3 true false).vault.identity = false ∧ (spSt 3 true true).vault.identity = true) ∧
    (∀ st ∈ [0, 1, 2, 3], (spSt st true true).host.spdmState = st) ∧ agreed (spSt 3 true true) 15 = true ∧ agreed (spSt 3 true true) 3 = true ∧ agreed svc 3 = false ∧
    ((0x12 : Byte) ≠ 0x11 ∧ (8 : Byte).toNat ≤ 8 ∧ 8 < (9 : Byte).toNat ∧ (9 : Byte) ≠ 0xFF ∧ (zeros 96).length = 96 ∧ (zeros 95).length ≠ 96 ∧ (3 : Byte) ≠ 0 ∧ (3 : Byte).toNat ≤ 3 ∧ 3 < (4 : Byte).toNat) ∧
    Config.certChain.length ≤ Config.certChain.length ∧ 0 < Config.certChain.length ∧
    (∀ est ∈ [true, false], sessionOf (spSt 3 est true) (5 : W32).toNat = some ⟨5, est, [], [], 0⟩) ∧ sessionOf (spSt 3 true true) (6 : W32).toNat = none := by
  refine ⟨by decide +kernel, by decide +kernel, by decide +kernel, by decide +kernel, by decide +kernel, by decide +kernel, Nat.le_refl _, Nat.succ_pos _, by decide +kernel, by decide +kernel⟩

/-! The tally, and a sealed part -/

/-- Some record. -/
def rec0 (sev : Nat) : TRec := ⟨1, 0, 0x1004, sev, true, 1, 3, 0, 0, 0, [], 0xA5, 0⟩

theorem witness_TallyRules :
    (let off := Reg.MAC_CNT_RX_RUNT 63; off ≠ halfWord off ∧ crossedHalf (svc.reg off).toNat 1 = false ∧ crossedHalf ((svc.setReg off 0x7FFFFFFFFF).reg off).toNat 1 = true) ∧
    (let s : State := { svc with guard := { svc.guard with buckets := [(Ev.TEMP_WARN, 0)] } }; exempt Ev.TEMP_WARN = false ∧ tokens s Ev.TEMP_WARN = 0) ∧
    (takes Ev.TEMP_WARN svc = true ∧ takes Ev.ALARM svc = true) ∧
    (∀ l, l = List.replicate 16384 (rec0 4) → let s : State := { svc with attic := { svc.attic with evid := l } }; losesEvidence Ev.ACCESS_VIOLATION s = true) ∧
    (atticRO svc 1 = false ∧ svc.attic.ring.length < 65536) ∧
    (∀ o ∈ [rec0 1, rec0 4], ∀ l, l = List.replicate 65536 o → l.length = 65536 ∧ l = [] ++ o :: List.replicate 65535 o ∧ (o.sev ≤ (rec0 1).sev ∨ ∀ x ∈ l, (rec0 1).sev < x.sev)) := by
  refine ⟨by decide +kernel, by decide +kernel, by decide +kernel, ?_, by decide +kernel, ?_⟩
  · intro l h
    have hl : 16384 ≤ l.length := by rw [h, List.length_replicate]
    intro s
    have hf : evidFull s = true := by
      unfold evidFull
      simp only [s, hl, decide_true, Bool.true_or]
    have ht : tokens s Ev.ACCESS_VIOLATION = tokens svc Ev.ACCESS_VIOLATION := rfl
    unfold losesEvidence
    rw [hf, ht]
    decide +kernel
  · intro o ho l h
    refine ⟨by rw [h, List.length_replicate], by rw [h]; exact List.replicate_succ, ?_⟩
    simp only [List.mem_cons, List.not_mem_nil, or_false] at ho
    rcases ho with rfl | rfl
    · exact .inl (by decide)
    · refine .inr fun x hx => ?_
      rw [h] at hx
      rw [List.eq_of_mem_replicate hx]
      decide

theorem witness_SealedHolds : (lampSt 0 0).mainOn = false ∧ ∃ t, step { lampSt 0 0 with pending := [.vbatRootErase] } = .next t := ⟨rfl, _, rfl⟩

/-! ## Ill-formed commands, one for each check -/

theorem test_wf_frames :
    (Instr.clientFrameRx 0 [] .good 0 [] true).wf = false ∧ (Instr.clientFrameRx 0 [1] .good (2 ^ 64) [] true).wf = false ∧ (Instr.lineFrameRx 0 [1] .good 0 [(7, 0)]).wf = false ∧ (Instr.lineFrameRx 0 [1] .good 0 [(6, 0)]).wf = true := by decide
theorem test_wf_commands :
    (Instr.acacheFetchDone (2 ^ 20) .good).wf = false ∧ (Instr.txUnderrun 0 16388).wf = false ∧ (Instr.pfcRx 0 none 0 [1, 2]).wf = false ∧ (Instr.alignCandidate 0 0 (zeros 15)).wf = false ∧ (Instr.trackerConfirm 0 0 (zeros 17)).wf = false ∧
    (Instr.laneFrameCheck 0 (zeros 16) 0).wf = false ∧ (Instr.tubBlockRx 0 0 (2 ^ 64)).wf = false ∧ (Instr.bundleVerifyDone 0 (2 ^ 24)).wf = false ∧ (Instr.deferredOrderRun (2 ^ 24)).wf = false ∧
    (Instr.scrubDone 0 [2 ^ 27]).wf = false ∧ (Instr.patrolScrub (2 ^ 27) .good).wf = false ∧ (Instr.coalesceWriteback (2 ^ 27) .good).wf = false ∧ (Instr.hbmFault 0 16).wf = false ∧ (Instr.hbmFault 1 16).wf = true := by decide
theorem test_wf_messages :
    (Instr.takeover ⟨true, false, false, 2 ^ 32, 0, true⟩).wf = false ∧ (Instr.resyncReq ⟨true, false, false, 0, 2 ^ 64, true⟩).wf = false ∧ (Instr.resyncData ⟨true, false, false, 0, 0, true⟩ ⟨0, List.replicate 9 0, [], []⟩).wf = false ∧
    (Instr.xcData ⟨true, false, false, 0, 0, true⟩ [⟨true, 0, false, 0, none, []⟩] 0 true).wf = false ∧ (Instr.acceptMsg (2 ^ 64) true 0 0).wf = false ∧ (Instr.blob 0 true []).wf = false ∧
    (Instr.blob 0 true [⟨2 ^ 20, 0, 0, 0⟩]).wf = false ∧ (Instr.shadowSweep [.access 0x80 0]).wf = false := by decide
theorem test_wf_host :
    (Instr.landingWrite 0 0x0FFF [1, 2] false .good).wf = false ∧ (Instr.landingRead 15 (2 ^ 26) 1 false .good).wf = false ∧ (Instr.landingRead 0 (2 ^ 26) 1 false .good).wf = true ∧ (Instr.tokenWrite 0 0x4000 0 false).wf = false ∧
    (Instr.keyExchange 0 (zeros 95) false false).wf = false ∧ (Instr.finish 0 (zeros 47)).wf = false ∧ (Instr.i3cPrivateRead 65).wf = false ∧ (Instr.hostRegisterWrite 0 true 4 0 false).wf = false ∧
    (Instr.hostRegisterWrite 1 true 8 0 false).wf = false ∧ (Instr.hostRegisterWrite 1 false 0x10000 0 false).wf = false ∧ (Instr.telemetryUpdate ⟨List.replicate 10 0, [], []⟩).wf = false ∧ (Instr.pcieLinkUp 6 3).wf = false ∧
    (Instr.pcieLinkUp 6 8).wf = true := by decide

/-! ## Single steps against the spec's figures -/

/-- Time moves by 8 ns a step while no command waits (log entry 2). -/
theorem test_idle_tick : (match step svc with | .next t => (t.time.up, t.pending) | _ => (0, [])) = (8, []) := by decide +kernel
/-- The command at the front runs on the queue's rest. -/
theorem test_front_runs : (match step { svc with pending := [.shaperTick, .tagStall] } with | .next t => t.pending | _ => []) = [.tagStall] := by decide +kernel
/-- Table 03.3: the ALIGN word is E3B16A0F5CD28847, and a header of zeros behind it fails its HCRC. -/
theorem test_align_word : slice badHdr 0 8 = [0xE3, 0xB1, 0x6A, 0x0F, 0x5C, 0xD2, 0x88, 0x47] ∧ hdrGood badHdr = false := by decide +kernel

end Sys2Proof.Tests
end

section
/-! PROOFS. The laws of control words and association records: what a field, an entry and a record read as after a write. -/
namespace Sys2Proof.Machine

/-! Fields of a control word (Tables 02.3, R107) -/

/-- A field of the low 32 bits of a word does not see the bits above. -/
theorem cfield_setWidth (w : W64) (f : Fld) (h : f.lo + f.len ≤ 32) : cfield (w.setWidth 32) f = fget w f := by
  apply Nat.eq_of_testBit_eq
  intro i
  simp only [cfield, fget, nbits, BitVec.toNat_setWidth, Nat.testBit_mod_two_pow, Nat.testBit_div_two_pow]
  by_cases hi : i < f.len
  · have : i + f.lo < 32 := by omega
    simp [hi, this]
  · simp [hi]

/-- A field of a control word is that of the word written wider. -/
theorem fget_setWidth (w : W32) (f : Fld) : fget (w.setWidth 64) f = cfield w f := by
  have h : w.toNat % 2 ^ 64 = w.toNat := Nat.mod_eq_of_lt (by have := w.isLt; omega)
  simp only [fget, cfield, BitVec.toNat_setWidth, h]

theorem cfield_cset_same (w : W32) (f : Fld) (v : Nat) (h : f.lo + f.len ≤ 32) : cfield (cset w f v) f = v % 2 ^ f.len := by
  rw [cset, cfield_setWidth _ _ h, fget_fset_same _ _ _ (by omega)]

theorem cfield_cset_ne (w : W32) (f g : Fld) (v : Nat) (hg : g.lo + g.len ≤ 32) (h : f.lo + f.len ≤ g.lo ∨ g.lo + g.len ≤ f.lo) :
    cfield (cset w f v) g = cfield w g := by
  rw [cset, cfield_setWidth _ _ hg, fget_fset_ne _ _ _ _ h, fget_setWidth]

namespace ARec

theorem c_setC_same (r : ARec) (f : Fld) (v : Nat) (h : f.lo + f.len ≤ 32) : (r.setC f v).c f = v % 2 ^ f.len := cfield_cset_same _ _ _ h
theorem c_setC_ne (r : ARec) (f g : Fld) (v : Nat) (hg : g.lo + g.len ≤ 32) (h : f.lo + f.len ≤ g.lo ∨ g.lo + g.len ≤ f.lo) :
    (r.setC f v).c g = r.c g := cfield_cset_ne _ _ _ _ hg h
@[simp] theorem c_setAn (r : ARec) (i : Nat) (e : AnEnt) (f : Fld) : (r.setAn i e).c f = r.c f := rfl
@[simp] theorem ctrl_setAn (r : ARec) (i : Nat) (e : AnEnt) : (r.setAn i e).ctrl = r.ctrl := rfl
@[simp] theorem ans_setC (r : ARec) (f : Fld) (v : Nat) : (r.setC f v).ans = r.ans := rfl
@[simp] theorem an_setC (r : ARec) (f : Fld) (v i : Nat) : (r.setC f v).an i = r.an i := rfl
@[simp] theorem length_setAn (r : ARec) (i : Nat) (e : AnEnt) : (r.setAn i e).ans.length = r.ans.length := List.length_set ..

theorem an_setAn_same (r : ARec) {i : Nat} (e : AnEnt) (h : i < r.ans.length) : (r.setAn i e).an i = e := by
  simp [an, setAn, List.getD_eq_getElem?_getD, h]
theorem an_setAn_ne (r : ARec) {i j : Nat} (e : AnEnt) (h : j ≠ i) : (r.setAn i e).an j = r.an j := by
  simp [an, setAn, List.getD_eq_getElem?_getD, List.getElem?_set_ne h.symm]
theorem setAn_setAn (r : ARec) (i : Nat) (e x : AnEnt) : (r.setAn i e).setAn i x = r.setAn i x := by
  simp [setAn, List.set_set]

end ARec

/-! The entries of a record taken one by one -/

theorem length_zipEnts (f : Nat → AnEnt → AnEnt) (l : List AnEnt) : (zipEnts f l).length = 4 := by simp [zipEnts]

theorem getD_zipEnts (f : Nat → AnEnt → AnEnt) (l : List AnEnt) {i : Nat} (h : i < 4) : (zipEnts f l).getD i an0 = f i (l.getD i an0) := by
  simp [zipEnts, List.getD_eq_getElem?_getD, h]

/-- Putting back the key-map words undoes a change of the key map alone. -/
theorem keepMaps_putMaps (b : Bytes) (old r : ARec) (hl : old.ans.length = 4) (h : r.ans = putMaps b old.ans) : (keepMaps old r).ans = old.ans := by
  apply List.ext_getElem
  · rw [hl, keepMaps, length_zipEnts]
  · intro i h1 h2
    have hi : i < 4 := by omega
    have e : (keepMaps old r).ans.getD i an0 = old.ans.getD i an0 := by
      rw [keepMaps, getD_zipEnts _ _ hi, h, putMaps, getD_zipEnts _ _ hi]
      rfl
    rwa [List.getD_eq_getElem _ _ h1, List.getD_eq_getElem _ _ h2] at e

/-! Records of the state -/

@[simp] theorem arec_setArec_same (a : Nat) (r : ARec) (s : State) : arec (setArec a r s) a = r := tget_tput_same ..
theorem arec_setArec_ne {a b : Nat} (r : ARec) (s : State) (h : b ≠ a) : arec (setArec a r s) b = arec s b := tget_tput_ne _ _ _ h
theorem arec_setAnOf_same (a i : Nat) (e : AnEnt) (s : State) : arec (setAnOf a i e s) a = (arec s a).setAn i e := arec_setArec_same ..
theorem arec_congr {s t : State} (h : t.assoc = s.assoc) (a : Nat) : arec t a = arec s a := by rw [arec, h, arec]

theorem RecordBut.trans {a : Nat} {s t u : State} (h : RecordBut a s t) (h' : RecordBut a t u) : RecordBut a s u :=
  fun b hb => (h' b hb).trans (h b hb)
theorem RecordBut.of_assoc {s t : State} (a : Nat) (h : t.assoc = s.assoc) : RecordBut a s t := fun b _ => arec_congr h b
theorem setArec_recordBut (a : Nat) (r : ARec) (s : State) : RecordBut a s (setArec a r s) := fun _ hb => arec_setArec_ne r s hb
theorem setAnOf_recordBut (a i : Nat) (e : AnEnt) (s : State) : RecordBut a s (setAnOf a i e s) := setArec_recordBut a _ s

end Sys2Proof.Machine
end

section
/-! PROOFS. What a write of buffer memory that meets no bit error changes besides bytes: side-bands, the coalescing unit, and its counters (R284, R285). -/
namespace Sys2Proof.Machine

/-- Side-bands, the coalescing unit and its counters change, and nothing else. -/
def SectorsTouched (s t : State) : Prop :=
  RegsBut memRegs s t ∧ t = { s with regs := t.regs, page := t.page, out := t.out, mem := { s.mem with side := t.mem.side, opens := t.mem.opens } }

namespace SectorsTouched

theorem refl (s : State) : SectorsTouched s s := ⟨.refl _ _, rfl⟩

theorem trans {s t u : State} (h : SectorsTouched s t) (h' : SectorsTouched t u) : SectorsTouched s u := by
  obtain ⟨r, e⟩ := h
  obtain ⟨r', e'⟩ := h'
  exact ⟨r.trans r', by rw [e', e]⟩

theorem assoc {s t : State} (h : SectorsTouched s t) : t.assoc = s.assoc := by rw [h.2]
theorem fore {s t : State} (h : SectorsTouched s t) : t.fore = s.fore := by rw [h.2]
theorem arec {s t : State} (h : SectorsTouched s t) (a : Nat) : arec t a = Machine.arec s a := arec_congr h.assoc a
theorem fld {s t : State} (h : SectorsTouched s t) {k : Nat} (f : Fld) (hk : k ∉ memRegs) : t.fld k f = s.fld k f := by
  rw [State.fld, h.1 k hk, State.fld]

/-- A store of records changes no more than this where the records stay. -/
theorem stored {s t : State} (h : SectorsTouched s t) : RecordsStored s t := by
  obtain ⟨r, e⟩ := h
  exact ⟨r, by rw [e]⟩

end SectorsTouched

theorem Counted.sectorsTouched {off n : Nat} {s t : State} (h : Counted off n s t) (h1 : off ∈ memRegs) (h2 : halfWord off ∈ memRegs) : SectorsTouched s t := by
  obtain ⟨e, r, -⟩ := h
  refine ⟨fun k hk => r k ?_, by rw [e]⟩
  simp only [List.mem_cons, List.not_mem_nil, or_false, not_or]
  exact ⟨fun x => hk (x ▸ h1), fun x => hk (x ▸ h2)⟩

theorem opens_sectorsTouched (s : State) (l : List OpenSec) : SectorsTouched s { s with mem := { s.mem with opens := l } } := ⟨fun _ _ => rfl, rfl⟩

theorem bump_partial_touched (s : State) : SectorsTouched s (bump Reg.MEM_CNT_PARTIAL 1 s) := (bump_counted _ 1 s (by decide)).sectorsTouched (by decide) (by decide)
theorem bump_coalesced_touched (s : State) : SectorsTouched s (bump Reg.MEM_CNT_COALESCED 1 s) := (bump_counted _ 1 s (by decide)).sectorsTouched (by decide) (by decide)
theorem bump_noKey_touched (s : State) : SectorsTouched s (bump Reg.MEM_CNT_NO_KEY 1 s) := (bump_counted _ 1 s (by decide)).sectorsTouched (by decide) (by decide)

theorem fullWrite_touched (n : Nat) (s : State) : SectorsTouched s (fullWrite n s) := ⟨fun _ _ => rfl, rfl⟩

theorem readSector_good_touched (n : Nat) (s : State) : SectorsTouched s (readSector n .good s).2 := by
  unfold readSector
  split
  · exact bump_noKey_touched s
  · split <;> exact .refl s

theorem mayWrite_touched (n len : Nat) (s : State) : SectorsTouched s (mayWrite n len s).2 := by
  unfold mayWrite
  dsimp only
  generalize keyHeld s _ _ = b
  cases b
  · exact bump_noKey_touched s
  · exact .refl s

theorem writeBack_good_touched (o : OpenSec) (s : State) : SectorsTouched s (writeBack o .good s) := by
  have h0 := opens_sectorsTouched s (s.mem.opens.erase o)
  unfold writeBack
  dsimp only
  split
  · exact h0.trans (fullWrite_touched _ _)
  · have h1 := (h0.trans (bump_partial_touched _)).trans (readSector_good_touched o.cell _)
    split
    · exact h1.trans (fullWrite_touched _ _)
    · exact h1

theorem makeRoom_good_touched (n : Nat) (s : State) : SectorsTouched s (makeRoom n .good s) := by
  unfold makeRoom
  dsimp only
  split
  · exact .refl s
  · split
    · exact writeBack_good_touched _ s
    · exact .refl s

theorem touch_good_touched (n off len : Nat) (s : State) : SectorsTouched s (touch n off len .good s) := by
  unfold touch
  split
  · dsimp only
    split
    · exact ((opens_sectorsTouched s _).trans (bump_coalesced_touched _)).trans (writeBack_good_touched _ _)
    · exact (opens_sectorsTouched s _).trans (bump_coalesced_touched _)
  · exact (makeRoom_good_touched n s).trans (opens_sectorsTouched _ _)

theorem touchCell_good_touched (n off len : Nat) (s : State) : SectorsTouched s (touchCell n off len .good s) := by
  unfold touchCell
  split
  · exact fullWrite_touched n s
  · exact touch_good_touched n off len s

theorem side_fullWrite (n : Nat) (s : State) :
    (fullWrite n s).mem.side = tput none0 s.mem.side n (some ⟨regionKey s (regionOfCell n), kgenOf s (regionKey s (regionOfCell n)), false, true⟩) := rfl

/-- A full write leaves the side-band of every other sector. -/
theorem sectorAt_fullWrite_ne {m n : Nat} (s : State) (h : n ≠ m) : sectorAt (fullWrite m s) n = sectorAt s n := by
  unfold sectorAt
  rw [side_fullWrite, tget_tput_ne none0 s.mem.side _ h]
  rfl

/-- Part of a sector may be written where its key is held and it is not poisoned. -/
theorem mayWrite_part (n : Nat) {len : Nat} (s : State) (h : len < 256) :
    (mayWrite n len s).1 = (keyHeld s (sectorAt s n).mkey (sectorAt s n).kgen && !(sectorAt s n).poison) := by
  unfold mayWrite
  simp only [if_neg (Nat.not_le.2 h), decide_eq_false (Nat.not_le.2 h), Bool.false_or]
  cases keyHeld s (sectorAt s n).mkey (sectorAt s n).kgen <;> rfl

/-- So a full write of another sector changes nothing about it. -/
theorem mayWrite_fullWrite_ne {m n len : Nat} (s : State) (hlen : len < 256) (h : n ≠ m) : (mayWrite n len (fullWrite m s)).1 = (mayWrite n len s).1 := by
  rw [mayWrite_part _ _ hlen, mayWrite_part _ _ hlen, sectorAt_fullWrite_ne s h]
  rfl

/-- A sector reads good where its key is held, it is not poisoned and its check passes. -/
theorem readSector_fst (n : Nat) (ecc : Ecc) (s : State) :
    (readSector n ecc s).1 = (keyHeld s (sectorAt s n).mkey (sectorAt s n).kgen && !(sectorAt s n).poison && ecc != .bad) := by
  unfold readSector
  cases keyHeld s (sectorAt s n).mkey (sectorAt s n).kgen
  · rfl
  · cases (sectorAt s n).poison
    · cases ecc <;> rfl
    · rfl

/-- A sector that reads good leaves the state as it was. -/
theorem readSector_ok {n : Nat} {ecc : Ecc} {s : State} (h : (readSector n ecc s).1 = true) : (readSector n ecc s).2 = s := by
  rw [readSector_fst] at h
  simp only [Bool.and_eq_true, Bool.not_eq_true', bne_iff_ne] at h
  obtain ⟨⟨hk, hp⟩, he⟩ := h
  unfold readSector
  rw [hk, hp]
  cases ecc with
  | bad => exact absurd rfl he
  | good => rfl
  | corrected => rfl

theorem readSectors_cons (n : Nat) (l : List Nat) (k : Nat) (ecc : Ecc) (s : State) :
    (readSectors (n :: l) k ecc s).1 = ((readSector n (if k = 0 then ecc else .good) s).1 && (readSectors l (k - 1) (if k = 0 then .good else ecc) s).1) := by
  rw [readSectors]
  cases h : (readSector n (if k = 0 then ecc else .good) s).1
  · simp [h]
  · simp [h, readSector_ok h]

/-- The result of reading sectors hangs on buffer memory and its keys, not on the foreman. -/
theorem readSectors_fore (f : Foreman) (l : List Nat) (k : Nat) (ecc : Ecc) (s : State) :
    (readSectors l k ecc { s with fore := f }).1 = (readSectors l k ecc s).1 := by
  induction l generalizing k ecc with
  | nil => rfl
  | cons n l ih =>
    rw [readSectors_cons, readSectors_cons, ih, readSector_fst, readSector_fst]
    rfl

/-- Sectors that all read good leave the state as it was. -/
theorem readSectors_ok {l : List Nat} {k : Nat} {ecc : Ecc} {s : State} (h : (readSectors l k ecc s).1 = true) : (readSectors l k ecc s).2 = s := by
  induction l generalizing k ecc with
  | nil => rfl
  | cons n l ih =>
    rw [readSectors_cons, Bool.and_eq_true] at h
    obtain ⟨h1, h2⟩ := h
    unfold readSectors
    simp only [h1, if_true, readSector_ok h1]
    exact ih h2

theorem readCells_fore (f : Foreman) (l : List Nat) (ecc : Ecc) (s : State) : (readCells l ecc { s with fore := f }).1 = (readCells l ecc s).1 := by
  unfold readCells
  split
  · exact readSectors_fore f l _ .bad s.drew
  · exact readSectors_fore f l 0 .good s

theorem readCells_ok {l : List Nat} {ecc : Ecc} {s : State} (he : ecc ≠ .bad) (h : (readCells l ecc s).1 = true) : readCells l ecc s = (true, s) := by
  unfold readCells at h ⊢
  rw [if_neg he] at h ⊢
  exact Prod.ext h (readSectors_ok h)

end Sys2Proof.Machine
end

section
/-! PROOFS. What every order of Table 07.9 has in common: its arguments, its source, and what it finds in the state it begins from. -/
namespace Sys2Proof.Machine

/-! The order a foreman thread issues -/

theorem ordered_args (code : Nat) (o : OrdBy) (args : List W64) (s : State) : (ordered code o args s).args = args := by
  unfold ordered requestBy request; split <;> rfl
theorem ordered_arg (code : Nat) (o : OrdBy) (args : List W64) (s : State) (k : Nat) : (ordered code o args s).arg k = (args.getD k 0).toNat := by
  rw [OrdReq.arg, ordered_args]
theorem ordered_src_ne (code : Nat) (o : OrdBy) (args : List W64) (s : State) : (ordered code o args s).src ≠ 2 := by
  unfold ordered requestBy request; split <;> simp
theorem ordered_ecc (code : Nat) (o : OrdBy) (args : List W64) (s : State) : (ordered code o args s).ecc = o.ecc := rfl

/-! The state it begins from: another foreman, all else alike -/

theorem begun_arec (q : OrdReq) (s : State) (a : Nat) : arec (begun q s) a = arec s a := by rw [begun_eq]; rfl
theorem begun_claims (q : OrdReq) (s : State) : (begun q s).fore.claims = s.fore.claims := by rw [begun_eq]
theorem begun_claimOn (q : OrdReq) (s : State) (r : Res) : claimOn (begun q s) r = claimOn s r := by rw [claimOn, begun_claims, claimOn]
theorem begun_isTubRec (q : OrdReq) (s : State) (a : Nat) : isTubRec (begun q s) a = isTubRec s a := by rw [begun_eq]; rfl
theorem begun_recordBytes (q : OrdReq) (s : State) (a : Nat) : recordBytes (begun q s) a = recordBytes s a := by
  rw [recordBytes, recordBytes, begun_isTubRec, begun_arec]
theorem begun_portInstalls (q : OrdReq) (s : State) (a : Nat) : portInstalls (begun q s) a = portInstalls s a := by rw [begun_eq]; rfl
theorem begun_mayWrite_part (q : OrdReq) (s : State) (n : Nat) {len : Nat} (h : len < 256) : (mayWrite n len (begun q s)).1 = (mayWrite n len s).1 := by
  rw [mayWrite_part _ _ h, mayWrite_part _ _ h, begun_eq]; rfl
theorem begun_twinF (q : OrdReq) (s : State) (f : Fld) : twinF (begun q s) f = twinF s f := by rw [begun_eq]; rfl
theorem begun_readCells (q : OrdReq) (s : State) (l : List Nat) (ecc : Ecc) : (readCells l ecc (begun q s)).1 = (readCells l ecc s).1 := by
  rw [begun_eq]; exact readCells_fore _ _ _ _
theorem begun_ordCellsOk (q : OrdReq) (s : State) (cell len : Nat) : ordCellsOk q (begun q s) cell len = ordCellsOk q s cell len := by rw [begun_eq]; rfl

/-- An order that may use its cells is kept from reading them by a failed check alone. -/
theorem cellBar_isNone (q : OrdReq) (s : State) (cell len : Nat) :
    (cellBar q s cell len).isNone = (ordCellsOk q s cell len && (readCells (cellsOf (landingAt cell) len) q.ecc s).1) := by
  unfold cellBar readBar ordCellsOk
  cases (cellsFrom cell (max len 1)).all (ordCellOk q s)
  · rfl
  · cases h : (readCells (cellsOf (landingAt cell) len) q.ecc s).1 <;> simp [h]

theorem begun_ordRead (q : OrdReq) (s : State) (cell len : Nat) : ordRead q (begun q s) cell len = ordRead q s cell len := by
  unfold ordRead
  rw [cellBar_isNone, cellBar_isNone, begun_ordCellsOk, begun_readCells]
  have h : cellBytes (begun q s) cell len = cellBytes s cell len := by rw [begun_eq]; rfl
  rw [h]

theorem begun_installSalt (q : OrdReq) (s : State) (tub : Bool) : installSalt (begun q s) q tub = installSalt s q tub := by
  have h : saltLen (begun q s) q tub = saltLen s q tub := by rw [saltLen, begun_arec, saltLen]
  rw [installSalt, h, begun_ordRead, installSalt]

/-! How it ends -/

/-- An accepted order whose body is done on a state with a property ends with its status and results. -/
theorem orderRow_ends {code : Nat} {body : OrdBody} {o : OrdBy} {args : List W64} {s : State} {st : Nat} {rs : List (Nat × W64)} {P : State → Prop}
    (h : Accepted (ordered code o args s) s) (hb : ∃ u, body (ordered code o args s) (begun (ordered code o args s) s) = (.done st rs, u) ∧ P u) :
    ∃ t, (.next (orderRow code body o args s) : Ans) = .next t ∧ ∃ u, t = orderEnds (ordered code o args s) st rs u ∧ P u := by
  obtain ⟨u, hu, hp⟩ := hb
  exact ⟨_, rfl, u, orderRow_done h hu, hp⟩

/-! Events that are no evidence -/

theorem event_raised {code : Nat} (vals : List Nat) (s : State) (h : (evInfo code).2 = false) : Raised code vals s (event code vals s) := by
  have e : event code vals s = event0 code 0 vals s := by
    unfold event losesEvidence
    rw [h]
    rfl
  rw [e]
  exact ⟨event0_logged _ _ _ _, event0_recorded⟩

end Sys2Proof.Machine
end

section
/-! PROOFS. The orders on association records (chapter 02, Table 07.9): what each body does to a MACsec record that no other order holds. -/
namespace Sys2Proof.Machine

/-- A MACsec record with its four entries, which no order holds. -/
structure FreeRecord (s : State) (a : Nat) : Prop where
  lt : a < 2 ^ 20
  free : claimOn s (.record a) = none
  four : (arec s a).ans.length = 4
  plain : isTubRec s a = false

/-- The key-map word of a record may be written (R284). -/
def mapOpen (s : State) (a : Nat) : Bool := (mayWrite (mapWordAt a / 256) 16 s).1

theorem FreeRecord.begun {s : State} {a : Nat} (h : FreeRecord s a) (q : OrdReq) : FreeRecord (begun q s) a where
  lt := h.lt
  free := (begun_claimOn q s _).trans h.free
  four := by rw [begun_arec]; exact h.four
  plain := (begun_isTubRec q s a).trans h.plain

/-- An order on such a record goes on to what it does. -/
theorem onRecord_free {f : OrdBody} {q : OrdReq} {s : State} {a : Nat} (hq : q.arg 0 = a) (h : FreeRecord s a) : onRecord f q s = f q s := by
  unfold onRecord unclaimed
  rw [hq, if_neg (Nat.not_le.2 h.lt), h.free]

/-! Stores (R284) -/

theorem RecordsStored.trans {s t u : State} (h : RecordsStored s t) (h' : RecordsStored t u) : RecordsStored s u := by
  obtain ⟨r, e⟩ := h
  obtain ⟨r', e'⟩ := h'
  exact ⟨r.trans r', by rw [e', e]⟩

theorem setArec_stored (a : Nat) (r : ARec) (s : State) : RecordsStored s (setArec a r s) := ⟨fun _ _ => rfl, rfl⟩
theorem setAnOf_stored (a i : Nat) (e : AnEnt) (s : State) : RecordsStored s (setAnOf a i e s) := setArec_stored ..
theorem storeRecord_touched (a : Nat) (s : State) : SectorsTouched s (storeRecord a s) := fullWrite_touched ..
theorem setRecord_stored (a : Nat) (r : ARec) (s : State) : RecordsStored s (setRecord a r s) := (setArec_stored a r s).trans (storeRecord_touched a _).stored

@[simp] theorem arec_storeRecord (a b : Nat) (s : State) : arec (storeRecord a s) b = arec s b := (storeRecord_touched a s).arec b
@[simp] theorem arec_setRecord_same (a : Nat) (r : ARec) (s : State) : arec (setRecord a r s) a = r := by rw [setRecord, arec_storeRecord, arec_setArec_same]
theorem setRecord_recordBut (a : Nat) (r : ARec) (s : State) : RecordBut a s (setRecord a r s) :=
  (setArec_recordBut a r s).trans (.of_assoc a (storeRecord_touched a _).assoc)

/-- A record and its key-map word lie in different sectors, so a store of the record leaves the word as open as it was. -/
theorem mapOpen_setRecord {a : Nat} (r : ARec) (s : State) (h : a < 2 ^ 20) : mapOpen (setRecord a r s) a = mapOpen s a := by
  have hne : mapWordAt a / 256 ≠ recordAt a / 256 := by unfold mapWordAt recordAt; omega
  unfold mapOpen setRecord storeRecord
  rw [mayWrite_fullWrite_ne _ (by decide) hne, mayWrite_part _ _ (by decide), mayWrite_part _ _ (by decide)]
  rfl

/-- A key-map word that may be written is written, and the order goes on. -/
theorem commitMap_open {s : State} {a : Nat} (old : ARec) (done : State → OrdAns × State) (h : mapOpen s a = true) :
    ∃ t, commitMap a old done s = done t ∧ SectorsTouched s t := by
  unfold mapOpen at h
  unfold commitMap
  simp only [h, if_true]
  exact ⟨_, rfl, (mayWrite_touched _ _ s).trans (touch_good_touched _ _ _ _)⟩

/-- One that may not be written ends the order ABORTED and puts the words back (log entry 138). -/
theorem commitMap_shut {s : State} {a : Nat} (old : ARec) (done : State → OrdAns × State) (h : mapOpen s a = false) :
    ∃ t, commitMap a old done s = ordSt St.ABORTED (setArec a (keepMaps old (arec s a)) t) ∧ SectorsTouched s t := by
  have ht := mayWrite_touched (mapWordAt a / 256) 16 s
  unfold mapOpen at h
  unfold commitMap
  simp only [h, Bool.false_eq_true, if_false]
  exact ⟨_, by rw [ht.arec], ht⟩

/-! ASSOC_WRITE (R42, R284) -/

/-- What an ASSOC_WRITE of bytes b leaves of a record that holds no SA, where its key-map words become m. -/
def rewrittenRec (b : Bytes) (r : ARec) (m : List AnEnt) : ARec :=
  { r with sci := (assocParts false b).sci, limit := (assocParts false b).limit, window := (assocParts false b).window, warn := (assocParts false b).warn,
           ctrl := (r.ctrl &&& ~~~ 0xF9FFF) ||| ((assocParts false b).ctrl &&& 0xF9FFF), ans := m }

theorem assocWriteAll_unused {s : State} {a : Nat} (b : Bytes) (hu : (arec s a).used = false) (hm : (arec s a).memBad = false) :
    assocWriteAll a false b s = setRecord a (rewrittenRec b (arec s a) (putMaps b (arec s a).ans)) s := by
  have e : rewritten (arec s a) = (arec s a).ans := by rw [rewritten, hm]; rfl
  unfold assocWriteAll
  simp only [hu, Bool.and_false, Bool.false_and, Bool.false_eq_true, if_false, e, setRecord, rewrittenRec, hm, ctrlOw]

section
variable {q : OrdReq} {s : State} {a : Nat} {b : Bytes} (hf : FreeRecord s a) (hq : q.arg 0 = a) (hsrc : q.src ≠ 2) (hr : ordRead q s (q.arg 1) 272 = some b)
include hf hq hsrc hr

theorem assocWriteBody_unfit (h : assocFits false (assocParts false b) = false) : assocWriteBody q s = (.done St.UNSUPPORTED [], s) := by
  unfold assocWriteBody
  rw [onRecord_free hq hf]
  simp only [hq, hf.plain, hr, hsrc, h, if_false, Bool.not_false, if_true]
  rfl

theorem assocWriteBody_busy (h : assocFits false (assocParts false b) = true) (hm : assocMoves false (arec s a) (assocParts false b) = true) (hu : (arec s a).used = true) :
    assocWriteBody q s = (.busy (noHolder (.record a)), s) := by
  unfold assocWriteBody
  rw [onRecord_free hq hf]
  simp only [hq, hf.plain, hr, hsrc, h, hm, hu, if_false, Bool.not_true, Bool.false_eq_true, Bool.and_true, if_true]

/-- A record that holds no SA takes every part of the write, and its key-map words where they can be written. -/
theorem assocWriteBody_unused (h : assocFits false (assocParts false b) = true) (hu : (arec s a).used = false) (hm : (arec s a).memBad = false) :
    ∃ u, assocWriteBody q s = (.done (if mapOpen s a then St.OK else St.ABORTED) [], u) ∧ RecordsStored s u ∧ RecordBut a s u ∧
      arec u a = rewrittenRec b (arec s a) (if mapOpen s a then putMaps b (arec s a).ans else (arec s a).ans) := by
  have hb : assocWriteBody q s = commitMap a (arec s a) ordOk (setRecord a (rewrittenRec b (arec s a) (putMaps b (arec s a).ans)) s) := by
    unfold assocWriteBody
    rw [onRecord_free hq hf]
    simp only [hq, hf.plain, hr, hsrc, h, hu, if_false, Bool.not_true, Bool.false_eq_true, Bool.and_false, assocWriteAll_unused b hu hm]
  have hmaps : (rewrittenRec b (arec s a) (putMaps b (arec s a).ans)).ans = putMaps b (arec s a).ans := by rw [rewrittenRec]
  rw [hb]
  generalize hR : rewrittenRec b (arec s a) (putMaps b (arec s a).ans) = R at hmaps ⊢
  have ho := mapOpen_setRecord R s hf.lt
  have hs := setRecord_stored a R s
  have hk := setRecord_recordBut a R s
  have hw := arec_setRecord_same a R s
  generalize setRecord a R s = w at *
  cases hopen : mapOpen s a
  · obtain ⟨t, e, ht⟩ := commitMap_shut (arec s a) ordOk (ho.trans hopen)
    have hkeep : (keepMaps (arec s a) (arec w a)).ans = (arec s a).ans := keepMaps_putMaps b _ _ hf.four (by rw [hw]; exact hmaps)
    have hkept : keepMaps (arec s a) (arec w a) = { arec w a with ans := (keepMaps (arec s a) (arec w a)).ans } := rfl
    simp only [Bool.false_eq_true, if_false]
    refine ⟨_, e, (hs.trans ht.stored).trans (setArec_stored ..), (hk.trans (.of_assoc a ht.assoc)).trans (setArec_recordBut _ _ _), ?_⟩
    rw [arec_setArec_same, hkept, hkeep, hw, ← hR, rewrittenRec, rewrittenRec]
  · obtain ⟨t, e, ht⟩ := commitMap_open (arec s a) ordOk (ho.trans hopen)
    simp only [if_true, hR]
    exact ⟨t, e, hs.trans ht.stored, hk.trans (.of_assoc a ht.assoc), (ht.arec a).trans hw⟩

end

/-! AN_INSTALL (R43, R52, R374) -/

/-- The first SA of an SC makes it ACTIVE; a later one leaves the control word. -/
theorem installState_ctrl (r : ARec) (i : Nat) :
    (installState r i).ans = r.ans ∧ (r.c AC.STATE = 0 → (installState r i).c AC.STATE = 1) ∧ (r.c AC.STATE ≠ 0 → (installState r i).ctrl = r.ctrl) := by
  unfold installState
  split
  · next h =>
    refine ⟨?_, fun _ => ARec.c_setC_same _ _ _ (by decide), fun h' => absurd h h'⟩
    rw [ARec.ans_setC]
    split <;> rfl
  · next h => exact ⟨rfl, fun h' => absurd h' h, fun _ => rfl⟩

/-- The entry that an AN_INSTALL writes into a MACsec record. -/
theorem installEnt_plain {s : State} {a : Nat} {q : OrdReq} (salt : Nat) (hq : q.arg 0 = a) :
    installEnt s q false salt = { an0 with
      slot := if (q.arg 2).testBit 20 then 0 else q.arg 2, valid := true, map := if (q.arg 2).testBit 20 then BitVec.ofNat 32 (q.arg 2 % 2 ^ 21) else 0
      ssci := if xpn (arec s a).ctrl then q.arg 5 % 2 ^ 32 else 0, salt := if xpn (arec s a).ctrl then salt else 0, nextPn := q.arg 3
      lowestPn := if (arec s a).c AC.DIR = 1 then q.arg 4 else 0 } := by
  unfold installEnt
  simp only [hq, Bool.not_false, Bool.true_and, Bool.or_false, Bool.false_eq_true, if_false, nbit, beq_iff_eq]
  rfl

section
variable {q : OrdReq} {s : State} {a : Nat} (hf : FreeRecord s a) (hq : q.arg 0 = a)
include hf hq

/-- Numbers that do not fit are refused whatever else the order names (R43). -/
theorem anInstallBody_unfit (h : installFits false (arec s a) (q.arg 3) (q.arg 4) (q.arg 2) = false) : anInstallBody q s = (.done St.UNSUPPORTED [], s) := by
  unfold anInstallBody
  rw [onRecord_free hq hf]
  simp only [hq, hf.plain, h, Bool.not_false, or_true, if_true]
  rfl

/-- An entry that holds no SA and has nothing in flight takes the one installed. -/
theorem anInstallBody_free {i salt : Nat} (hi : q.arg 1 = i) (h4 : i < 4) (hp : portInstalls s a = true)
    (hn : installFits false (arec s a) (q.arg 3) (q.arg 4) (q.arg 2) = true) (hs : installSalt s q false = some salt)
    (hv : ((arec s a).an i).valid = false) (hz : ((arec s a).an i).inflight = 0) (ho : mapOpen s a = true) :
    ∃ u, anInstallBody q s = (.done St.OK [(23, BitVec.ofNat 64 (twinF s Fd.TWN_STATUS_ROLE_EPOCH))], u) ∧ RecordsStored s u ∧ RecordBut a s u ∧
      arec u a = installState ((arec s a).setAn i (installEnt s q false salt)) i := by
  have hsame : ((arec s a).an i).same (installEnt s q false salt) = false := by simp [AnEnt.same, hv]
  obtain ⟨t, e, ht⟩ := commitMap_open (arec s a) ordEpoch ((mapOpen_setRecord (installState ((arec s a).setAn i (installEnt s q false salt)) i) s hf.lt).trans ho)
  have hb : anInstallBody q s = ordEpoch t := by
    unfold anInstallBody
    rw [onRecord_free hq hf]
    simp only [hq, hi, hf.plain, hp, hn, hs, hsame, hz, Nat.not_le.2 h4, Bool.false_or, Bool.not_true, Bool.false_eq_true, or_false, if_false, ne_eq, not_true, e]
  have ha : SectorsTouched (setArec a (installState ((arec s a).setAn i (installEnt s q false salt)) i) s) t := (storeRecord_touched a _).trans ht
  have he : twinF t Fd.TWN_STATUS_ROLE_EPOCH = twinF s Fd.TWN_STATUS_ROLE_EPOCH := ha.fld _ (by decide)
  refine ⟨t, by rw [hb, ordEpoch, he]; rfl, (setRecord_stored ..).trans ht.stored, (setRecord_recordBut _ _ _).trans (.of_assoc a ht.assoc), ?_⟩
  rw [ht.arec, arec_setRecord_same]

end

/-! AN_SELECT (R53, R54) -/

/-- An entry with frames in flight begins to retire and stays until they have left. -/
theorem startRetiring_inflight {s : State} {a i : Nat} (hi : i < (arec s a).ans.length) (hv : ((arec s a).an i).valid = true)
    (hr : ((arec s a).an i).retiring = false) (hz : ((arec s a).an i).inflight ≠ 0) :
    startRetiring a i s = setAnOf a i { (arec s a).an i with retiring := true } s := by
  unfold startRetiring drained
  simp only [hv, hr, Bool.not_false, Bool.and_self, if_true, arec_setAnOf_same, ARec.an_setAn_same _ _ hi, hz, false_and, if_false]

/-- The record after an AN_SELECT has set the AN to follow. -/
def withNext (r : ARec) (next nv : Nat) : ARec := (r.setC AC.NEXT_AN next).setC AC.NEXT_VALID nv

/-- The record after a running SC has gone over to another AN. -/
def withCur (r : ARec) (cur : Nat) : ARec := (r.setAn cur { r.an cur with retiring := false }).setC AC.CUR_AN cur

theorem withNext_c (r : ARec) (next nv : Nat) (h1 : next < 4) (h2 : nv < 2) :
    (withNext r next nv).c AC.NEXT_AN = next ∧ (withNext r next nv).c AC.NEXT_VALID = nv ∧
    (withNext r next nv).c AC.CUR_AN = r.c AC.CUR_AN ∧ (withNext r next nv).c AC.STATE = r.c AC.STATE := by
  unfold withNext
  refine ⟨?_, ?_, ?_, ?_⟩
  · rw [ARec.c_setC_ne _ _ _ _ (by decide) (by decide), ARec.c_setC_same _ _ _ (by decide)]
    exact Nat.mod_eq_of_lt h1
  · rw [ARec.c_setC_same _ _ _ (by decide)]
    exact Nat.mod_eq_of_lt h2
  · rw [ARec.c_setC_ne _ _ _ _ (by decide) (by decide), ARec.c_setC_ne _ _ _ _ (by decide) (by decide)]
  · rw [ARec.c_setC_ne _ _ _ _ (by decide) (by decide), ARec.c_setC_ne _ _ _ _ (by decide) (by decide)]

theorem withCur_c (r : ARec) (cur : Nat) (h : cur < 4) :
    (withCur r cur).c AC.CUR_AN = cur ∧ (withCur r cur).c AC.NEXT_AN = r.c AC.NEXT_AN ∧ (withCur r cur).c AC.NEXT_VALID = r.c AC.NEXT_VALID := by
  unfold withCur
  refine ⟨?_, ?_, ?_⟩
  · rw [ARec.c_setC_same _ _ _ (by decide)]
    exact Nat.mod_eq_of_lt h
  · rw [ARec.c_setC_ne _ _ _ _ (by decide) (by decide), ARec.c_setAn]
  · rw [ARec.c_setC_ne _ _ _ _ (by decide) (by decide), ARec.c_setAn]

/-- A running SC goes over to another AN: KEY_SWITCHED, then the AN in use so far begins to retire. -/
theorem switchAn_running {s : State} {a cur old : Nat} (ho : old = (arec s a).c AC.CUR_AN) (hne : old ≠ cur) (hi : old < (arec s a).ans.length)
    (hv : ((arec s a).an old).valid = true) (hr : ((arec s a).an old).retiring = false) (hz : ((arec s a).an old).inflight ≠ 0) (hst : (arec s a).c AC.STATE = 1) :
    ∃ v, Raised Ev.KEY_SWITCHED [a, cur, ((arec s a).an cur).nextPn] (setArec a (withCur (arec s a) cur) s) v ∧
      switchAn a cur s = setAnOf a old { (arec s a).an old with retiring := true } v := by
  have hR := event_raised (code := Ev.KEY_SWITCHED) [a, cur, ((arec s a).an cur).nextPn] (setArec a (withCur (arec s a) cur) s) (by decide)
  refine ⟨_, hR, ?_⟩
  have ha : arec (event Ev.KEY_SWITCHED [a, cur, ((arec s a).an cur).nextPn] (setArec a (withCur (arec s a) cur) s)) a = withCur (arec s a) cur := by
    rw [arec_congr hR.1.assoc, arec_setArec_same]
  have hold : (withCur (arec s a) cur).an old = (arec s a).an old := by
    rw [withCur, ARec.an_setC, ARec.an_setAn_ne _ _ hne]
  have hsw : switchAn a cur s = startRetiring a old (event Ev.KEY_SWITCHED [a, cur, ((arec s a).an cur).nextPn] (setArec a (withCur (arec s a) cur) s)) := by
    unfold switchAn
    simp only [← ho]
    rw [← withCur, hst, if_neg (by decide)]
  rw [hsw, startRetiring_inflight, ha, hold]
  · rw [ha, withCur, ARec.ans_setC, ARec.length_setAn]; exact hi
  · rw [ha, hold]; exact hv
  · rw [ha, hold]; exact hr
  · rw [ha, hold]; exact hz

section
variable {q : OrdReq} {s : State} {a cur next nv : Nat} (hf : FreeRecord s a) (hq : q.arg 0 = a) (hs : q.arg 1 = cur + 4 * next + 16 * nv)
  (hcur : cur < 4) (hnext : next < 4) (hnv : nv < 2) (hdir : (arec s a).c AC.DIR = 0) (hv : ((arec s a).an cur).valid = true)
  (hn : nv = 1 → ((arec s a).an next).valid = true)
include hf hq hs hcur hnext hnv hdir hv hn

/-- A selection of installed ANs on a transmit record is taken. -/
theorem anSelectBody_fits : anSelectBody q s = ordOk (storeRecord a (if cur = (arec s a).c AC.CUR_AN then setArec a (withNext (arec s a) next nv) s
    else switchAn a cur (setArec a (withNext (arec s a) next nv) s))) := by
  have e1 : nbits (q.arg 1) 0 2 = cur := by rw [hs, nbits]; omega
  have e2 : nbits (q.arg 1) 2 2 = next := by rw [hs, nbits]; omega
  have e3 : nbits (q.arg 1) 4 1 = nv := by rw [hs, nbits]; omega
  have hno : ¬ (isTubRec s a = true ∨ (arec s a).c AC.DIR = 1 ∨ 32 ≤ q.arg 1 ∨ (!((arec s a).an cur).valid) = true ∨ (nv = 1 ∧ (!((arec s a).an next).valid) = true)) := by
    rw [hf.plain, hdir, hs, hv]
    rintro (h | h | h | h | ⟨h, h'⟩)
    · cases h
    · cases h
    · omega
    · cases h
    · rw [hn h] at h'; cases h'
  unfold anSelectBody
  rw [onRecord_free hq hf]
  simp only [hq, e1, e2, e3]
  rw [if_neg hno]
  rfl

theorem anSelectBody_same (h : cur = (arec s a).c AC.CUR_AN) :
    ∃ u, anSelectBody q s = (.done St.OK [], u) ∧ RecordsStored s u ∧ RecordBut a s u ∧ arec u a = withNext (arec s a) next nv := by
  refine ⟨setRecord a (withNext (arec s a) next nv) s, ?_, setRecord_stored .., setRecord_recordBut _ _ _, arec_setRecord_same ..⟩
  rw [anSelectBody_fits hf hq hs hcur hnext hnv hdir hv hn, if_pos h]
  rfl

theorem anSelectBody_switch {old : Nat} (ho : old = (arec s a).c AC.CUR_AN) (hne : cur ≠ old) (hov : ((arec s a).an old).valid = true)
    (hor : ((arec s a).an old).retiring = false) (hoz : ((arec s a).an old).inflight ≠ 0) (hst : (arec s a).c AC.STATE = 1) :
    ∃ u, anSelectBody q s = (.done St.OK [], u) ∧ ∃ v x, Raised Ev.KEY_SWITCHED [a, cur, ((arec s a).an cur).nextPn] { s with assoc := x } v ∧ RecordsStored v u ∧
      RecordBut a s u ∧ arec u a = (withCur (withNext (arec s a) next nv) cur).setAn old { (arec s a).an old with retiring := true } := by
  obtain ⟨-, -, hc, hc'⟩ := withNext_c (arec s a) next nv hnext hnv
  have h4 : old < (arec s a).ans.length := by rw [hf.four, ho]; exact Nat.mod_lt _ (by decide)
  have hw : arec (setArec a (withNext (arec s a) next nv) s) a = withNext (arec s a) next nv := arec_setArec_same ..
  obtain ⟨v, hR, hsw⟩ := switchAn_running (s := setArec a (withNext (arec s a) next nv) s) (a := a) (cur := cur) (old := old)
    (by rw [hw, hc]; exact ho) (Ne.symm hne) (by rw [hw]; exact h4) (by rw [hw]; exact hov) (by rw [hw]; exact hor) (by rw [hw]; exact hoz) (by rw [hw, hc']; exact hst)
  rw [hw] at hR hsw
  have hva : arec v a = withCur (withNext (arec s a) next nv) cur := by rw [arec_congr hR.1.assoc, arec_setArec_same]
  have hvb : RecordBut a s v := ((setArec_recordBut a _ s).trans (setArec_recordBut a _ _)).trans (.of_assoc a hR.1.assoc)
  refine ⟨storeRecord a (setAnOf a old { (arec s a).an old with retiring := true } v), ?_, v, _, hR,
    (setAnOf_stored ..).trans (storeRecord_touched a _).stored, (hvb.trans (setAnOf_recordBut _ _ _ _)).trans (.of_assoc a (storeRecord_touched a _).assoc), ?_⟩
  · rw [anSelectBody_fits hf hq hs hcur hnext hnv hdir hv hn, if_neg (ho ▸ hne), hsw]
    rfl
  · rw [arec_storeRecord, arec_setAnOf_same, hva]

end

/-! AN_RETIRE (R54, R57) -/

section
variable {q : OrdReq} {s : State} {a i : Nat} (hf : FreeRecord s a) (hq : q.arg 0 = a) (hi : q.arg 1 = i) (h4 : i < 4)
include hf hq hi h4

/-- An entry that holds no SA and has nothing in flight is as the order wants it. -/
theorem anRetireBody_idle (hv : ((arec s a).an i).valid = false) (hz : ((arec s a).an i).inflight = 0) : anRetireBody q s = (.done St.OK [], s) := by
  unfold anRetireBody
  rw [onRecord_free hq hf]
  simp only [hq, hi, hv, hz, Nat.not_le.2 h4, if_false, Bool.not_false, and_self, if_true]
  rfl

/-- An SA with frames in flight begins to retire, a receive SA loses VALID at once, and the order waits with its claim on the record. -/
theorem anRetireBody_inflight (hn : (arec s a).c AC.NEXT_VALID = 0 ∨ (arec s a).c AC.DIR = 1) (hv : ((arec s a).an i).valid = true)
    (hr : ((arec s a).an i).retiring = false) (hz : ((arec s a).an i).inflight ≠ 0) :
    ∃ u, anRetireBody q s = (.wait, addClaim (q.claim (.record a)) u) ∧ RecordsStored s u ∧ RecordBut a s u ∧ u.fore = s.fore ∧
      arec u a = (arec s a).setAn i { (arec s a).an i with valid := (arec s a).c AC.DIR == 0, retiring := true } := by
  have hl : i < (arec s a).ans.length := by rw [hf.four]; exact h4
  have hno : ¬ ((arec s a).c AC.NEXT_VALID = 1 ∧ (arec s a).c AC.NEXT_AN = i ∧ (arec s a).c AC.DIR = 0 ∧ (!isTubRec s a) = true) := by
    rintro ⟨h1, -, h0, -⟩
    rcases hn with h | h <;> omega
  have hw : arec (setArec a (arec s a) s) a = arec s a := arec_setArec_same ..
  have hst : startRetiring a i (setArec a (arec s a) s) = setAnOf a i { (arec s a).an i with retiring := true } (setArec a (arec s a) s) := by
    rw [startRetiring_inflight (by rw [hw]; exact hl) (by rw [hw]; exact hv) (by rw [hw]; exact hr) (by rw [hw]; exact hz), hw]
  have hre : retireEnt a i s = setAnOf a i { (arec s a).an i with valid := (arec s a).c AC.DIR == 0, retiring := true }
      (setAnOf a i { (arec s a).an i with retiring := true } (setArec a (arec s a) s)) := by
    unfold retireEnt
    simp only [if_neg hno, hst, arec_setAnOf_same, hw, ARec.an_setAn_same _ _ hl, hv, Bool.true_and]
  have hu : arec (storeRecord a (retireEnt a i s)) a = (arec s a).setAn i { (arec s a).an i with valid := (arec s a).c AC.DIR == 0, retiring := true } := by
    rw [arec_storeRecord, hre, arec_setAnOf_same, arec_setAnOf_same, hw, ARec.setAn_setAn]
  refine ⟨storeRecord a (retireEnt a i s), ?_, ?_, ?_, by rw [(storeRecord_touched a _).fore, hre]; rfl, hu⟩
  · unfold anRetireBody
    rw [onRecord_free hq hf]
    simp only [hq, hi, hv, hu, ARec.an_setAn_same _ _ hl, hz, Nat.not_le.2 h4, if_false, Bool.not_true, Bool.false_eq_true, false_and]
  · rw [hre]
    exact (((setArec_stored ..).trans (setAnOf_stored ..)).trans (setAnOf_stored ..)).trans (storeRecord_touched a _).stored
  · rw [hre]
    exact (((setArec_recordBut _ _ _).trans (setAnOf_recordBut _ _ _ _)).trans (setAnOf_recordBut _ _ _ _)).trans (.of_assoc a (storeRecord_touched a _).assoc)

end

/-! ASSOC_READ and ASSOC_COUNTERS (R51, R65) -/

/-- Writing bytes into cells of its own ends an order with its results. -/
theorem ordWrite_ok {q : OrdReq} {cell : Nat} {b : Bytes} {s : State} (rs : List (Nat × W64)) (hc : ordCellsOk q s cell b.length = true) (hw : (cellWrite cell b s).1 = true) :
    ordWrite q cell b rs s = (.done St.OK rs, (cellWrite cell b s).2) := by
  unfold ordWrite
  simp only [hc, hw, if_true]

theorem writeCell_good_assoc (a : Nat) (b : Bytes) (s : State) : (writeCell a b .good s).2.assoc = s.assoc := by
  have hm := (mayWrite_touched (a / 256) b.length s).assoc
  unfold writeCell
  dsimp only
  split
  · exact (touchCell_good_touched _ _ _ _).assoc.trans hm
  · exact hm
theorem writeRange_good_assoc (fuel a : Nat) (b : Bytes) (s : State) : (writeRange fuel a b .good s).2.assoc = s.assoc := by
  induction fuel generalizing a b s with
  | zero => rfl
  | succ n ih =>
    have h := writeCell_good_assoc a (b.take (256 - a % 256)) s
    unfold writeRange
    split
    · rfl
    · dsimp only
      split
      · exact (ih _ _ _).trans h
      · exact h
/-- A write into landing cells leaves every record. -/
theorem cellWrite_assoc (cell : Nat) (b : Bytes) (s : State) : (cellWrite cell b s).2.assoc = s.assoc := writeRange_good_assoc _ _ _ _

theorem assocReadBody_ok {q : OrdReq} {s : State} {a : Nat} (hf : FreeRecord s a) (hq : q.arg 0 = a) (he : q.ecc ≠ .bad)
    (hr : (readCells [recordAt a / 256, mapWordAt a / 256] q.ecc s).1 = true)
    (hc : ordCellsOk q s (q.arg 1) (recordBytes s a ++ (arec s a).ans.flatMap (fun e => natBe 4 e.map.toNat)).length = true)
    (hw : (cellWrite (q.arg 1) (recordBytes s a ++ (arec s a).ans.flatMap (fun e => natBe 4 e.map.toNat)) s).1 = true) :
    assocReadBody q s = (.done St.OK [], setArec a { arec s a with maxLag := 0 }
      (cellWrite (q.arg 1) (recordBytes s a ++ (arec s a).ans.flatMap (fun e => natBe 4 e.map.toNat)) s).2) := by
  have hd := ordWrite_ok [] hc hw
  rw [St.OK] at hd
  unfold assocReadBody
  rw [onRecord_free hq hf]
  simp only [hq, readCells_ok he hr, Bool.not_true, Bool.false_eq_true, if_false, hd, arec_congr (cellWrite_assoc _ _ _), St.OK]

theorem assocCountersBody_ok {q : OrdReq} {s : State} {a : Nat} (hf : FreeRecord s a) (hq : q.arg 0 = a) (hc : ordCellsOk q s (q.arg 1) (counterBytes (arec s a)).length = true)
    (hw : (cellWrite (q.arg 1) (counterBytes (arec s a)) s).1 = true) :
    assocCountersBody q s = (.done St.OK [], (cellWrite (q.arg 1) (counterBytes (arec s a)) s).2) := by
  unfold assocCountersBody
  rw [hq, if_neg (Nat.not_le.2 hf.lt), ordWrite_ok [] hc hw]

end Sys2Proof.Machine
end

section
/-! PROOFS. The statement on the orders on association records, a lemma for each clause's command. -/
namespace Sys2Proof.Machine

theorem RecordBut.of_begun {q : OrdReq} {s u : State} {a : Nat} (h : RecordBut a (begun q s) u) : RecordBut a s u :=
  fun b hb => (h b hb).trans (begun_arec q s b)

section
variable {o : OrdBy} {s : State} {assoc : W64} {a : Nat} {q : OrdReq} (ha : a = assoc.toNat) (hf : FreeRecord s a) (hacc : Accepted q s)
include ha hf hacc

section
variable {cell : W64} {b : Bytes} (hq : q = ordered 0x410 o [assoc, cell] s) (hr : ordRead q s cell.toNat 272 = some b)
include hq hr

omit hf hacc in
/-- What an ASSOC_WRITE finds when its body begins. -/
theorem assocWrite_args : q.arg 0 = a ∧ q.src ≠ 2 ∧ ordRead q (begun q s) (q.arg 1) 272 = some b := by
  have h1 : q.arg 1 = cell.toNat := by rw [hq, ordered_arg]; rfl
  refine ⟨?_, ?_, ?_⟩
  · rw [hq, ordered_arg, ha]; rfl
  · rw [hq]; exact ordered_src_ne _ _ _ _
  · rw [h1, begun_ordRead, hr]

theorem assocWrite_unfit (h : assocFits false (assocParts false b) = false) : exec (.assocWrite o assoc cell) s = .next (orderEnds q St.UNSUPPORTED [] (begun q s)) := by
  obtain ⟨h0, hsrc, hread⟩ := assocWrite_args ha hq hr
  have hb := assocWriteBody_unfit (hf.begun q) h0 hsrc hread h
  subst hq
  exact congrArg _ (orderRow_done hacc hb)

theorem assocWrite_busy (h : assocFits false (assocParts false b) = true) (hm : assocMoves false (arec s a) (assocParts false b) = true) (hu : (arec s a).used = true) :
    exec (.assocWrite o assoc cell) s = .next (answer q.t q.rd (busyWord (noHolder (.record a))) [] (begun q s)) := by
  obtain ⟨h0, hsrc, hread⟩ := assocWrite_args ha hq hr
  have hb := assocWriteBody_busy (hf.begun q) h0 hsrc hread h (by rw [begun_arec]; exact hm) (by rw [begun_arec]; exact hu)
  subst hq
  exact congrArg _ (orderRow_busy hacc hb)

theorem assocWrite_unused (h : assocFits false (assocParts false b) = true) (hu : (arec s a).used = false) (hm : (arec s a).memBad = false) :
    Completes (.assocWrite o assoc cell) s (fun t => ∃ u, t = orderEnds q (if mapOpen s a then St.OK else St.ABORTED) [] u ∧ RecordsStored (begun q s) u ∧ RecordBut a s u ∧
      arec u a = rewrittenRec b (arec s a) (if mapOpen s a then putMaps b (arec s a).ans else (arec s a).ans)) := by
  have hmap : mapOpen (begun q s) a = mapOpen s a := begun_mayWrite_part _ _ _ (by decide)
  obtain ⟨h0, hsrc, hread⟩ := assocWrite_args ha hq hr
  obtain ⟨u, e, hs, hb, hw⟩ := assocWriteBody_unused (hf.begun q) h0 hsrc hread h (by rw [begun_arec]; exact hu) (by rw [begun_arec]; exact hm)
  rw [hmap] at e hw
  rw [begun_arec] at hw
  subst hq
  exact orderRow_ends hacc ⟨u, e, hs, hb.of_begun, hw⟩

end

section
variable {an slot pn lowest ssci saltCell : W64} (hq : q = ordered 0x411 o [assoc, an, slot, pn, lowest, ssci, saltCell] s)
include hq

theorem anInstall_unfit (h : pn = 0 ∨ ((arec s a).c AC.DIR = 1 ∧ pn.toNat < lowest.toNat)) :
    exec (.anInstall o assoc an slot pn lowest ssci saltCell) s = .next (orderEnds q St.UNSUPPORTED [] (begun q s)) := by
  have hn : installFits false (arec s a) pn.toNat lowest.toNat slot.toNat = false := by
    unfold installFits
    rcases h with rfl | ⟨hd, hlt⟩
    · simp
    · simp [hd, Nat.not_le.2 hlt]
  have h0 : q.arg 0 = a := by rw [hq, ordered_arg, ha]; rfl
  have hb := anInstallBody_unfit (hf.begun q) h0 (by rw [begun_arec, hq, ordered_arg, ordered_arg, ordered_arg]; exact hn)
  subst hq
  exact congrArg _ (orderRow_done hacc hb)

theorem anInstall_free {i salt : Nat} (hi : i = an.toNat) (h4 : i < 4) (hp : portInstalls s a = true)
    (hn : installFits false (arec s a) pn.toNat lowest.toNat slot.toNat = true) (hs : installSalt s q false = some salt)
    (hv : ((arec s a).an i).valid = false) (hz : ((arec s a).an i).inflight = 0) (hm : mapOpen s a = true) :
    Completes (.anInstall o assoc an slot pn lowest ssci saltCell) s (fun t => ∃ u,
      t = orderEnds q St.OK [(23, BitVec.ofNat 64 (twinF s Fd.TWN_STATUS_ROLE_EPOCH))] u ∧ RecordsStored (begun q s) u ∧ RecordBut a s u ∧
      arec u a = installState ((arec s a).setAn i (installEnt s q false salt)) i) := by
  have h0 : q.arg 0 = a := by rw [hq, ordered_arg, ha]; rfl
  have h1 : q.arg 1 = i := by rw [hq, ordered_arg, hi]; rfl
  have hfit : installFits false (arec s a) (q.arg 3) (q.arg 4) (q.arg 2) = true := by
    rw [hq, ordered_arg, ordered_arg, ordered_arg]; exact hn
  obtain ⟨u, e, hst, hb, hw⟩ := anInstallBody_free (s := begun q s) (salt := salt) (hf.begun q) h0 h1 h4 (by rw [begun_portInstalls]; exact hp)
    (by rw [begun_arec]; exact hfit) (by rw [begun_installSalt]; exact hs) (by rw [begun_arec]; exact hv) (by rw [begun_arec]; exact hz)
    ((begun_mayWrite_part q s _ (by decide)).trans hm)
  rw [begun_twinF] at e
  rw [installEnt_plain salt h0, begun_arec, ← installEnt_plain salt h0] at hw
  subst hq
  exact orderRow_ends hacc ⟨u, e, hst, hb.of_begun, hw⟩

end

section
variable {sel : W64} {cur next nv : Nat} (hq : q = ordered 0x412 o [assoc, sel] s) (hsel : sel.toNat = cur + 4 * next + 16 * nv) (hcur : cur < 4) (hnext : next < 4)
  (hnv : nv < 2) (hdir : (arec s a).c AC.DIR = 0) (hv : ((arec s a).an cur).valid = true) (hn : nv = 1 → ((arec s a).an next).valid = true)
include hq hsel hcur hnext hnv hdir hv hn

theorem anSelect_same (h : cur = (arec s a).c AC.CUR_AN) :
    Completes (.anSelect o assoc sel) s (fun t => ∃ u, t = orderEnds q St.OK [] u ∧ RecordsStored (begun q s) u ∧ RecordBut a s u ∧
      arec u a = withNext (arec s a) next nv) := by
  have h0 : q.arg 0 = a := by rw [hq, ordered_arg, ha]; rfl
  have h1 : q.arg 1 = cur + 4 * next + 16 * nv := by rw [hq, ordered_arg, ← hsel]; rfl
  have hr := begun_arec q s a
  obtain ⟨u, e, hst, hb, hw⟩ := anSelectBody_same (hf.begun q) h0 h1 hcur hnext hnv (by rw [hr]; exact hdir) (by rw [hr]; exact hv) (by rw [hr]; exact hn) (by rw [hr]; exact h)
  rw [hr] at hw
  subst hq
  exact orderRow_ends hacc ⟨u, e, hst, hb.of_begun, hw⟩

theorem anSelect_switch {old : Nat} (ho : old = (arec s a).c AC.CUR_AN) (hne : cur ≠ old) (hov : ((arec s a).an old).valid = true)
    (hor : ((arec s a).an old).retiring = false) (hoz : ((arec s a).an old).inflight ≠ 0) (hst : (arec s a).c AC.STATE = 1) :
    Completes (.anSelect o assoc sel) s (fun t => ∃ u, t = orderEnds q St.OK [] u ∧
      ∃ v x, Raised Ev.KEY_SWITCHED [a, cur, ((arec s a).an cur).nextPn] { begun q s with assoc := x } v ∧ RecordsStored v u ∧ RecordBut a s u ∧
      arec u a = (withCur (withNext (arec s a) next nv) cur).setAn old { (arec s a).an old with retiring := true }) := by
  have h0 : q.arg 0 = a := by rw [hq, ordered_arg, ha]; rfl
  have h1 : q.arg 1 = cur + 4 * next + 16 * nv := by rw [hq, ordered_arg, ← hsel]; rfl
  have hr := begun_arec q s a
  obtain ⟨u, e, v, x, hR, hs, hb, hw⟩ := anSelectBody_switch (hf.begun q) h0 h1 hcur hnext hnv (by rw [hr]; exact hdir) (by rw [hr]; exact hv) (by rw [hr]; exact hn)
    (by rw [hr]; exact ho) hne (by rw [hr]; exact hov) (by rw [hr]; exact hor) (by rw [hr]; exact hoz) (by rw [hr]; exact hst)
  rw [hr] at hR hw
  subst hq
  exact orderRow_ends hacc ⟨u, e, v, x, hR, hs, hb.of_begun, hw⟩

end

section
variable {an : W64} {i : Nat} (hq : q = ordered 0x413 o [assoc, an] s) (hi : i = an.toNat) (h4 : i < 4)
include hq hi h4

theorem anRetire_idle (hv : ((arec s a).an i).valid = false) (hz : ((arec s a).an i).inflight = 0) :
    exec (.anRetire o assoc an) s = .next (orderEnds q St.OK [] (begun q s)) := by
  have h0 : q.arg 0 = a := by rw [hq, ordered_arg, ha]; rfl
  have h1 : q.arg 1 = i := by rw [hq, ordered_arg, hi]; rfl
  have hb := anRetireBody_idle (hf.begun q) h0 h1 h4 (by rw [begun_arec]; exact hv) (by rw [begun_arec]; exact hz)
  subst hq
  exact congrArg _ (orderRow_done hacc hb)

theorem anRetire_inflight (hn : (arec s a).c AC.NEXT_VALID = 0 ∨ (arec s a).c AC.DIR = 1) (hv : ((arec s a).an i).valid = true)
    (hr : ((arec s a).an i).retiring = false) (hz : ((arec s a).an i).inflight ≠ 0) :
    Completes (.anRetire o assoc an) s (fun t => ∃ u, RecordsStored (begun q s) u ∧ RecordBut a s u ∧
      t = waiting q { u with fore := { u.fore with claims := q.claim (.record a) :: s.fore.claims } } ∧
      arec u a = (arec s a).setAn i { (arec s a).an i with valid := (arec s a).c AC.DIR == 0, retiring := true }) := by
  have h0 : q.arg 0 = a := by rw [hq, ordered_arg, ha]; rfl
  have h1 : q.arg 1 = i := by rw [hq, ordered_arg, hi]; rfl
  have hra := begun_arec q s a
  obtain ⟨u, e, hs, hb, hfo, hw⟩ := anRetireBody_inflight (hf.begun q) h0 h1 h4 (by rw [hra]; exact hn) (by rw [hra]; exact hv) (by rw [hra]; exact hr) (by rw [hra]; exact hz)
  rw [hra] at hw
  have hclaims : u.fore.claims = s.fore.claims := by rw [hfo, begun_claims]
  subst hq
  refine ⟨waiting _ (addClaim _ u), congrArg _ (orderRow_wait hacc e), u, hs, hb.of_begun, ?_, hw⟩
  rw [addClaim, hclaims]

end

theorem assocRead_ok {cell : W64} (hq : q = ordered 0x414 o [assoc, cell] s) (he : o.ecc ≠ .bad) (hr : (readCells [recordAt a / 256, mapWordAt a / 256] o.ecc s).1 = true)
    (hc : ordCellsOk q s cell.toNat (recordBytes s a ++ (arec s a).ans.flatMap (fun e => natBe 4 e.map.toNat)).length = true)
    (hw : (cellWrite cell.toNat (recordBytes s a ++ (arec s a).ans.flatMap (fun e => natBe 4 e.map.toNat)) (begun q s)).1 = true) :
    exec (.assocRead o assoc cell) s = .next (orderEnds q St.OK [] (setArec a { arec s a with maxLag := 0 }
      (cellWrite cell.toNat (recordBytes s a ++ (arec s a).ans.flatMap (fun e => natBe 4 e.map.toNat)) (begun q s)).2)) := by
  have h0 : q.arg 0 = a := by rw [hq, ordered_arg, ha]; rfl
  have h1 : q.arg 1 = cell.toNat := by rw [hq, ordered_arg]; rfl
  have hecc : q.ecc = o.ecc := by rw [hq, ordered_ecc]
  have hb := assocReadBody_ok (hf.begun q) h0 (by rw [hecc]; exact he) (by rw [begun_readCells, hecc]; exact hr)
  rw [h1, begun_ordCellsOk, begun_recordBytes, begun_arec] at hb
  subst hq
  exact congrArg _ (orderRow_done hacc (hb hc hw))

theorem assocCounters_ok {cell : W64} (hq : q = ordered 0x415 o [assoc, cell] s) (hc : ordCellsOk q s cell.toNat (counterBytes (arec s a)).length = true)
    (hw : (cellWrite cell.toNat (counterBytes (arec s a)) (begun q s)).1 = true) :
    exec (.assocCounters o assoc cell) s = .next (orderEnds q St.OK [] (cellWrite cell.toNat (counterBytes (arec s a)) (begun q s)).2) := by
  have h0 : q.arg 0 = a := by rw [hq, ordered_arg, ha]; rfl
  have h1 : q.arg 1 = cell.toNat := by rw [hq, ordered_arg]; rfl
  have hb := assocCountersBody_ok (hf.begun q) h0
  rw [h1, begun_ordCellsOk, begun_arec] at hb
  subst hq
  exact congrArg _ (orderRow_done hacc (hb hc hw))

end

/-- Settles O21, an order at a time: the accepted order runs its body on the state it begins from, where the record is the same free record. -/
theorem assocOrders : Obligations.AssocOrders := by
  intro o s assoc a r ha hr h20 hclaim h4 hplain
  subst hr
  have hf : FreeRecord s a := ⟨h20, hclaim, h4, hplain⟩
  refine ⟨?write, ?install, ?unfit, ?select, ?retire, ?read, ?counters⟩
  case write =>
    intro cell b q w hacc hread
    exact ⟨assocWrite_unfit ha hf hacc rfl hread, assocWrite_busy ha hf hacc rfl hread, assocWrite_unused ha hf hacc rfl hread⟩
  case install =>
    intro an slot pn lowest ssci saltCell i salt hi q hacc hi4 hp hn hs hv hz hm
    obtain ⟨t, ht, u, e, hst, hb, hw⟩ := anInstall_free ha hf hacc rfl hi hi4 hp hn hs hv hz hm
    obtain ⟨hans, hstate, hctrl⟩ := installState_ctrl ((arec s a).setAn i (installEnt s q false salt)) i
    have hne : ∀ j, j ≠ i → (arec u a).an j = (arec s a).an j := fun j hj => by
      rw [hw, ARec.an, hans]; exact ARec.an_setAn_ne _ _ hj
    have hent : (arec u a).an i = installEnt s q false salt := by
      rw [hw, ARec.an, hans]; exact ARec.an_setAn_same _ _ (by rw [h4]; exact hi4)
    rw [installEnt_plain (a := a) salt (by rw [ordered_arg, ha]; rfl)] at hent
    simp only [q, ordered_arg] at hent
    refine ⟨t, ht, u, e, hst, hb, hne, ?_⟩
    rw [hent]
    refine ⟨rfl, rfl, rfl, rfl, rfl, rfl, fun h => ?_, fun h => ?_, rfl, rfl, fun h => ?_, fun h => ?_⟩
    · simp [h]
    · simp [h]
    · rw [hw]; exact hstate h
    · rw [hw]; exact hctrl h
  case unfit =>
    intro an slot pn lowest ssci saltCell q hacc h
    exact anInstall_unfit ha hf hacc rfl h
  case select =>
    intro sel cur next nv hsel hcur hnext hnv q hacc hdir hv hn
    obtain ⟨hNext, hValid, hCur, -⟩ := withNext_c (arec s a) next nv hnext hnv
    refine ⟨fun h => ?_, fun old ho hne hov hor hoz hst => ?_⟩
    · obtain ⟨t, ht, u, e, hs, hb, hw⟩ := anSelect_same ha hf hacc rfl hsel hcur hnext hnv hdir hv hn h
      exact ⟨t, ht, u, e, hs, hb, by rw [hw]; exact hNext, by rw [hw]; exact hValid, by rw [hw, hCur, h], by rw [hw]; rfl⟩
    · obtain ⟨t, ht, u, e, v, x, hR, hs, hb, hw⟩ := anSelect_switch ha hf hacc rfl hsel hcur hnext hnv hdir hv hn ho hne hov hor hoz hst
      obtain ⟨hCur', hNext', hValid'⟩ := withCur_c (withNext (arec s a) next nv) cur hcur
      have hold : old < 4 := by rw [ho]; exact Nat.mod_lt _ (by decide)
      refine ⟨t, ht, u, v, x, e, hR, hs, hb, ?_⟩
      rw [hw]
      refine ⟨hCur', hNext'.trans hNext, hValid'.trans hValid, ?_, ?_, fun j hj hj' => ?_⟩
      · rw [ARec.an_setAn_same _ _ (by rw [withCur, ARec.ans_setC, ARec.length_setAn]; exact h4.symm ▸ hold)]
      · rw [ARec.an_setAn_ne _ _ hne, withCur, ARec.an_setC, ARec.an_setAn_same _ _ (h4.symm ▸ hcur)]
      · rw [ARec.an_setAn_ne _ _ hj, withCur, ARec.an_setC, ARec.an_setAn_ne _ _ hj']
        rfl
  case retire =>
    intro an i hi q hacc hi4 hn
    refine ⟨fun hv hr hz hd => ?_, fun hv hr hz hd _ => ?_, anRetire_idle ha hf hacc rfl hi hi4⟩
    · obtain ⟨t, ht, u, hs, hb, e, hw⟩ := anRetire_inflight ha hf hacc rfl hi hi4 hn hv hr hz
      exact ⟨t, ht, u, hs, hb, e, by rw [hw, hd]; rfl⟩
    · obtain ⟨t, ht, u, hs, hb, e, hw⟩ := anRetire_inflight ha hf hacc rfl hi hi4 hn hv hr hz
      exact ⟨t, ht, u, hs, hb, e, by simp [hw, hd, hv]⟩
  case read =>
    intro cell q b hacc he hr hc hw
    exact assocRead_ok ha hf hacc rfl he hr hc hw
  case counters =>
    intro cell q hacc hc hw
    exact assocCounters_ok ha hf hacc rfl hc hw

end Sys2Proof.Machine
end

section
/-! PROOFS. The statement on acquisition (O45): a candidate that a tracker waits for writes its lane back as it stands, which leaves the state as it was where the lanes' table is in its canonical form, and only there. -/
namespace Sys2Proof.Machine

/-! A sparse table with an entry written back -/

section
variable {α : Type} {t : Table α} {k : Nat}

/-- A key below all those stored is not stored. -/
theorem tget_below (d : Nat → α) {n : Nat} (h : tsorted (some n) t = true) (hk : k ≤ n) : tget d t k = d k := by
  induction t generalizing n with
  | nil => rfl
  | cons e t ih =>
    simp only [tsorted, Bool.and_eq_true, decide_eq_true_eq] at h
    rw [tget, if_neg (by omega), ih h.2 (by omega)]

theorem tdel_below {n : Nat} (h : tsorted (some n) t = true) (hk : k ≤ n) : tdel t k = t := by
  induction t generalizing n with
  | nil => rfl
  | cons e t ih =>
    simp only [tsorted, Bool.and_eq_true, decide_eq_true_eq] at h
    rw [tdel, if_neg (by omega), ih h.2 (by omega)]

theorem tins_below {v : α} (h : tsorted (some k) t = true) : tins t k v = (k, v) :: t := by
  cases t with
  | nil => rfl
  | cons e t =>
    simp only [tsorted, Bool.and_eq_true, decide_eq_true_eq] at h
    rw [tins, if_pos (by omega)]

/-- Writing an entry back as it reads leaves a canonical table as it was. -/
theorem tput_tget_of_wf [DecidableEq α] (d : Nat → α) (k : Nat) (h : Table.wf d t = true) : tput d t k (tget d t k) = t := by
  induction t with
  | nil => rw [tget, tput, if_pos rfl, tdel]
  | cons e t ih =>
    simp only [Table.wf, tsorted, Bool.true_and, List.all_cons, Bool.and_eq_true, decide_eq_true_eq] at h ih
    obtain ⟨hs, he, ht⟩ := h
    by_cases hk : e.1 = k
    · subst hk
      rw [tget, if_pos rfl, tput, if_neg he, tdel, if_pos rfl, tdel_below hs (Nat.le_refl _), tins_below hs]
    · have ih' := ih ⟨tsorted_none_of_some hs, ht⟩
      rw [tget, if_neg hk]
      unfold tput at ih' ⊢
      rw [tdel, if_neg hk]
      split
      · next hd => rw [if_pos hd] at ih'; rw [ih']
      · next hd =>
        have hlt : ¬ k ≤ e.1 := fun hle => hd (tget_below d hs hle)
        rw [if_neg hd] at ih'
        rw [tins, if_neg hlt, ih']

end

/-! ALIGN_CANDIDATE at a position where a tracker waits (R76) -/

/-- The alignment word is not that of an inverted pair. -/
theorem hdrInverted_of_hdrAlign {h : Bytes} (ha : hdrAlign h = true) : hdrInverted h = false := by
  rw [hdrAlign, beq_iff_eq] at ha
  rw [hdrInverted, ha]
  decide

theorem candidate_waiting {x : RxLane} {y : Tracker} {pos : Nat} (h : Bytes) (hy : some y ∈ x.trackers) (hn : y.next = pos) : candidate pos h x = x := by
  unfold candidate
  rw [if_pos]
  exact List.any_eq_true.2 ⟨some y, hy, beq_iff_eq.2 hn⟩

/-- The lane is written back as it stands. -/
theorem alignCandidate_waiting {s : State} {l : Fin 32} {pos : Nat} {h : Bytes} {y : Tracker} (hl : laneLive s l.val = true) (hf : (rxLaneOf s l.val).inFrame = false)
    (ha : hdrAlign h = true) (hg : hdrGood h = true) (hy : some y ∈ (rxLaneOf s l.val).trackers) (hn : y.next = pos) :
    exec (.alignCandidate l pos h) s = .next (setRxLane l.val (rxLaneOf s l.val) s) := by
  show execAlignCandidate l pos h s = _
  simp only [execAlignCandidate, onlyIf, hl, hf, hdrInverted_of_hdrAlign ha, ha, hg, candidate_waiting h hy hn, Bool.not_false, Bool.and_self, if_true, Bool.false_eq_true, if_false]

/-- With the lanes in canonical form such a candidate changes nothing: what the fourth clause of O45 wants, with the hypothesis it lacks. -/
theorem alignCandidate_waiting_idles {s : State} {l : Fin 32} {pos : Nat} {h : Bytes} {y : Tracker} (hw : Table.wf rxLane0 s.lfr.lanes = true)
    (ha : hdrAlign h = true) (hg : hdrGood h = true) (hy : some y ∈ (rxLaneOf s l.val).trackers) (hn : y.next = pos) : Idles (.alignCandidate l pos h) s := by
  cases hc : laneLive s l.val && !(rxLaneOf s l.val).inFrame
  · show execAlignCandidate l pos h s = _
    simp only [execAlignCandidate, onlyIf, hc, Bool.false_eq_true, if_false]
  · rw [Bool.and_eq_true, Bool.not_eq_true'] at hc
    have hs : setRxLane l.val (rxLaneOf s l.val) s = s := by
      rw [setRxLane, rxLaneOf, tput_tget_of_wf rxLane0 l.val hw]
    rw [Idles, alignCandidate_waiting hc.1 hc.2 ha hg hy hn, hs]

/-! The refuting state -/

/-- A lane that hunts, with one tracker that waits at bit position 9. -/
def waitingLane : RxLane := { rxLane0 0 with trackers := [some ⟨1, 7, 9⟩, none, none, none] }

/-- A part in Service: line group 7 carries line frames, and trunk 15 receives on lane 31, whose FEC is locked. -/
def lane31Live : State :=
  let s := (State.reset.setFld Reg.PWR_STATUS Fd.PWR_STATUS_MODE 2).setFld (Reg.LAN_GRP_CFG 7) Fd.LAN_GRP_CFG_GROUPING 7
  let s := (s.setFld (Reg.LAN_LANE_STATUS 63) Fd.LAN_LANE_STATUS_FEC_LOCK 1).setFld (Reg.LFR_TRUNK_RXCFG 15) Fd.LFR_TRUNK_RXCFG_EN 1
  s.setReg (Reg.LFR_TRUNK_LANES 15 0) 0x9F

/-- Lane 31 waits, and its entry stands in front of that of lane 30. -/
def lanesFalling : State := { lane31Live with lfr := { lane31Live.lfr with lanes := [(31, waitingLane), (30, waitingLane)] } }

/-- The candidate that lane 31 waits for puts the two entries in order. -/
theorem lanesFalling_candidate :
    exec (.alignCandidate 31 9 (frameHeader 0 15 0 0 0 0 0)) lanesFalling =
      .next { lanesFalling with lfr := { lanesFalling.lfr with lanes := [(30, waitingLane), (31, waitingLane)] } } :=
  alignCandidate_waiting (y := ⟨1, 7, 9⟩) (by decide +kernel) (by decide +kernel) (by decide +kernel) (by decide +kernel) (by decide +kernel) rfl

/-- Refutes O45: its fourth clause asks of every state that a candidate at a tracker's position changes nothing. The model then writes the lane back as it stands, and that write puts in order a table
of lanes whose keys do not rise, so the state is another one, though no lane reads differently. The part itself keeps its lanes in canonical form (they are set to the empty table or by `tput`, see
`tput_wf`), and in that form the clause holds (`alignCandidate_waiting_idles`); the statement has no hypothesis that says so. -/
theorem not_laneAcquisition : ¬ Obligations.LaneAcquisition := by
  unfold Obligations.LaneAcquisition
  intro h
  obtain ⟨hcandidate, -⟩ := h lanesFalling
  obtain ⟨-, -, -, hwaits, -⟩ := hcandidate 31 9 (frameHeader 0 15 0 0 0 0 0)
  have hidle : exec (.alignCandidate 31 9 (frameHeader 0 15 0 0 0 0 0)) lanesFalling = .next lanesFalling :=
    hwaits ⟨1, 7, 9⟩ (by decide +kernel) (by decide +kernel) (by decide +kernel) rfl
  rw [lanesFalling_candidate] at hidle
  have hlanes : [(30, waitingLane), (31, waitingLane)] = [(31, waitingLane), (30, waitingLane)] :=
    congrArg (fun t : State => t.lfr.lanes) (Host.Outcome.next.inj hidle)
  revert hlanes
  decide

end Sys2Proof.Machine
end

section
/-! PROOFS. Words that the gallery orders write: one bit of a set, and bytes read past those already taken. -/
namespace Sys2Proof.Machine

/-- A bit put into a set of numbers is in it, and no other changes: where it was clear, adding it carries nothing. -/
theorem nbit_setNbit_true (n i j : Nat) : nbit (setNbit n i true) j = (decide (j = i) || nbit n j) := by
  unfold nbit setNbit
  cases h : n.testBit i
  · simp only [Bool.false_eq_true, if_false, if_true]
    rw [Nat.add_comm]
    rcases Nat.lt_trichotomy j i with hj | rfl | hj
    · rw [Nat.testBit_two_pow_add_gt hj, decide_eq_false hj.ne, Bool.false_or]
    · rw [Nat.testBit_two_pow_add_eq, h, decide_eq_true rfl]; rfl
    · have hclear : n / 2 ^ i % 2 ≠ 1 := by rw [Nat.testBit_eq_decide_div_mod_eq] at h; exact of_decide_eq_false h
      have habove : (2 ^ i + n) / 2 ^ (i + 1) = n / 2 ^ (i + 1) := by
        rw [Nat.pow_succ, ← Nat.div_div_eq_div_mul, ← Nat.div_div_eq_div_mul, Nat.add_div_left _ (Nat.two_pow_pos i)]
        omega
      obtain ⟨k, rfl⟩ := Nat.exists_eq_add_of_lt hj
      rw [show i + k + 1 = k + (i + 1) by omega, ← Nat.testBit_div_two_pow, habove, Nat.testBit_div_two_pow, decide_eq_false (by omega), Bool.false_or]
  · simp only [if_true]
    by_cases hj : j = i
    · rw [hj, h, Bool.or_true]
    · rw [decide_eq_false hj, Bool.false_or]

theorem slice_drop (b : Bytes) (m off n : Nat) : slice (b.drop m) off n = slice b (m + off) n := by
  induction n generalizing off with
  | zero => rfl
  | succ n ih => rw [slice, slice, ih, List.getD_eq_getElem?_getD, List.getD_eq_getElem?_getD, List.getElem?_drop]; rfl

theorem be_drop (b : Bytes) (m off n : Nat) : be (b.drop m) off n = be b (m + off) n := by rw [be, slice_drop, be]

theorem setFld_regsBut (s : State) (off : Nat) (f : Fld) (v : Nat) : RegsBut [off] s (s.setFld off f v) :=
  fun _ hk => reg_setFld_ne s f v (List.ne_of_not_mem_cons hk)

end Sys2Proof.Machine
end

section
/-! PROOFS. The gallery orders (Table 07.9; R157, R158, R161, R191, R197, R209, R211): what each operation leaves, and what each body does where nothing stands in its way. -/
namespace Sys2Proof.Machine

/-! An image written into an epoch (R209, R211) -/

theorem writeImage_eq (e : Nat) (im : Image) (s : State) :
    writeImage e im s = { s with regs := (writeImage e im s).regs, gal := { s.gal with images := (writeImage e im s).gal.images } } := rfl

@[simp] theorem imageOf_writeImage_same (e : Nat) (im : Image) (s : State) : imageOf (writeImage e im s) e = some im := tget_tput_same none0 s.gal.images e (some im)

theorem imageOf_writeImage_ne {e j : Nat} (im : Image) (s : State) (h : j ≠ e) : imageOf (writeImage e im s) j = imageOf s j :=
  tget_tput_ne none0 s.gal.images (some im) h

theorem nbit_loadedMap_writeImage (e : Nat) (im : Image) (s : State) {j : Nat} (h : j < 4) :
    nbit (loadedMap (writeImage e im s)) j = (decide (j = e) || nbit (loadedMap s) j) := by
  have hmap : loadedMap (writeImage e im s) = setNbit (loadedMap s) e true % 2 ^ 4 := fld_setFld_same s _ _ _ (by decide)
  rw [hmap, ← nbit_setNbit_true, nbit, Nat.testBit_mod_two_pow, decide_eq_true h, Bool.true_and, nbit]

theorem dispatchEpoch_writeImage (e : Nat) (im : Image) (s : State) : dispatchEpoch (writeImage e im s) = dispatchEpoch s :=
  fld_setFld_ne s _ _ _ _ (by decide)

theorem writeImage_regsBut (e : Nat) (im : Image) (s : State) : RegsBut [Reg.GAL_EPOCH] s (writeImage e im s) := setFld_regsBut s _ _ _

/-! Dispatch moved to an epoch (R158) -/

/-- DISPATCH written, and nothing else. -/
def withDispatch (e : Nat) (s : State) : State := s.setFld Reg.GAL_EPOCH Fd.GAL_EPOCH_DISPATCH e

theorem withDispatch_eq (e : Nat) (s : State) : withDispatch e s = { s with regs := (withDispatch e s).regs } := rfl
theorem withDispatch_regsBut (e : Nat) (s : State) : RegsBut [Reg.GAL_EPOCH] s (withDispatch e s) := setFld_regsBut s _ _ _
theorem loadedMap_withDispatch (e : Nat) (s : State) : loadedMap (withDispatch e s) = loadedMap s := fld_setFld_ne s _ _ _ _ (by decide)
theorem dispatchEpoch_withDispatch {e : Nat} (s : State) (h : e < 4) : dispatchEpoch (withDispatch e s) = e :=
  (fld_setFld_same s _ _ _ (by decide)).trans (Nat.mod_eq_of_lt h)

theorem setDispatch_same {e : Nat} {s : State} (h : dispatchEpoch s = e) : setDispatch e s = withDispatch e s := if_pos h

/-- A move to another epoch raises EPOCH_ACTIVE with both epochs and the build of the image. -/
theorem setDispatch_raises {e : Nat} {s : State} (h : dispatchEpoch s ≠ e) :
    Raised Ev.EPOCH_ACTIVE [dispatchEpoch s, e, ((imageOf s e).map (fun im => im.build)).getD 0] (withDispatch e s) (setDispatch e s) := by
  have hset : setDispatch e s = event Ev.EPOCH_ACTIVE [dispatchEpoch s, e, ((imageOf s e).map (fun im => im.build)).getD 0] (withDispatch e s) := by
    have himage : imageOf (s.setFld Reg.GAL_EPOCH Fd.GAL_EPOCH_DISPATCH e) e = imageOf s e := rfl
    unfold setDispatch
    simp only [if_neg h, himage]
    cases imageOf s e <;> rfl
  rw [hset]
  exact event_raised _ _ (by decide)

/-! State words written in a row (R197) -/

@[simp] theorem stateWord_putState_same (i : Nat) (v : W64) (s : State) : stateWord (putState i v s) i = v := tget_tput_same ..
theorem stateWord_putState_ne {i j : Nat} (v : W64) (s : State) (h : j ≠ i) : stateWord (putState i v s) j = stateWord s j := tget_tput_ne _ _ _ h
theorem mem_poison_putState (i j : Nat) (v : W64) (s : State) : j ∈ (putState i v s).gal.poison ↔ j ∈ s.gal.poison ∧ j ≠ i := by
  simp [putState]

/-- State words and their poison change, and nothing else. -/
def StatesTouched (s t : State) : Prop := t = { s with gal := t.gal } ∧ t.gal = { s.gal with state := t.gal.state, poison := t.gal.poison }

theorem StatesTouched.trans {s t u : State} (h : StatesTouched s t) (h' : StatesTouched t u) : StatesTouched s u := by
  obtain ⟨hs, hg⟩ := h
  obtain ⟨hs', hg'⟩ := h'
  exact ⟨by rw [hs', hs], by rw [hg', hg]⟩

theorem putState_touched (i : Nat) (v : W64) (s : State) : StatesTouched s (putState i v s) := ⟨rfl, rfl⟩

/-- The equation of `putStates` at n + 1, by its recursor: the kernel runs out of depth on the equation that Lean generates. -/
theorem putStates_succ (n i : Nat) (b : Bytes) (s : State) :
    putStates (n + 1) i b s = putStates n (i + 1) (b.drop 8) (putState i (BitVec.ofNat 64 (be b 0 8)) s) := by
  delta putStates
  rfl

theorem putStates_touched (n i : Nat) (b : Bytes) (s : State) : StatesTouched s (putStates n i b s) := by
  induction n generalizing i b s with
  | zero => exact ⟨rfl, rfl⟩
  | succ n ih => rw [putStates_succ]; exact (putState_touched _ _ s).trans (ih _ _ _)

theorem stateWord_putStates_ne {n i j : Nat} (b : Bytes) (s : State) (h : j < i ∨ i + n ≤ j) : stateWord (putStates n i b s) j = stateWord s j := by
  induction n generalizing i b s with
  | zero => rfl
  | succ n ih => rw [putStates_succ, ih _ _ (by omega), stateWord_putState_ne _ _ (by omega)]

/-- Each word takes its 8 bytes. -/
theorem stateWord_putStates {n i k : Nat} (b : Bytes) (s : State) (h : k < n) : stateWord (putStates n i b s) (i + k) = BitVec.ofNat 64 (be b (8 * k) 8) := by
  induction n generalizing i k b s with
  | zero => exact absurd h (Nat.not_lt_zero k)
  | succ n ih =>
    rw [putStates_succ]
    cases k with
    | zero => rw [stateWord_putStates_ne _ _ (by omega)]; exact stateWord_putState_same ..
    | succ k => rw [show i + (k + 1) = i + 1 + k by omega, ih _ _ (by omega), be_drop, show 8 + 8 * k = 8 * (k + 1) by omega]

/-- The words written are no longer poisoned, every other is as it was. -/
theorem mem_poison_putStates (n i j : Nat) (b : Bytes) (s : State) : j ∈ (putStates n i b s).gal.poison ↔ j ∈ s.gal.poison ∧ (j < i ∨ i + n ≤ j) := by
  induction n generalizing i b s with
  | zero => exact ⟨fun h => ⟨h, by omega⟩, fun h => h.1⟩
  | succ n ih => rw [putStates_succ, ih, mem_poison_putState, and_assoc]; exact and_congr_right fun _ => by omega

/-! The bodies -/

section
variable {q : OrdReq} {s : State}

theorem progLoadBody_ok {e : Nat} {b : Bytes} (he : q.arg 0 = e) (hb : q.atts.getD (q.arg 1) [] = b) (h4 : e < 4) (hne : b ≠ []) (hr : s.gal.restoring = [])
    (hd : s.gal.draining.any (resetDue s) = false) (hc : claimOn s .store = none) (hn : e ≠ dispatchEpoch s) (hz : epochCount s e = 0)
    (hf : imageFits b = true) (hl : imageLoads (imageFrom b) = true) : progLoadBody q s = (.done St.OK [], writeImage e (imageFrom b) s) := by
  unfold progLoadBody unclaimed
  rw [hc]
  dsimp only
  rw [he, hb, if_neg (by rintro (h | h); exacts [absurd h4 (Nat.not_lt.2 h), hne h]), hr, hd, if_neg (by decide), if_neg (by rintro (h | h); exacts [hn h, h hz]), hf, hl]
  rfl

theorem epochSetBody_loaded {e : Nat} (he : q.arg 0 = e) (h4 : e < 4) (hl : nbit (loadedMap s) e = true) : epochSetBody q s = (.done St.OK [], setDispatch e s) := by
  unfold epochSetBody
  rw [he, hl, if_neg (by rintro (h | h); exacts [absurd h4 (Nat.not_lt.2 h), absurd h (by decide)])]
  rfl

/-- DISPATCH moves to no epoch whose LOADED bit is 0 (R158). -/
theorem epochSetBody_unloaded (h : 4 ≤ q.arg 0 ∨ nbit (loadedMap s) (q.arg 0) = false) : epochSetBody q s = (.done St.UNSUPPORTED [], s) :=
  if_pos (h.imp_right fun h' => by rw [h']; rfl)

theorem galleryResetBody_waits {g : Nat} (hg : q.arg 0 = g) (h64 : g < 64) (hp : nbit (galPresent s) g = true) (hm : s.mode = 2) (hc : claimOn s (.gallery g) = none) :
    galleryResetBody q s = (.wait, { s with
      fore := { s.fore with claims := q.claim (.gallery g) :: s.fore.claims }
      gal := if nbit (s.reg Reg.GAL_ONLINE).toNat g then { s.gal with draining := s.gal.draining ++ [g] } else { s.gal with restoring := s.gal.restoring ++ [g] } }) := by
  have honline : (addClaim (q.claim (.gallery g)) s).reg Reg.GAL_ONLINE = s.reg Reg.GAL_ONLINE := rfl
  unfold galleryResetBody
  simp only [hg, hp, hm, hc, honline, Nat.not_le.2 h64, Bool.not_true, Bool.false_eq_true, ne_eq, not_true, or_false, if_false]
  cases nbit (s.reg Reg.GAL_ONLINE).toNat g <;> rfl

theorem stateAccessBody_read {b : Bytes} (hn : q.arg 1 ≤ 512) (hi : q.arg 0 + q.arg 1 ≤ 2 ^ 18) (h0 : q.arg 3 = 0)
    (hb : (List.range (q.arg 1)).flatMap (fun k => natBe 8 (readState s k (q.arg 0 + k)).toNat) = b) (hc : ordCellsOk q s (q.arg 2) b.length = true)
    (hw : (cellWrite (q.arg 2) b { s with draws := s.draws + q.arg 1 }).1 = true) :
    stateAccessBody q s = (.done St.OK [], (cellWrite (q.arg 2) b { s with draws := s.draws + q.arg 1 }).2) := by
  have hfits : ¬ (512 < q.arg 1 ∨ 2 ^ 18 < q.arg 0 + q.arg 1 ∨ 1 < q.arg 3) := by omega
  unfold stateAccessBody stateReadAll
  rw [if_neg hfits, if_pos h0, hb]
  exact ordWrite_ok [] hc hw

theorem stateAccessBody_write {b : Bytes} (hn : q.arg 1 ≤ 512) (hi : q.arg 0 + q.arg 1 ≤ 2 ^ 18) (h1 : q.arg 3 = 1) (hr : ordRead q s (q.arg 2) (8 * q.arg 1) = some b) :
    stateAccessBody q s = (.done St.OK [], putStates (q.arg 1) (q.arg 0) b s) := by
  have hfits : ¬ (512 < q.arg 1 ∨ 2 ^ 18 < q.arg 0 + q.arg 1 ∨ 1 < q.arg 3) := by omega
  unfold stateAccessBody
  rw [if_neg hfits, if_neg (by omega), hr]
  rfl

theorem pcntReadBody_ok {b : Bytes} (hn : q.arg 1 ≤ 256) (hi : q.arg 0 + q.arg 1 ≤ 131072)
    (hb : (List.range (2 * q.arg 1)).flatMap (fun k => natBe 8 (tget nat0 s.gal.pcnt (2 * q.arg 0 + k))) = b) (hc : ordCellsOk q s (q.arg 2) b.length = true)
    (hw : (cellWrite (q.arg 2) b s).1 = true) : pcntReadBody q s = (.done St.OK [], (cellWrite (q.arg 2) b s).2) := by
  have hfits : ¬ (256 < q.arg 1 ∨ 131072 < q.arg 0 + q.arg 1) := by omega
  unfold pcntReadBody
  rw [if_neg hfits, hb]
  exact ordWrite_ok [] hc hw

end

end Sys2Proof.Machine
end

section
/-! PROOFS. The statement on the gallery orders, a lemma for each clause's command. -/
namespace Sys2Proof.Machine

/-! What these orders find in the state they begin from -/

theorem begun_reg (q : OrdReq) (s : State) (k : Nat) : (begun q s).reg k = s.reg k := by rw [begun_eq]; rfl
theorem begun_gal (q : OrdReq) (s : State) : (begun q s).gal = s.gal := by rw [begun_eq]
theorem begun_draws (q : OrdReq) (s : State) : (begun q s).draws = s.draws := by rw [begun_eq]
theorem begun_mode (q : OrdReq) (s : State) : (begun q s).mode = s.mode := by rw [begun_eq]; rfl
theorem begun_galPresent (q : OrdReq) (s : State) : galPresent (begun q s) = galPresent s := by rw [begun_eq]; rfl
theorem begun_imageOf (q : OrdReq) (s : State) (e : Nat) : imageOf (begun q s) e = imageOf s e := by rw [imageOf, begun_gal, imageOf]
theorem begun_loadedMap (q : OrdReq) (s : State) : loadedMap (begun q s) = loadedMap s := by rw [begun_eq]; rfl
theorem begun_dispatchEpoch (q : OrdReq) (s : State) : dispatchEpoch (begun q s) = dispatchEpoch s := by rw [begun_eq]; rfl
theorem begun_epochCount (q : OrdReq) (s : State) (e : Nat) : epochCount (begun q s) e = epochCount s e := by rw [begun_eq]; rfl
theorem begun_resetDue (q : OrdReq) (s : State) : resetDue (begun q s) = resetDue s := by rw [begun_eq]; rfl
theorem begun_readState (q : OrdReq) (s : State) (k i : Nat) : readState (begun q s) k i = readState s k i := by rw [begun_eq]; rfl

section
variable {o : OrdBy} {s : State}

theorem progLoad_ok {epoch att : W64} {q : OrdReq} {b : Bytes} (hq : q = ordered 0x401 o [epoch, att] s) (hb : q.atts.getD att.toNat [] = b) (hacc : Accepted q s)
    (h4 : epoch.toNat < 4) (hne : b ≠ []) (hr : s.gal.restoring = []) (hd : s.gal.draining.any (resetDue s) = false) (hc : claimOn s .store = none)
    (hn : epoch.toNat ≠ dispatchEpoch s) (hz : epochCount s epoch.toNat = 0) (hf : imageFits b = true) (hl : imageLoads (imageFrom b) = true) :
    exec (.progLoad o epoch att) s = .next (orderEnds q St.OK [] (writeImage epoch.toNat (imageFrom b) (begun q s))) := by
  have h0 : q.arg 0 = epoch.toNat := by rw [hq, ordered_arg]; rfl
  have h1 : q.arg 1 = att.toNat := by rw [hq, ordered_arg]; rfl
  have hbody := progLoadBody_ok (s := begun q s) h0 (by rw [h1]; exact hb) h4 hne (by rw [begun_gal]; exact hr) (by rw [begun_gal, begun_resetDue]; exact hd)
    (by rw [begun_claimOn]; exact hc) (by rw [begun_dispatchEpoch]; exact hn) (by rw [begun_epochCount]; exact hz) hf hl
  subst hq
  exact congrArg _ (orderRow_done hacc hbody)

section
variable {epoch : W64} {q : OrdReq} (hq : q = ordered 0x402 o [epoch] s) (hacc : Accepted q s)
include hq hacc

theorem epochSet_loaded (h4 : epoch.toNat < 4) (hl : nbit (loadedMap s) epoch.toNat = true) :
    exec (.epochSet o epoch) s = .next (orderEnds q St.OK [] (setDispatch epoch.toNat (begun q s))) := by
  have h0 : q.arg 0 = epoch.toNat := by rw [hq, ordered_arg]; rfl
  have hbody := epochSetBody_loaded (s := begun q s) h0 h4 (by rw [begun_loadedMap]; exact hl)
  subst hq
  exact congrArg _ (orderRow_done hacc hbody)

theorem epochSet_unloaded (h : 4 ≤ epoch.toNat ∨ nbit (loadedMap s) epoch.toNat = false) :
    exec (.epochSet o epoch) s = .next (orderEnds q St.UNSUPPORTED [] (begun q s)) := by
  have h0 : q.arg 0 = epoch.toNat := by rw [hq, ordered_arg]; rfl
  have hbody := epochSetBody_unloaded (q := q) (s := begun q s) (by rw [h0, begun_loadedMap]; exact h)
  subst hq
  exact congrArg _ (orderRow_done hacc hbody)

end

theorem galleryReset_waits {g : W64} {q : OrdReq} (hq : q = ordered 0x403 o [g] s) (hacc : Accepted q s) (h64 : g.toNat < 64) (hp : nbit (galPresent s) g.toNat = true)
    (hm : s.mode = 2) (hc : claimOn s (.gallery g.toNat) = none) :
    exec (.galleryReset o g) s = .next (waiting q { begun q s with
      fore := { (begun q s).fore with claims := q.claim (.gallery g.toNat) :: s.fore.claims }
      gal := if nbit (s.reg Reg.GAL_ONLINE).toNat g.toNat then { s.gal with draining := s.gal.draining ++ [g.toNat] } else { s.gal with restoring := s.gal.restoring ++ [g.toNat] } }) := by
  have h0 : q.arg 0 = g.toNat := by rw [hq, ordered_arg]; rfl
  have hbody := galleryResetBody_waits (s := begun q s) h0 h64 (by rw [begun_galPresent]; exact hp) (by rw [begun_mode]; exact hm) (by rw [begun_claimOn]; exact hc)
  rw [begun_claims, begun_reg, begun_gal] at hbody
  subst hq
  exact congrArg _ (orderRow_wait hacc hbody)

section
variable {index words cell : W64} {q : OrdReq} (hacc : Accepted q s) (hn : words.toNat ≤ 512) (hi : index.toNat + words.toNat ≤ 2 ^ 18)
include hacc hn hi

theorem stateAccessRead_ok {b : Bytes} (hq : q = ordered 0x404 o [index, words, cell, 0] s)
    (hb : (List.range words.toNat).flatMap (fun k => natBe 8 (readState s k (index.toNat + k)).toNat) = b) (hc : ordCellsOk q s cell.toNat b.length = true)
    (hw : (cellWrite cell.toNat b { begun q s with draws := s.draws + words.toNat }).1 = true) :
    exec (.stateAccessRead o index words cell) s = .next (orderEnds q St.OK [] (cellWrite cell.toNat b { begun q s with draws := s.draws + words.toNat }).2) := by
  have h0 : q.arg 0 = index.toNat := by rw [hq, ordered_arg]; rfl
  have h1 : q.arg 1 = words.toNat := by rw [hq, ordered_arg]; rfl
  have h2 : q.arg 2 = cell.toNat := by rw [hq, ordered_arg]; rfl
  have h3 : q.arg 3 = 0 := by rw [hq, ordered_arg]; rfl
  have hbody := stateAccessBody_read (q := q) (s := begun q s) (b := b)
  simp only [h0, h1, h2, h3, begun_readState, begun_ordCellsOk, begun_draws] at hbody
  replace hbody := hbody hn hi trivial hb hc hw
  subst hq
  exact congrArg _ (orderRow_done hacc hbody)

theorem stateAccessWrite_ok {b : Bytes} (hq : q = ordered 0x404 o [index, words, cell, 1] s) (hr : ordRead q s cell.toNat (8 * words.toNat) = some b) :
    exec (.stateAccessWrite o index words cell) s = .next (orderEnds q St.OK [] (putStates words.toNat index.toNat b (begun q s))) := by
  have h0 : q.arg 0 = index.toNat := by rw [hq, ordered_arg]; rfl
  have h1 : q.arg 1 = words.toNat := by rw [hq, ordered_arg]; rfl
  have h2 : q.arg 2 = cell.toNat := by rw [hq, ordered_arg]; rfl
  have h3 : q.arg 3 = 1 := by rw [hq, ordered_arg]; rfl
  have hbody := stateAccessBody_write (q := q) (s := begun q s) (b := b)
  simp only [h0, h1, h2, h3, begun_ordRead] at hbody
  replace hbody := hbody hn hi trivial hr
  subst hq
  exact congrArg _ (orderRow_done hacc hbody)

end

theorem pcntRead_ok {first pairs cell : W64} {q : OrdReq} {b : Bytes} (hq : q = ordered 0x405 o [first, pairs, cell] s) (hacc : Accepted q s)
    (hn : pairs.toNat ≤ 256) (hi : first.toNat + pairs.toNat ≤ 131072)
    (hb : (List.range (2 * pairs.toNat)).flatMap (fun k => natBe 8 (tget nat0 s.gal.pcnt (2 * first.toNat + k))) = b) (hc : ordCellsOk q s cell.toNat b.length = true)
    (hw : (cellWrite cell.toNat b (begun q s)).1 = true) : exec (.pcntRead o first pairs cell) s = .next (orderEnds q St.OK [] (cellWrite cell.toNat b (begun q s)).2) := by
  have h0 : q.arg 0 = first.toNat := by rw [hq, ordered_arg]; rfl
  have h1 : q.arg 1 = pairs.toNat := by rw [hq, ordered_arg]; rfl
  have h2 : q.arg 2 = cell.toNat := by rw [hq, ordered_arg]; rfl
  have hbody := pcntReadBody_ok (q := q) (s := begun q s) (b := b)
  simp only [h0, h1, h2, begun_gal, begun_ordCellsOk] at hbody
  replace hbody := hbody hn hi hb hc hw
  subst hq
  exact congrArg _ (orderRow_done hacc hbody)

end

/-- Settles O20, an order at a time: the accepted order runs its body on the state it begins from, where the galleries are as before, and the operation it performs has its laws. -/
theorem galleryOrders : Obligations.GalleryOrders := by
  intro o s
  refine ⟨?load, ?set, ?refused, ?reset, ?read, ?write, ?count⟩
  case load =>
    intro epoch att q e b hacc h4 hne hr hd hc hn hz hf hl
    refine ⟨_, progLoad_ok rfl rfl hacc h4 hne hr hd hc hn hz hf hl, _, rfl, imageOf_writeImage_same .., fun j hj => ?_, fun j hj => ?_, ?_, writeImage_regsBut _ _ _, ?_⟩
    · rw [imageOf_writeImage_ne _ _ hj, begun_imageOf]
    · rw [nbit_loadedMap_writeImage _ _ _ hj, begun_loadedMap]
    · rw [dispatchEpoch_writeImage, begun_dispatchEpoch]
    · rw [← begun_gal q s]; exact writeImage_eq _ _ _
  case set =>
    intro epoch q e hacc h4 hl
    refine ⟨_, epochSet_loaded rfl hacc h4 hl, withDispatch e (begun q s), _, rfl, dispatchEpoch_withDispatch _ h4, ?_, withDispatch_regsBut _ _, withDispatch_eq _ _,
      fun h => ?_, fun h => ?_⟩
    · rw [loadedMap_withDispatch, begun_loadedMap]
    · exact setDispatch_same ((begun_dispatchEpoch q s).trans h)
    · rw [← begun_dispatchEpoch q s] at h ⊢
      rw [← begun_imageOf q s]
      exact setDispatch_raises h
  case refused =>
    intro epoch q hacc h
    exact epochSet_unloaded rfl hacc h
  case reset =>
    intro g q hacc h64 hp hm hc
    exact galleryReset_waits rfl hacc h64 hp hm hc
  case read =>
    intro index words cell q b u hacc hn hi hc hw
    exact stateAccessRead_ok hacc hn hi rfl rfl hc hw
  case write =>
    intro index words cell b q hacc hn hi hr
    obtain ⟨hstate, hgal⟩ := putStates_touched words.toNat index.toNat b (begun q s)
    refine ⟨_, stateAccessWrite_ok hacc hn hi rfl hr, (putStates words.toNat index.toNat b (begun q s)).gal, ?_, ?_, fun k hk => ⟨?_, ?_⟩, fun i hi' => ⟨?_, ?_⟩⟩
    · exact congrArg _ hstate
    · rw [← begun_gal q s]; exact hgal
    · exact stateWord_putStates b _ hk
    · rw [mem_poison_putStates]; omega
    · rw [← begun_gal q s]; exact stateWord_putStates_ne b _ hi'
    · rw [mem_poison_putStates, begun_gal]; exact and_iff_left hi'
  case count =>
    intro first pairs cell q b hacc hn hi hc hw
    exact pcntRead_ok rfl hacc hn hi rfl hc hw

end Sys2Proof.Machine
end

section
/-! PROOFS. The path of a bundle (R173, R174, R185, R202): what a thread's context holds, what a fault leaves, and how the bundle's slots become what its command does. -/
namespace Sys2Proof.Machine

/-! Threads and items after a write -/

@[simp] theorem foreThread_setForeThread_same (k : Nat) (h : Thread) (s : State) : foreThread (setForeThread k h s) k = h := tget_tput_same ..
theorem foreThread_setForeThread_ne {k j : Nat} (h : Thread) (s : State) (hj : j ≠ k) : foreThread (setForeThread k h s) j = foreThread s j := tget_tput_ne _ _ _ hj
@[simp] theorem threadOf_setThread (who : Thr) (h : Thread) (s : State) : threadOf (setThread who h s) who = h := by
  cases who <;> exact tget_tput_same ..
@[simp] theorem itemOf_setThread (who : Thr) (h : Thread) (s : State) (tag : Nat) : itemOf (setThread who h s) tag = itemOf s tag := by cases who <;> rfl
@[simp] theorem running_setRunning_same (k : Nat) (r : Option Running) (s : State) : running (setRunning k r s) k = r := tget_tput_same ..
theorem running_setRunning_ne {k j : Nat} (r : Option Running) (s : State) (hj : j ≠ k) : running (setRunning k r s) j = running s j := tget_tput_ne _ _ _ hj

/-! The end of a management program (R202) -/

@[simp] theorem foreThread_endProgram (k st j : Nat) (s : State) : foreThread (endProgram k st s) j = foreThread s j := by
  unfold endProgram; split <;> rfl

theorem running_endProgram_same (k st : Nat) (s : State) :
    (running (endProgram k st s) k).map (fun r => r.status) = (running s k).map (fun r => some (r.status.getD st)) := by
  unfold endProgram
  cases h : running s k <;> simp [h]

theorem running_endProgram_ne {k j : Nat} (st : Nat) (s : State) (h : j ≠ k) : running (endProgram k st s) j = running s j := by
  unfold endProgram
  split
  · exact running_setRunning_ne _ _ h
  · rfl

theorem endProgram_eq (k st : Nat) (s : State) :
    endProgram k st s = { s with fore := { s.fore with running := (endProgram k st s).fore.running } } := by
  unfold endProgram; split <;> rfl

/-! The context of a thread that may issue -/

/-- A gallery thread issues for its item, the foreman for none. -/
theorem ctxOf_item {who : Thr} {s : State} {c : Ctx} (h : ctxOf who s = some c) : c.item.isSome = !c.isFore := by
  unfold ctxOf at h
  cases who with
  | gal g k =>
    dsimp only at h
    split at h
    · split at h
      · split at h
        · cases h; rfl
        · cases h
      · cases h
    · cases h
  | fore k =>
    dsimp only at h
    split at h
    · split at h
      · split at h
        · cases h; rfl
        · cases h
      · cases h; rfl
    · cases h

theorem item_none_of_isFore {who : Thr} {s : State} {c : Ctx} (h : ctxOf who s = some c) (hf : c.isFore = true) : c.item = none := by
  have hi := ctxOf_item h
  rw [hf] at hi
  exact Option.isNone_iff_eq_none.1 (by simpa using hi)

/-! What a fault leaves (R202) -/

/-- A fault of a bundle in a gallery: its count and its event. -/
theorem takeFault_gal {c : Ctx} {s : State} {g : Fin 64} {k : Fin 16} {it : Item} (hw : c.who = .gal g k) (hit : c.item = some it) (slot code : Nat) (arg : W64) :
    takeFault c slot code arg s = event Ev.PROG_FAULT [code, c.h.pc % 8192 + slot * 8192, arg.toNat, g.val * 4 + it.epoch]
      (bump Reg.GAL_CNT_PROG_FAULT 1 (setGalThread g.val k.val { faulted c slot code arg with pc := faultEntry c s } s)) := by
  unfold takeFault
  have he : (match imageOf s it.epoch with | some i => i.entries.getD 5 0 | none => 0) = faultEntry c s := by
    rw [faultEntry, hit]; cases h : imageOf s it.epoch <;> simp [h]
  rw [hw, hit, ← he]
  rfl

/-- A fault of a bundle on the foreman: what is reported, then the end of the program. -/
theorem takeFault_fore {c : Ctx} {s : State} {k : Fin 4} (hw : c.who = .fore k) (slot code : Nat) (arg : W64) :
    takeFault c slot code arg s = endProgram k.val 0x11 (setForeThread k.val
      (if k = 0 then { faulted c slot code arg with pc := c.h.pc + 1 } else faulted c slot code arg)
      (if code = 0x0D then event Ev.PROG_FAULT [code, c.h.pc % 8192 + slot * 8192, arg.toNat, 0x100] s else s)) := by
  have hk : k = 0 ↔ k.val = 0 := Fin.ext_iff
  unfold takeFault
  rw [hw]
  simp only [hk]
  rfl

theorem takeFault_faults {who : Thr} {c : Ctx} {s : State} (h : ctxOf who s = some c) (slot code : Nat) (arg : W64) :
    Faults c slot code arg s (takeFault c slot code arg s) := by
  unfold Faults
  split
  case h_1 g k hw =>
    have hi := ctxOf_item h
    rw [Ctx.isFore, hw] at hi
    obtain ⟨it, hit⟩ := Option.isSome_iff_exists.1 hi
    rw [takeFault_gal hw hit, hit]
    exact ⟨_, bump_counted _ 1 _ (by decide), event_raised _ _ (by decide)⟩
  case h_2 k hw =>
    rw [takeFault_fore hw]
    generalize hu : ite (code = 0x0D) _ s = u
    have hlog : (if code = 0x0D then Raised Ev.PROG_FAULT [code, c.h.pc % 8192 + slot * 8192, arg.toNat, 0x100] s u else u = s) := by
      split at hu
      · rw [if_pos ‹_›, ← hu]; exact event_raised _ _ (by decide)
      · rw [if_neg ‹_›, hu]
    have hfore : u.fore = s.fore := by
      split at hlog
      · exact hlog.1.fore
      · rw [hlog]
    refine ⟨u, hlog, ?_, ?_, fun j hj => ⟨?_, ?_⟩, ?_⟩
    · rw [foreThread_endProgram, foreThread_setForeThread_same]
    · rw [running_endProgram_same]; unfold running; rw [← hfore]; rfl
    · rw [foreThread_endProgram, foreThread_setForeThread_ne _ _ hj]; unfold foreThread; rw [hfore]
    · rw [running_endProgram_ne _ _ hj]; unfold running; rw [← hfore]; rfl
    · rw [endProgram_eq, ← hfore]; rfl

/-! What a command does whose bundle is spelled -/

section
variable {i : Instr} {who : Thr} {gd : Prd} {c : Ctx} {s : State} {a : Ctx → Res'} (hr : Ready who gd c s)
include hr

/-- Slot A faults, whatever slot B holds. -/
theorem issues_fault {b : SlotB} {code : Nat} {arg : W64} (hb : bundleCmd i = some (who, gd, b)) (hx : exec i s = .next (issue i who gd a b s))
    (ha : a c = bad code arg) : Issues c i s (Faults c 0 code arg s) := by
  intro hi
  refine ⟨_, hx, ?_⟩
  rw [issue_fault hr (hi _ hb) ha]
  exact takeFault_faults hr.ctx _ _ _

/-- Slot A has its effect beside a NOP. -/
theorem issues_ok {e : Eff} {P : State → Prop} (hb : bundleCmd i = some (who, gd, slotNop)) (hx : exec i s = .next (issue i who gd a slotNop s))
    (ha : a c = .ok e) (hP : P (commit c e noEff s)) : Issues c i s P := by
  intro hi
  refine ⟨_, hx, ?_⟩
  rw [issue_ok hr (hi _ hb) ha]
  exact hP

/-- Slot A writes one register beside a NOP. -/
theorem issues_reg {rd : Reg} {v : W64} (hb : bundleCmd i = some (who, gd, slotNop)) (hx : exec i s = .next (issue i who gd a slotNop s))
    (ha : a c = okReg rd.val v) : Issues c i s (WroteReg c rd v s) := issues_ok hr hb hx ha wroteReg

end

end Sys2Proof.Machine
end

section
/-! PROOFS. The issue of a bundle (O6): when a command does nothing, what a false guard leaves, and what both slots of a bundle leave together. -/
namespace Sys2Proof.Machine

/-! When a command issues its bundle (log entries 3 and 41) -/

section
variable {i : Instr} {who : Thr} {gd : Prd} {c : Ctx} {s : State} {a : Ctx → Res'} {b : SlotB}

theorem issue_of_none (h : ctxOf who s = none) : issue i who gd a b s = s := by simp only [issue, h]
theorem issue_of_unspelled (h : ctxOf who s = some c) (hs : spells c i b = false) : issue i who gd a b s = s := by
  simp only [issue, h, hs]; rfl
theorem issue_of_spelled (h : ctxOf who s = some c) (hs : spells c i b = true) : issue i who gd a b s = bundle c gd a b s := by
  simp only [issue, h, hs]; rfl

/-- Beyond the image there is no word to compare. -/
theorem spells_of_beyond (h : beyond c = true) : spells c i b = true := by
  simp only [beyond, Ctx.codeLen, Bool.and_eq_true] at h
  obtain ⟨-, h⟩ := h
  unfold spells
  cases hc : c.code with
  | none => rfl
  | some l =>
    simp only [hc, Option.map_some, decide_eq_true_eq] at h
    simp only [List.getElem?_eq_none h]

/-- A WAITEV that waits, and an ORD of a reset function, are spelled instructions of a foreman thread under a true guard; every other bundle issues (R199, R221). -/
theorem exec_issues (hb : bundleCmd i = some (who, gd, b)) (hl : legalDrop i = true)
    (hw : ∀ c, ctxOf who s = some c → c.isFore = true → c.h.p gd.val = true → spells c i b = false) : ∃ a, exec i s = .next (issue i who gd a b s) := by
  cases i
  case waitev rd rb _ =>
    cases hb
    refine ⟨waitevRes rd rb, ?_⟩
    show execWaitev who gd rd rb b s = _
    unfold execWaitev
    cases hh : waitevHolds who gd rb s with
    | false => rfl
    | true =>
      unfold waitevHolds at hh
      cases hc : ctxOf who s with
      | none => rw [hc] at hh; cases hh
      | some c =>
        simp only [hc, Bool.and_eq_true] at hh
        obtain ⟨⟨hf, hp⟩, -⟩ := hh
        rw [issue_of_unspelled hc (hw c hc hf hp)]
        rfl
  case ord code rd ecc _ =>
    cases hb
    refine ⟨ordRes code rd ecc, ?_⟩
    have hno : ordAborts who gd code rd ecc b s = false := by
      cases who with
      | gal => rfl
      | fore k =>
        rw [ordAborts]
        cases hc : ctxOf (.fore k) s with
        | none => rfl
        | some c =>
          cases hp : c.h.p gd.val with
          | false => simp only [hp, Bool.and_false, Bool.false_and]
          | true =>
            have hf : c.isFore = true := by rw [Ctx.isFore, (ctxOf_some hc).1]
            simp only [hw c hc hf hp, Bool.false_and]
    show execOrd who gd code rd ecc b s = _
    unfold execOrd issueOrd
    rw [hno]
    rfl
  case dropEnd reason sub _ =>
    cases hb
    refine ⟨dropRes reason.val sub.toNat, ?_⟩
    show execDropEnd who gd reason sub b s = _
    rw [execDropEnd, show dropLegal reason.val sub.toNat = true from hl]
    rfl
  all_goals cases hb
  all_goals exact ⟨_, rfl⟩

/-! A bundle under its guards (R174) -/

theorem guarded_off {gd : Prd} {f : Ctx → Res'} (h : c.h.p gd.val = false) : guarded c gd f = .ok noEff := by rw [guarded, h]; rfl
theorem guarded_on {gd : Prd} {f : Ctx → Res'} (h : c.h.p gd.val = true) : guarded c gd f = f c := by rw [guarded, h]; rfl
@[simp] theorem guarded_nop (gd : Prd) (k : Nat) : guarded c gd (sopRes k .nop) = .ok noEff := by unfold guarded; split <;> rfl

theorem bundle_beyond (h : beyond c = true) : bundle c gd a b s = takeFault c 0 0x01 (BitVec.ofNat 64 c.h.pc) s := by rw [bundle, h]; rfl

theorem bundle_commits {ea eb : Eff} (h : beyond c = false) (ha : guarded c gd a = .ok ea) (hb : guarded c b.guard (sopRes 1 b.op) = .ok eb) :
    bundle c gd a b s = commit c ea eb s := by rw [bundle, h, ha, hb]; rfl

/-- Slot A under a false guard is a NOP. -/
theorem bundle_off (h : c.h.p gd.val = false) : bundle c gd a b s = bundle c gd (sopRes 0 .nop) b s := by
  rw [bundle, guarded_off h, bundle, guarded_nop]

/-- Slot B under a false guard is a NOP. -/
theorem bundle_offB (h : c.h.p b.guard.val = false) : bundle c gd a b s = bundle c gd a slotNop s := by
  rw [bundle, guarded_off h, bundle, slotNop, guarded_nop]

theorem bundle_bothOff (hn : beyond c = false) (h : c.h.p gd.val = false) (hb : c.h.p b.guard.val = false) :
    bundle c gd a b s = setThread c.who (stepped c.h) s := bundle_commits hn (guarded_off h) (guarded_off hb)

end

/-! Predicates and registers that a slot writes (R175) -/

theorem nbit_setNbit (n i j : Nat) (v : Bool) : nbit (setNbit n i v) j = if j = i then v else nbit n j := by
  cases v with
  | true => rw [nbit_setNbit_true]; by_cases h : j = i <;> simp [h]
  | false =>
    unfold setNbit
    cases h : n.testBit i with
    | false => by_cases hj : j = i <;> simp [nbit, hj, h]
    | true =>
      obtain ⟨m, rfl⟩ := Nat.exists_eq_add_of_le (Nat.ge_two_pow_of_testBit h)
      have hm : m.testBit i = false := by simpa [Nat.testBit_two_pow_add_eq] using h
      have hset : setNbit m i true = 2 ^ i + m := by rw [setNbit, hm, Nat.add_comm]; rfl
      have hj := nbit_setNbit_true m i j
      rw [hset] at hj
      simp only [if_true, Bool.false_eq_true, if_false, Nat.add_sub_cancel_left]
      by_cases e : j = i
      · rw [if_pos e, e]; exact hm
      · rw [if_neg e, hj, decide_eq_false e, Bool.false_or]

theorem p_setP (h : Thread) (i j : Nat) (v : Bool) : (h.setP i v).p j = if j = i ∧ j ≠ 0 then v else h.p j := by
  unfold Thread.setP Thread.p
  by_cases hj : j = 0
  · simp [hj]
  · by_cases hi : i = 0
    · subst hi; simp [hj]
    · simp only [hi, if_false, nbit_setNbit]
      by_cases e : j = i <;> simp [e, hi, hj]

@[simp] theorem p_zero (h : Thread) : h.p 0 = true := rfl

@[simp] theorem g_stepped (h : Thread) (k : Nat) : (stepped h).g k = h.g k := rfl
@[simp] theorem p_stepped (h : Thread) (k : Nat) : (stepped h).p k = h.p k := rfl

theorem setP_preds (h : Thread) (i : Nat) (v : Bool) : h.setP i v = { h with preds := (h.setP i v).preds } := by
  unfold Thread.setP; split <;> rfl

/-- Writes of registers and predicates change nothing else of a thread. -/
def OnlyWrites (h h' : Thread) : Prop := h' = { h with regs := h'.regs, preds := h'.preds }

theorem OnlyWrites.trans {h h' h'' : Thread} (e : OnlyWrites h h') (e' : OnlyWrites h' h'') : OnlyWrites h h'' := by
  unfold OnlyWrites at *; rw [e', e]

theorem writeRegs_regs (l : List (Nat × W64)) (h : Thread) : writeRegs l h = { h with regs := (writeRegs l h).regs } := by
  induction l generalizing h with
  | nil => rfl
  | cons e l ih => rw [writeRegs, ih, setG_regs]

theorem writePreds_preds (l : List (Nat × Bool)) (h : Thread) : writePreds l h = { h with preds := (writePreds l h).preds } := by
  induction l generalizing h with
  | nil => rfl
  | cons e l ih => rw [writePreds, ih, setP_preds]

theorem onlyWrites_writeRegs (l : List (Nat × W64)) (h : Thread) : OnlyWrites h (writeRegs l h) := by
  unfold OnlyWrites; rw [writeRegs_regs]
theorem onlyWrites_writePreds (l : List (Nat × Bool)) (h : Thread) : OnlyWrites h (writePreds l h) := by
  unfold OnlyWrites; rw [writePreds_preds]

@[simp] theorem p_writeRegs (l : List (Nat × W64)) (h : Thread) (k : Nat) : (writeRegs l h).p k = h.p k := by rw [writeRegs_regs]; rfl
@[simp] theorem g_writePreds (l : List (Nat × Bool)) (h : Thread) (k : Nat) : (writePreds l h).g k = h.g k := by rw [writePreds_preds]; rfl

theorem g_writeRegs_unwritten {l : List (Nat × W64)} {k : Nat} (hk : k ∉ l.map Prod.fst) (h : Thread) : (writeRegs l h).g k = h.g k := by
  induction l generalizing h with
  | nil => rfl
  | cons e l ih =>
    simp only [List.map_cons, List.mem_cons, not_or] at hk
    rw [writeRegs, ih hk.2, g_setG, if_neg fun x => hk.1 x.1]

/-- A register that is written takes no value from the thread before. -/
theorem g_writeRegs_written {l : List (Nat × W64)} {k : Nat} (hk : k ∈ l.map Prod.fst) (h h' : Thread) : (writeRegs l h).g k = (writeRegs l h').g k := by
  induction l generalizing h h' with
  | nil => cases hk
  | cons e l ih =>
    rw [writeRegs, writeRegs]
    by_cases hl : k ∈ l.map Prod.fst
    · exact ih hl _ _
    · obtain rfl : k = e.1 := by simpa [hl] using hk
      rw [g_writeRegs_unwritten hl, g_writeRegs_unwritten hl, g_setG, g_setG]
      by_cases h0 : e.1 = 0
      · rw [h0]; rfl
      · rw [if_pos ⟨rfl, h0⟩, if_pos ⟨rfl, h0⟩]

theorem p_writePreds_unwritten {l : List (Nat × Bool)} {k : Nat} (hk : k ∉ l.map Prod.fst) (h : Thread) : (writePreds l h).p k = h.p k := by
  induction l generalizing h with
  | nil => rfl
  | cons e l ih =>
    simp only [List.map_cons, List.mem_cons, not_or] at hk
    rw [writePreds, ih hk.2, p_setP, if_neg fun x => hk.1 x.1]

/-- A predicate that is written takes no value from the thread before. -/
theorem p_writePreds_written {l : List (Nat × Bool)} {k : Nat} (hk : k ∈ l.map Prod.fst) (h h' : Thread) : (writePreds l h).p k = (writePreds l h').p k := by
  induction l generalizing h h' with
  | nil => cases hk
  | cons e l ih =>
    rw [writePreds, writePreds]
    by_cases hl : k ∈ l.map Prod.fst
    · exact ih hl _ _
    · obtain rfl : k = e.1 := by simpa [hl] using hk
      rw [p_writePreds_unwritten hl, p_writePreds_unwritten hl, p_setP, p_setP]
      by_cases h0 : e.1 = 0
      · rw [h0]; rfl
      · rw [if_pos ⟨rfl, h0⟩, if_pos ⟨rfl, h0⟩]

/-! Both slots together (R173) -/

/-- An operation that reads no special register writes its registers and predicates and does nothing else, in either slot. -/
theorem sopRes_writes {o : SOp} (h : readsSpecial o = false) (c : Ctx) :
    ∃ (l : List (Nat × W64)) (m : List (Nat × Bool)), (∀ k, sopRes k o c = .ok { noEff with regs := l, preds := m }) ∧
      l.map Prod.fst = (sopRegs o).map Fin.val ∧ m.map Prod.fst = (sopPreds o).map Fin.val := by
  cases o
  case mfs => cases h
  all_goals exact ⟨_, _, fun _ => rfl, rfl, rfl⟩

/-- The thread that the writes of both slots leave. -/
def twoSlots (la : List (Nat × W64)) (ma : List (Nat × Bool)) (lb : List (Nat × W64)) (mb : List (Nat × Bool)) (h : Thread) : Thread :=
  writePreds mb (writeRegs lb (writePreds ma (writeRegs la h)))

theorem onlyWrites_twoSlots (la : List (Nat × W64)) (ma : List (Nat × Bool)) (lb : List (Nat × W64)) (mb : List (Nat × Bool)) (h : Thread) :
    OnlyWrites h (twoSlots la ma lb mb h) :=
  (((onlyWrites_writeRegs la h).trans (onlyWrites_writePreds ma _)).trans (onlyWrites_writeRegs lb _)).trans (onlyWrites_writePreds mb _)

theorem commit_twoSlots (c : Ctx) (la : List (Nat × W64)) (ma : List (Nat × Bool)) (lb : List (Nat × W64)) (mb : List (Nat × Bool)) (s : State) :
    commit c { noEff with regs := la, preds := ma } { noEff with regs := lb, preds := mb } s = setThread c.who (stepped (twoSlots la ma lb mb c.h)) s := rfl

/-- What both slots leave in a register: what slot B alone would leave where it writes, else what slot A alone would. -/
theorem g_twoSlots (la : List (Nat × W64)) (ma : List (Nat × Bool)) (lb : List (Nat × W64)) (mb : List (Nat × Bool)) (h : Thread) (k : Nat) :
    (twoSlots la ma lb mb h).g k = if k ∈ lb.map Prod.fst then (twoSlots lb mb [] [] h).g k else (twoSlots la ma [] [] h).g k := by
  simp only [twoSlots, g_writePreds, writeRegs]
  split
  · exact g_writeRegs_written ‹_› _ _
  · rw [g_writeRegs_unwritten ‹_›, g_writePreds]

theorem p_twoSlots (la : List (Nat × W64)) (ma : List (Nat × Bool)) (lb : List (Nat × W64)) (mb : List (Nat × Bool)) (h : Thread) (k : Nat) :
    (twoSlots la ma lb mb h).p k = if k ∈ mb.map Prod.fst then (twoSlots lb mb [] [] h).p k else (twoSlots la ma [] [] h).p k := by
  simp only [twoSlots, writePreds, writeRegs]
  split
  · exact p_writePreds_written ‹_› _ _
  · rw [p_writePreds_unwritten ‹_›, p_writeRegs]

/-- A slot beside a NOP leaves the thread that its writes leave. -/
theorem bundle_alone {c : Ctx} {gd : Prd} {o : SOp} {s : State} {who : Thr} {h : Thread} {l : List (Nat × W64)} {m : List (Nat × Bool)} (hn : beyond c = false)
    (hp : c.h.p gd.val = true) (hw : c.who = who) (ho : sopRes 0 o c = .ok { noEff with regs := l, preds := m })
    (hb : bundle c gd (sopRes 0 o) slotNop s = setThread who (stepped h) s) :
    ∀ k, h.g k = (twoSlots l m [] [] c.h).g k ∧ h.p k = (twoSlots l m [] [] c.h).p k := by
  rw [bundle_commits hn ((guarded_on hp).trans ho) (guarded_nop _ 1), ← hw] at hb
  have ht : stepped (twoSlots l m [] [] c.h) = stepped h := by
    rw [← threadOf_setThread c.who (stepped h) s, ← hb]
    exact (threadOf_setThread ..).symm
  intro k
  rw [← g_stepped h, ← ht, ← p_stepped h, ← ht]
  exact ⟨rfl, rfl⟩

theorem bundleCmd_inSlotA (who : Thr) (gd : Prd) (a : SOp) (b : SlotB) : bundleCmd (inSlotA who gd a b) = some (who, gd, b) := by cases a <;> rfl
theorem exec_inSlotA (who : Thr) (gd : Prd) (a : SOp) (b : SlotB) (s : State) :
    exec (inSlotA who gd a b) s = .next (issue (inSlotA who gd a b) who gd (sopRes 0 a) b s) := by cases a <;> rfl

/-- Settles O6: what a command does under each guard, then both slots of a bundle, whose writes are taken apart by the slot that makes them. -/
theorem bundleIssue : Obligations.BundleIssue := by
  refine ⟨fun i who gd b s hb hl => ⟨?idle, ?unspelled, ?off, ?offA, ?offB, fun _ => rfl, ?beyond⟩, ?both⟩
  case idle =>
    intro hc
    obtain ⟨a, ha⟩ := exec_issues (s := s) hb hl (fun c h => by rw [hc] at h; cases h)
    rw [Idles, ha, issue_of_none hc]
  case unspelled =>
    intro c hc hs
    obtain ⟨a, ha⟩ := exec_issues (s := s) hb hl (fun d h _ _ => by rw [hc] at h; cases h; exact hs)
    rw [Idles, ha, issue_of_unspelled hc hs]
  case off =>
    intro c hc hn hp hpb hi
    obtain ⟨a, ha⟩ := exec_issues (s := s) hb hl (fun d h _ hd => by rw [hc] at h; cases h; rw [hp] at hd; cases hd)
    refine ⟨_, ha, ?_⟩
    rw [issue_of_spelled hc (hi _ hb), bundle_bothOff hn hp hpb, (ctxOf_some hc).1]
  case offA =>
    intro c hc hp hi
    obtain ⟨a, ha⟩ := exec_issues (s := s) hb hl (fun d h _ hd => by rw [hc] at h; cases h; rw [hp] at hd; cases hd)
    refine ⟨_, ha, ?_⟩
    show issue i who gd a b s = _
    rw [issue_of_spelled hc (hi _ hb), bundle_off hp]
  case offB =>
    intro c hc hp hi
    refine ⟨_, rfl, ?_⟩
    rw [issue_of_spelled hc (hi _ rfl), bundle_offB hp]
  case beyond =>
    intro c hc hbey
    have hgal : c.isFore = false := by simp only [beyond, Bool.and_eq_true, Bool.not_eq_true'] at hbey; exact hbey.1
    obtain ⟨a, ha⟩ := exec_issues (s := s) hb hl (fun d h hf _ => by rw [hc] at h; cases h; rw [hgal] at hf; cases hf)
    refine ⟨_, ha, ?_⟩
    rw [issue_of_spelled hc (spells_of_beyond hbey), bundle_beyond hbey]
    exact takeFault_faults hc _ _ _
  case both =>
    intro a o who gd gb c s ha hb hr hpb hsa hso hA hB _ _ hi
    obtain ⟨hc, hn, hp⟩ := hr
    obtain ⟨la, ma, hra, hla, hma⟩ := sopRes_writes hsa c
    obtain ⟨lb, mb, hrb, hlb, hmb⟩ := sopRes_writes hso c
    have hw := (ctxOf_some hc).1
    have ea := bundle_alone hn hp hw (hra 0) hA
    have eb := bundle_alone hn hpb hw (hrb 0) hB
    refine ⟨_, exec_inSlotA .., twoSlots la ma lb mb c.h, ?_, onlyWrites_twoSlots .., fun r => ?_, fun p => ?_⟩
    · rw [issue_of_spelled hc (hi _ (bundleCmd_inSlotA ..)), bundle_commits hn ((guarded_on hp).trans (hra 0)) ((guarded_on hpb).trans (hrb 1)), commit_twoSlots, hw]
    · rw [g_twoSlots, (ea r.val).1, (eb r.val).1, hlb]
      simp only [List.mem_map_of_injective Fin.val_injective]
    · rw [p_twoSlots, (ea p.val).2, (eb p.val).2, hmb]
      simp only [List.mem_map_of_injective Fin.val_injective]

end Sys2Proof.Machine
end

section
/-! PROOFS. The header window of a gallery thread (O9; R176, R186, R187): bytes loaded and stored as words, bytes put into a list and taken out of it, and what each instruction does with them. -/
namespace Sys2Proof.Machine

/-! Words and bytes -/

theorem beNat_lt (b : Bytes) : beNat b < 256 ^ b.length := by
  induction b with
  | nil => decide
  | cons x t ih =>
    have hx : x.toNat * 256 ^ t.length ≤ 255 * 256 ^ t.length := Nat.mul_le_mul_right _ (by have := x.isLt; omega)
    rw [beNat, List.length_cons, Nat.pow_succ]
    omega

theorem slice_eq_map (b : Bytes) (a n : Nat) : slice b a n = (List.range n).map (fun i => b.getD (a + i) 0) := by
  induction n generalizing a with
  | zero => rfl
  | succ n ih =>
    rw [slice, ih, List.range_succ_eq_map, List.map_cons, List.map_map]
    simp only [Nat.add_zero, Function.comp_def, Nat.succ_eq_add_one, Nat.add_assoc, Nat.add_comm 1]

theorem getElem?_natLe (k n : Nat) {i : Nat} (h : i < k) : (natLe k n)[i]? = some (BitVec.ofNat 8 (n / 256 ^ i)) := by
  induction k generalizing n i with
  | zero => omega
  | succ k ih =>
    cases i with
    | zero => simp [natLe]
    | succ i => rw [natLe, List.getElem?_cons_succ, ih _ (by omega), Nat.div_div_eq_div_mul, Nat.pow_succ']

theorem getElem?_natBe (k n : Nat) {i : Nat} (h : i < k) : (natBe k n)[i]? = some (BitVec.ofNat 8 (n / 256 ^ (k - 1 - i))) := by
  rw [natBe, List.getElem?_reverse (by rw [natLe_length]; exact h), natLe_length, getElem?_natLe _ _ (by omega)]

theorem length_stored (v : W64) {n : Nat} (h : n ≤ 8) : (stored v n).length = n := by
  rw [stored, List.length_drop, natBe_length]; omega

theorem getElem?_stored (v : W64) {n i : Nat} (h : n ≤ 8) (hi : i < n) : (stored v n)[i]? = some (BitVec.ofNat 8 (v.toNat / 256 ^ (n - 1 - i))) := by
  rw [stored, List.getElem?_drop, getElem?_natBe _ _ (by omega), show 8 - 1 - (8 - n + i) = n - 1 - i by omega]

/-- A value loaded is the bytes' word, continued by zeros or by its sign. -/
theorem loaded_eq (b : Bytes) (sx : Bool) : loaded b sx = if sx then (BitVec.ofNat (8 * b.length) (beNat b)).signExtend 64 else BitVec.ofNat 64 (beNat b) := by
  have hs : signed (8 * b.length) (beNat b) = (BitVec.ofNat (8 * b.length) (beNat b)).toInt := by
    cases b with
    | nil => decide
    | cons x t =>
      have hp : 2 ^ (8 * (x :: t).length) = 2 * 2 ^ (8 * (x :: t).length - 1) := by rw [← Nat.pow_succ']; congr 1
      rw [signed, BitVec.toInt_eq_toNat_cond, BitVec.toNat_ofNat]
      exact if_congr (by omega) rfl rfl
  rw [loaded, hs]
  rfl

theorem getLsbD_loaded {b : Bytes} (sx : Bool) (h0 : 0 < b.length) (h8 : b.length ≤ 8) {i : Nat} (hi : i < 64) :
    (loaded b sx).getLsbD i = if i < 8 * b.length then (beNat b).testBit i else sx && (beNat b).testBit (8 * b.length - 1) := by
  have hlt : beNat b < 2 ^ (8 * b.length) := by rw [Nat.pow_mul]; exact beNat_lt b
  rw [loaded_eq]
  cases sx with
  | true =>
    simp only [if_true, BitVec.getLsbD_signExtend, BitVec.msb_eq_getLsbD_last, BitVec.getLsbD_ofNat, hi, decide_true, Bool.true_and]
    refine ite_congr rfl (fun h => ?_) (fun _ => ?_)
    · rw [decide_eq_true h, Bool.true_and]
    · rw [decide_eq_true (by omega), Bool.true_and]
  | false =>
    simp only [Bool.false_eq_true, if_false, BitVec.getLsbD_ofNat, hi, decide_true, Bool.true_and, Bool.false_and]
    split
    · rfl
    · exact Nat.testBit_lt_two_pow (lt_of_lt_of_le hlt (Nat.pow_le_pow_right (by omega) (by omega)))

theorem loaded_low {b : Bytes} (sx : Bool) (h0 : 0 < b.length) (h8 : b.length ≤ 8) : (loaded b sx).toNat % 2 ^ (8 * b.length) = beNat b := by
  have hlt : beNat b < 2 ^ (8 * b.length) := by rw [Nat.pow_mul]; exact beNat_lt b
  apply Nat.eq_of_testBit_eq
  intro i
  rw [Nat.testBit_mod_two_pow, BitVec.testBit_toNat]
  by_cases hi : i < 8 * b.length
  · rw [getLsbD_loaded sx h0 h8 (by omega), if_pos hi, decide_eq_true hi, Bool.true_and]
  · rw [decide_eq_false hi, Bool.false_and, Nat.testBit_lt_two_pow (lt_of_lt_of_le hlt (Nat.pow_le_pow_right (by omega) (by omega)))]

theorem loaded_high {b : Bytes} (sx : Bool) (h0 : 0 < b.length) (h8 : b.length ≤ 8) {i : Nat} (hn : 8 * b.length ≤ i) (hi : i < 64) :
    (loaded b sx).getLsbD i = (sx && (loaded b sx).getLsbD (8 * b.length - 1)) := by
  rw [getLsbD_loaded sx h0 h8 hi, getLsbD_loaded sx h0 h8 (by omega), if_neg (by omega), if_pos (by omega)]

/-! Bytes put into a list and taken out of it -/

theorem length_overlay {b v : Bytes} {a : Nat} (h : a + v.length ≤ b.length) : (overlay b a v).length = b.length := by
  simp only [overlay, List.length_append, List.length_take, List.length_drop]; omega

theorem getElem?_overlay {b v : Bytes} {a : Nat} (h : a + v.length ≤ b.length) (i : Nat) :
    (overlay b a v)[i]? = if a ≤ i ∧ i < a + v.length then v[i - a]? else b[i]? := by
  have htake : v.take (b.length - a) = v := List.take_of_length_le (by omega)
  rw [overlay, htake, List.getElem?_append, List.length_take, Nat.min_eq_left (by omega), List.getElem?_append, List.getElem?_drop]
  by_cases h1 : i < a
  · rw [if_pos h1, if_neg (by omega), List.getElem?_take_of_lt h1]
  · by_cases h2 : i - a < v.length
    · rw [if_neg h1, if_pos h2, if_pos (by omega)]
    · rw [if_neg h1, if_neg h2, if_neg (by omega), show a + v.length + (i - a - v.length) = i by omega]

theorem getD_insert_zeros {b : Bytes} {a : Nat} (h : a ≤ b.length) (n i : Nat) :
    (b.take a ++ zeros n ++ b.drop a).getD i 0 = if i < a then b.getD i 0 else if i < a + n then 0 else b.getD (i - n) 0 := by
  simp only [List.getD_eq_getElem?_getD, List.append_assoc, zeros]
  rw [List.getElem?_append, List.length_take, Nat.min_eq_left h, List.getElem?_append, List.length_replicate, List.getElem?_drop]
  by_cases h1 : i < a
  · rw [if_pos h1, if_pos h1, List.getElem?_take_of_lt h1]
  · by_cases h2 : i - a < n
    · rw [if_neg h1, if_neg h1, if_pos h2, if_pos (by omega), List.getElem?_replicate_of_lt h2]; rfl
    · rw [if_neg h1, if_neg h1, if_neg h2, if_neg (by omega), show a + (i - a - n) = i - n by omega]

theorem getD_delete {b : Bytes} {a : Nat} (h : a ≤ b.length) (n i : Nat) :
    (b.take a ++ b.drop (a + n)).getD i 0 = if i < a then b.getD i 0 else b.getD (i + n) 0 := by
  simp only [List.getD_eq_getElem?_getD]
  rw [List.getElem?_append, List.length_take, Nat.min_eq_left h, List.getElem?_drop]
  by_cases h1 : i < a
  · rw [if_pos h1, if_pos h1, List.getElem?_take_of_lt h1]
  · rw [if_neg h1, if_neg h1, show a + n + (i - a) = i + n by omega]

/-! The results in a gallery (R186, R187) -/

theorem sizeBytes_pos (size : Fin 4) : 0 < sizeBytes size := Nat.two_pow_pos _
theorem sizeBytes_le (size : Fin 4) : sizeBytes size ≤ 8 := Nat.pow_le_pow_right (by decide) (Nat.le_of_lt_succ size.isLt)

section
variable {c : Ctx} {g : Fin 64} {k : Fin 16} (hw : c.who = .gal g k)
include hw

theorem isFore_gal : c.isFore = false := by rw [Ctx.isFore, hw]

theorem wldRes_gal (rd ra : Reg) (off : Byte) (size : Fin 4) (sx : Bool) (ecc : Ecc) : wldRes rd ra off size sx ecc c =
    if 256 < effAddr c ra off + sizeBytes size then bad FC.WINDOW_RANGE (BitVec.ofNat 64 (effAddr c ra off))
    else okReg rd.val (loaded (slice c.h.win (effAddr c ra off) (sizeBytes size)) sx) := by
  unfold wldRes; rw [hw]

theorem wstRes_gal (rs ra : Reg) (off : Byte) (size : Fin 4) : wstRes rs ra off size c =
    if windowRo c then bad FC.WINDOW_RO (BitVec.ofNat 64 (effAddr c ra off))
    else if c.h.wlen < effAddr c ra off + sizeBytes size then bad FC.WINDOW_RANGE (BitVec.ofNat 64 (effAddr c ra off))
    else .ok { noEff with win := some (overlay c.h.win (effAddr c ra off) (stored (c.h.g rs.val) (sizeBytes size)), c.h.wlen) } := by
  unfold wstRes; rw [hw]; simp only [length_stored _ (sizeBytes_le size)]

theorem winsRes_gal (n1 : Fin 32) (ra : Reg) (off : Byte) : winsRes n1 ra off c =
    if windowRo c then bad FC.WINDOW_RO (BitVec.ofNat 64 (effAddr c ra off))
    else if c.h.wlen < effAddr c ra off then bad FC.WINDOW_RANGE (BitVec.ofNat 64 (effAddr c ra off))
    else if 256 < c.h.wlen + (n1.val + 1) then bad FC.WINDOW_FULL (BitVec.ofNat 64 (effAddr c ra off))
    else .ok { noEff with
      win := some (c.h.win.take (effAddr c ra off) ++ zeros (n1.val + 1) ++ c.h.win.drop (effAddr c ra off), c.h.wlen + (n1.val + 1))
      act := onItem c.who (fun it => { it with len := it.len + (n1.val + 1) }) } := by
  unfold winsRes; rw [isFore_gal hw]; rfl

theorem wdelRes_gal (n1 : Fin 32) (ra : Reg) (off : Byte) : wdelRes n1 ra off c =
    if windowRo c then bad FC.WINDOW_RO (BitVec.ofNat 64 (effAddr c ra off))
    else if c.h.wlen < effAddr c ra off + (n1.val + 1) then bad FC.WINDOW_RANGE (BitVec.ofNat 64 (effAddr c ra off))
    else .ok { noEff with
      win := some (c.h.win.take (effAddr c ra off) ++ c.h.win.drop (effAddr c ra off + (n1.val + 1)), c.h.wlen - (n1.val + 1))
      act := onItem c.who (fun it => { it with len := it.len - (n1.val + 1) }) } := by
  unfold wdelRes; rw [isFore_gal hw]; rfl

end

/-- A change of the item that a thread holds. -/
theorem onItem_of {who : Thr} {s : State} {it : Item} (f : Item → Item) (ht : (threadOf s who).tag = some it.tag) (hi : itemOf s it.tag = some it) :
    onItem who f s = setItem it.tag (some (f it)) s := by simp only [onItem, ht, hi]

theorem onItem_setThread {who : Thr} {h : Thread} {s : State} {it : Item} (f : Item → Item) (ht : h.tag = some it.tag) (hi : itemOf s it.tag = some it) :
    onItem who f (setThread who h s) = setItem it.tag (some (f it)) (setThread who h s) :=
  onItem_of f ((congrArg Thread.tag (threadOf_setThread ..)).trans ht) ((itemOf_setThread ..).trans hi)

/-- A bundle that leaves another window, and acts outside the thread. -/
theorem commit_win (c : Ctx) (w : Bytes) (n : Nat) (f : State → State) (s : State) :
    commit c { noEff with win := some (w, n), act := f } noEff s = f (setThread c.who { stepped c.h with win := w, wlen := n } s) := rfl

/-- Settles O9, an instruction at a time: its result where the address is in bounds, and its fault on each bound. -/
theorem nianoWindow : Obligations.NianoWindow := by
  intro g k gd c s hr hlen _ ra off a
  have hw := (ctxOf_some hr.ctx).1
  refine ⟨?wld, ?wst, ?edit⟩
  case wld =>
    intro rd size sx ecc n
    have hsl : (slice c.h.win a n).length = n := by rw [slice_eq_map, List.length_map, List.length_range]
    have h0 : 0 < (slice c.h.win a n).length := hsl.symm ▸ sizeBytes_pos size
    have h8 : (slice c.h.win a n).length ≤ 8 := hsl.symm ▸ sizeBytes_le size
    refine ⟨fun h => ?_, fun h => ?_⟩
    · refine issues_ok hr rfl rfl ((wldRes_gal hw ..).trans (if_neg (Nat.not_lt.2 h))) ⟨loaded (slice c.h.win a n) sx, ?_, fun i hi hi' => ?_, wroteReg⟩
      · have hlow := loaded_low sx h0 h8
        rw [hsl] at hlow
        rw [hlow, slice_eq_map]
      · have hhigh := loaded_high sx h0 h8 (hsl.symm ▸ hi) hi'
        rwa [hsl] at hhigh
    · exact issues_fault hr rfl rfl ((wldRes_gal hw ..).trans (if_pos h))
  case wst =>
    intro rs size n
    have h8 : n ≤ 8 := sizeBytes_le size
    have hv : (stored (c.h.g rs.val) n).length = n := length_stored _ h8
    refine ⟨fun hro hin => ?_, fun hro => ?_, fun hro hout => ?_⟩
    · have hfit : a + (stored (c.h.g rs.val) n).length ≤ c.h.win.length := by rw [hv, hlen]; exact hin
      refine issues_ok hr rfl rfl ((wstRes_gal hw ..).trans ((if_neg (Bool.eq_false_iff.1 hro)).trans (if_neg (Nat.not_lt.2 hin)))) ⟨_, length_overlay hfit, fun i hi => ?_, fun i hi => ?_, ?_⟩
      · rw [List.getD_eq_getElem?_getD, getElem?_overlay hfit, if_pos (by rw [hv]; omega), Nat.add_sub_cancel_left, getElem?_stored _ h8 hi]
        exact BitVec.toNat_ofNat ..
      · rw [List.getD_eq_getElem?_getD, getElem?_overlay hfit, if_neg (by rw [hv]; omega), List.getD_eq_getElem?_getD]
      · rw [← hw]; rfl
    · exact issues_fault hr rfl rfl ((wstRes_gal hw ..).trans (if_pos hro))
    · exact issues_fault hr rfl rfl ((wstRes_gal hw ..).trans ((if_neg (Bool.eq_false_iff.1 hro)).trans (if_pos hout)))
  case edit =>
    intro n1 it n htag hit
    refine ⟨fun hro ha hn => ?_, fun hro ha => ?_, fun hro => ?_, fun hro => ?_, fun hro ha => ?_, fun hro ha hn => ?_, fun hro ha => ?_⟩
    · refine issues_ok hr rfl rfl ((winsRes_gal hw ..).trans ((if_neg (Bool.eq_false_iff.1 hro)).trans ((if_neg (Nat.not_lt.2 ha)).trans (if_neg (Nat.not_lt.2 hn)))))
        ⟨_, ?_, fun i => getD_insert_zeros (hlen ▸ ha) n i, ?_⟩
      · simp only [List.length_append, List.length_take, List.length_drop, zeros, List.length_replicate]; omega
      · rw [commit_win, onItem_setThread _ (by exact htag) hit, hw]
        rfl
    · refine issues_ok hr rfl rfl ((wdelRes_gal hw ..).trans ((if_neg (Bool.eq_false_iff.1 hro)).trans (if_neg (Nat.not_lt.2 ha))))
        ⟨_, ?_, fun i => getD_delete (by omega) n i, ?_⟩
      · simp only [List.length_append, List.length_take, List.length_drop]; omega
      · rw [commit_win, onItem_setThread _ (by exact htag) hit, hw]
        rfl
    · exact issues_fault hr rfl rfl ((winsRes_gal hw ..).trans (if_pos hro))
    · exact issues_fault hr rfl rfl ((wdelRes_gal hw ..).trans (if_pos hro))
    · exact issues_fault hr rfl rfl ((winsRes_gal hw ..).trans ((if_neg (Bool.eq_false_iff.1 hro)).trans (if_pos ha)))
    · exact issues_fault hr rfl rfl ((winsRes_gal hw ..).trans ((if_neg (Bool.eq_false_iff.1 hro)).trans ((if_neg (Nat.not_lt.2 ha)).trans (if_pos hn))))
    · exact issues_fault hr rfl rfl ((wdelRes_gal hw ..).trans ((if_neg (Bool.eq_false_iff.1 hro)).trans (if_pos ha)))

end Sys2Proof.Machine
end

section
/-! PROOFS. Special registers and descriptor fields (O11; R177, R178, R188, Tables 06.2 and 06.4): what MFS finds at a number, what MTS does with it, and the faults of both. -/
namespace Sys2Proof.Machine

theorem exists_fore_of_isFore {c : Ctx} (h : c.isFore = true) : ∃ k, c.who = .fore k := by
  unfold Ctx.isFore at h
  cases hw : c.who with
  | gal => rw [hw] at h; cases h
  | fore k => exact ⟨k, rfl⟩

theorem not_desc_of_isForeSr {n : Nat} (h : isForeSr n = true) : ¬ n < 0x12 := by
  simp only [isForeSr, Bool.and_eq_true, decide_eq_true_eq] at h; omega

/-! What MFS finds -/

/-- A descriptor field is the item's; without an item there is none. -/
theorem mfsRes_desc (k : Nat) (c : Ctx) (rd : Nat) {n : Nat} (h : n < 0x12) : mfsRes k c rd n =
    match c.item with | some it => okReg rd (BitVec.ofNat 64 (descriptor it c.h.wlen n)) | none => bad FC.SR_UNDEF (BitVec.ofNat 64 n) := if_pos h

theorem mfsRes_foreSr_gal (k : Nat) {c : Ctx} (rd : Nat) {n : Nat} (h : isForeSr n = true) (hg : c.isFore = false) :
    mfsRes k c rd n = bad FC.PRIV (BitVec.ofNat 64 n) := by
  unfold mfsRes
  rw [if_neg (not_desc_of_isForeSr h), if_pos h]
  cases hw : c.who with
  | gal => rfl
  | fore => rw [Ctx.isFore, hw] at hg; cases hg

theorem mfsRes_foreSr_fore (k : Nat) {c : Ctx} (rd : Nat) {n : Nat} {t : Fin 4} {v : W64} (h : isForeSr n = true) (hw : c.who = .fore t) (hv : foreSpecial c t.val n = some v) :
    mfsRes k c rd n = okReg rd v := by
  unfold mfsRes
  rw [if_neg (not_desc_of_isForeSr h), if_pos h, hw]
  simp only [hv]

/-- A number of neither the descriptor nor the foreman's registers. -/
theorem mfsRes_special (k : Nat) (c : Ctx) (rd : Nat) {n : Nat} (h : 0x12 ≤ n) (hf : isForeSr n = false) : mfsRes k c rd n =
    match special k c n with
    | some v => .ok { noEff with regs := [(rd, v)], act := if n = 0x109 then drewTo k else id }
    | none => bad FC.SR_UNDEF (BitVec.ofNat 64 n) := by
  unfold mfsRes
  rw [if_neg (Nat.not_lt.2 h), hf]
  rfl

theorem special_none (k : Nat) (c : Ctx) {n : Nat} (h : n < 0x100 ∨ 0x109 < n) : special k c n = none := by
  unfold special
  repeat rw [if_neg (by omega)]

/-- The predicates as bits of a word: p0 reads 1, and nothing above p7. -/
theorem getLsbD_predWord (h : Thread) {i : Nat} (hi : i < 64) : (BitVec.ofNat 64 (h.preds % 256 ||| 1)).getLsbD i = (decide (i < 8) && h.p i) := by
  have h1 : Nat.testBit 1 i = decide (i = 0) := by rw [← Nat.pow_zero 2, Nat.testBit_two_pow]; simp [eq_comm]
  rw [BitVec.getLsbD_ofNat, decide_eq_true hi, Bool.true_and, Nat.testBit_or, show 256 = 2 ^ 8 from rfl, Nat.testBit_mod_two_pow, h1, Thread.p, nbit]
  by_cases h0 : i = 0
  · simp [h0]
  · rw [decide_eq_false h0, beq_eq_false_iff_ne.2 h0, Bool.or_false, Bool.false_or]

/-! What MTS does -/

theorem mtsRes_ro_desc (rs : Reg) {sr : BitVec 12} {c : Ctx} (hg : c.isFore = false) (h : sr.toNat < 0x12) (h4 : sr.toNat ≠ 4) (h5 : sr.toNat ≠ 5) :
    mtsRes rs sr c = bad FC.SR_RO (BitVec.ofNat 64 sr.toNat) := by
  simp only [mtsRes, if_pos h, hg, Bool.false_eq_true, if_false, if_neg h4, if_neg h5]

theorem mtsRes_ro (rs : Reg) {sr : BitVec 12} (c : Ctx) (h : 0x100 ≤ sr.toNat ∧ sr.toNat ≤ 0x109) (h8 : sr.toNat ≠ 0x108) :
    mtsRes rs sr c = bad FC.SR_RO (BitVec.ofNat 64 sr.toNat) := by
  simp only [mtsRes, if_neg (show ¬ sr.toNat < 0x12 by omega), if_neg h8, if_pos h]

theorem mtsRes_class (rs : Reg) {c : Ctx} (hg : c.isFore = false) :
    mtsRes rs 0x004 c = .ok { noEff with act := onItem c.who (fun it => { it with cls := (c.h.g rs.val).toNat % 8 }) } := by
  unfold mtsRes; rw [hg]; rfl

theorem mtsRes_color (rs : Reg) {c : Ctx} (hg : c.isFore = false) :
    mtsRes rs 0x005 c = .ok { noEff with act := onItem c.who (fun it => { it with color := min ((c.h.g rs.val).toNat % 4) 2 }) } := by
  unfold mtsRes; rw [hg]; rfl

theorem mtsRes_preds (rs : Reg) (c : Ctx) :
    mtsRes rs 0x108 c = .ok { noEff with preds := (List.range 8).map (fun i => (i, (c.h.g rs.val).getLsbD i)) } := rfl

theorem mtsRes_event (rs : Reg) {c : Ctx} (hf : c.isFore = true) : mtsRes rs 0x205 c =
    .ok { noEff with act := fun s => { s with fore := { s.fore with event := s.fore.event &&& (0xFFFF ^^^ ((c.h.g rs.val).toNat % 0x10000)) } } } := by
  unfold mtsRes; rw [hf]; rfl

/-- The numbers of no register. -/
def noSr (n : Nat) : Prop := 0x12 ≤ n ∧ n < 0x100 ∨ 0x10A ≤ n ∧ n < 0x200 ∨ 0x206 ≤ n

theorem isForeSr_noSr {n : Nat} (h : noSr n) : isForeSr n = false := by
  simp only [noSr] at h
  simp only [isForeSr, Bool.and_eq_false_iff, decide_eq_false_iff_not]
  omega

theorem mtsRes_noSr (rs : Reg) {sr : BitVec 12} (c : Ctx) (h : noSr sr.toNat) : mtsRes rs sr c = bad FC.SR_UNDEF (BitVec.ofNat 64 sr.toNat) := by
  have hf := isForeSr_noSr h
  simp only [noSr] at h
  simp only [mtsRes, if_neg (show ¬ sr.toNat < 0x12 by omega), if_neg (show sr.toNat ≠ 0x108 by omega), if_neg (show ¬ (0x100 ≤ sr.toNat ∧ sr.toNat ≤ 0x109) by omega), hf,
    Bool.false_eq_true, if_false]

theorem mfsRes_noSr (k : Nat) (c : Ctx) (rd : Nat) {n : Nat} (h : noSr n) : mfsRes k c rd n = bad FC.SR_UNDEF (BitVec.ofNat 64 n) := by
  have hf := isForeSr_noSr h
  simp only [noSr] at h
  rw [mfsRes_special k c rd (by omega) hf, special_none k c (by omega)]

/-- A bundle that only writes predicates. -/
theorem commit_preds (c : Ctx) (l : List (Nat × Bool)) (s : State) :
    commit c { noEff with preds := l } noEff s = setThread c.who (stepped (writePreds l c.h)) s := rfl

theorem writePreds_append (l m : List (Nat × Bool)) (h : Thread) : writePreds (l ++ m) h = writePreds m (writePreds l h) := by
  induction l generalizing h with
  | nil => rfl
  | cons e l ih => rw [List.cons_append, writePreds, writePreds, ih]

/-- The first n predicates written in turn; p0 stays true. -/
theorem p_writePreds_range (f : Nat → Bool) (n : Nat) (h : Thread) {i : Nat} (hi : i < n) :
    (writePreds ((List.range n).map (fun i => (i, f i))) h).p i = (decide (i = 0) || f i) := by
  induction n with
  | zero => omega
  | succ n ih =>
    rw [List.range_succ, List.map_append, writePreds_append, List.map_singleton, writePreds, writePreds, p_setP]
    by_cases h0 : i = 0
    · rw [if_neg fun x => x.2 h0, h0, p_zero]; rfl
    · rw [decide_eq_false h0, Bool.false_or]
      by_cases he : i = n
      · rw [if_pos ⟨he, h0⟩, he]
      · rw [if_neg fun x => he x.1, ih (by omega), decide_eq_false h0, Bool.false_or]

/-- A 1 written to a bit of EVENT clears it. -/
theorem testBit_clearEvents (e v : Nat) {i : Nat} (h : i < 16) : (e &&& (0xFFFF ^^^ (v % 0x10000))).testBit i = (e.testBit i && !v.testBit i) := by
  rw [Nat.testBit_and, Nat.testBit_xor, show 0xFFFF = 2 ^ 16 - 1 from rfl, show 0x10000 = 2 ^ 16 from rfl, Nat.testBit_two_pow_sub_one, Nat.testBit_mod_two_pow,
    decide_eq_true h, Bool.true_and, Bool.true_xor]

theorem setThread_drew (who : Thr) (h : Thread) (s : State) : (setThread who h s).drew = setThread who h s.drew := by cases who <;> rfl
theorem fore_event_setThread (who : Thr) (h : Thread) (s : State) : (setThread who h s).fore.event = s.fore.event := by cases who <;> rfl

/-! The two instructions -/

section
variable {who : Thr} {gd : Prd} {c : Ctx} {s : State} (hr : Ready who gd c s)
include hr

theorem mfs_faults {rd : Reg} {sr : BitVec 12} {b : SlotB} {code : Nat} (h : mfsRes 0 c rd.val sr.toNat = bad code (BitVec.ofNat 64 sr.toNat)) :
    Issues c (.mfs who gd rd sr b) s (Faults c 0 code (sr.setWidth 64) s) := by
  rw [← BitVec.ofNat_toNat]; exact issues_fault hr rfl rfl h

theorem mts_faults {rs : Reg} {sr : BitVec 12} {b : SlotB} {code : Nat} (h : mtsRes rs sr c = bad code (BitVec.ofNat 64 sr.toNat)) :
    Issues c (.mts who gd rs sr b) s (Faults c 0 code (sr.setWidth 64) s) := by
  rw [← BitVec.ofNat_toNat]; exact issues_fault hr rfl rfl h

/-- MFS of a register of Table 06.4 that is not the random source. -/
theorem mfs_special {rd : Reg} {sr : BitVec 12} {v : W64} (h : 0x12 ≤ sr.toNat) (hf : isForeSr sr.toNat = false) (hd : sr.toNat ≠ 0x109)
    (hv : special 0 c sr.toNat = some v) : Issues c (.mfs who gd rd sr slotNop) s (WroteReg c rd v s) := by
  refine issues_reg hr rfl rfl ((mfsRes_special 0 c rd.val h hf).trans ?_)
  rw [hv, if_neg hd]
  rfl

/-- MFS of the random source draws once. -/
theorem mfs_random (rd : Reg) : Issues c (.mfs who gd rd 0x109 slotNop) s (WroteReg c rd ((Config.random s.draws).setWidth 64) s.drew) := by
  have hres : mfsRes 0 c rd.val 0x109 = .ok { noEff with regs := [(rd.val, (Config.random s.draws).setWidth 64)], act := State.drew } := by
    rw [← (ctxOf_some hr.ctx).2.2]; rfl
  refine issues_ok hr rfl rfl hres ?_
  show WroteReg c rd _ s.drew (setThread c.who (stepped (writeRegs [(rd.val, _)] c.h)) s).drew
  rw [setThread_drew]
  exact wroteReg

/-- MFS of a register that only the foreman has. -/
theorem mfs_foreSpecial {rd : Reg} {sr : BitVec 12} {v : W64} (h : isForeSr sr.toNat = true) (hf : c.isFore = true) (hv : ∀ t, foreSpecial c t sr.toNat = some v) :
    Issues c (.mfs who gd rd sr slotNop) s (WroteReg c rd v s) := by
  obtain ⟨t, ht⟩ := exists_fore_of_isFore hf
  exact issues_reg hr rfl rfl (mfsRes_foreSr_fore 0 rd.val h ht (hv t.val))

/-- An instruction that changes its item and nothing else but its place. -/
theorem issues_onItem {i : Instr} {a : Ctx → Res'} {it : Item} {f : Item → Item} (hb : bundleCmd i = some (who, gd, slotNop))
    (hx : exec i s = .next (issue i who gd a slotNop s)) (ha : a c = .ok { noEff with act := onItem c.who f }) (ht : c.h.tag = some it.tag) (hi : itemOf s it.tag = some it) :
    Issues c i s (fun t => t = setItem it.tag (some (f it)) (setThread who (stepped c.h) s)) := by
  refine issues_ok hr hb hx ha ?_
  rw [← (ctxOf_some hr.ctx).1]
  exact onItem_setThread f ht hi

end

/-- Settles O11, a register or a range of numbers at a time. -/
theorem nianoSpecial : Obligations.NianoSpecial := by
  intro who gd c s hr
  obtain ⟨hw, -, hs⟩ := ctxOf_some hr.ctx
  refine ⟨fun rd sr h => ⟨fun it hit => ?field, fun hno b => ?noItem⟩, ?time, ?steps, ?fcode, ?fpc, ?farg, ?preds, ?cycle, fun rd => mfs_random hr rd, ?priv,
    ?lifecycle, ?mode, ?event, ?item, ?toPreds, ?roDesc, ?ro, ?toEvent, ?undefined⟩
  case field => exact issues_reg hr rfl rfl ((mfsRes_desc 0 c rd.val h).trans (by rw [hit]))
  case noItem => exact mfs_faults hr ((mfsRes_desc 0 c rd.val h).trans (by rw [hno]; rfl))
  case time => exact fun rd => mfs_special hr (by decide) (by decide) (by decide) (hs ▸ rfl)
  case steps => exact fun rd => mfs_special hr (by decide) (by decide) (by decide) rfl
  case fcode => exact fun rd => mfs_special hr (by decide) (by decide) (by decide) rfl
  case fpc => exact fun rd => mfs_special hr (by decide) (by decide) (by decide) rfl
  case farg => exact fun rd => mfs_special hr (by decide) (by decide) (by decide) rfl
  case preds =>
    intro rd hi
    obtain ⟨t, ht, hreg⟩ := mfs_special hr (rd := rd) (sr := 0x108) (by decide) (by decide) (by decide) rfl hi
    exact ⟨t, ht, _, fun i => getLsbD_predWord c.h i.isLt, hreg⟩
  case cycle => exact fun rd => mfs_special hr (by decide) (by decide) (by decide) rfl
  case priv =>
    intro rd sr b h1 h2 hg
    have hf : isForeSr sr.toNat = true := by rw [isForeSr, decide_eq_true h1, decide_eq_true h2]; rfl
    exact mfs_faults hr (mfsRes_foreSr_gal 0 rd.val hf hg)
  case lifecycle => exact fun rd hf => mfs_foreSpecial hr (by decide) hf (fun _ => hs ▸ rfl)
  case mode => exact fun rd hf => mfs_foreSpecial hr (by decide) hf (fun _ => hs ▸ rfl)
  case event => exact fun rd hf => mfs_foreSpecial hr (by decide) hf (fun _ => hs ▸ rfl)
  case item =>
    intro rs it hg htag hit
    exact ⟨issues_onItem hr rfl rfl (mtsRes_class rs hg) htag hit, issues_onItem hr rfl rfl (mtsRes_color rs hg) htag hit⟩
  case toPreds =>
    intro rs
    refine issues_ok hr rfl rfl (mtsRes_preds rs c) ⟨_, (commit_preds ..).trans (by rw [hw]), writePreds_preds _ _, fun p => ?_⟩
    rw [p_writePreds_range _ 8 _ p.isLt]
    simp only [Fin.ext_iff]
    rfl
  case roDesc =>
    intro rs sr b hg h h4 h5
    exact mts_faults hr (mtsRes_ro_desc rs hg h (fun e => h4 (BitVec.eq_of_toNat_eq e)) (fun e => h5 (BitVec.eq_of_toNat_eq e)))
  case ro => exact fun rs sr b h1 h2 h8 => mts_faults hr (mtsRes_ro rs c ⟨h1, h2⟩ (fun e => h8 (BitVec.eq_of_toNat_eq e)))
  case toEvent =>
    intro rs hf
    refine issues_ok hr rfl rfl (mtsRes_event rs hf)
      ⟨fun i hi => ?_, (setThread who (stepped c.h) s).fore.event &&& (0xFFFF ^^^ ((c.h.g rs.val).toNat % 0x10000)), ?_⟩
    · rw [← fore_event_setThread c.who (stepped c.h) s]
      exact testBit_clearEvents _ _ hi
    · rw [← hw]; rfl
  case undefined => exact fun rs sr b h => ⟨mts_faults hr (mtsRes_noSr rs c h), mfs_faults hr (mfsRes_noSr 0 c rs.val h)⟩

end Sys2Proof.Machine
end

section
/-! PROOFS. Lookup, meter, counter and queue choice (O12; R189 to R192, R238): what each leaves in the thread, the tables, the meters, the counter bank and the item. -/
namespace Sys2Proof.Machine

/-! What a bundle leaves elsewhere does not depend on its thread -/

@[simp] theorem setThread_cls (who : Thr) (h : Thread) (s : State) : (setThread who h s).cls = s.cls := by cases who <;> rfl
@[simp] theorem setThread_wnd (who : Thr) (h : Thread) (s : State) : (setThread who h s).wnd = s.wnd := by cases who <;> rfl
@[simp] theorem setThread_time (who : Thr) (h : Thread) (s : State) : (setThread who h s).time = s.time := by cases who <;> rfl
@[simp] theorem setThread_pcnt (who : Thr) (h : Thread) (s : State) : (setThread who h s).gal.pcnt = s.gal.pcnt := by cases who <;> rfl

/-- A bundle that writes registers and predicates and acts outside the thread. -/
theorem commit_writes (c : Ctx) (l : List (Nat × W64)) (m : List (Nat × Bool)) (f : State → State) (s : State) :
    commit c { noEff with regs := l, preds := m, act := f } noEff s = f (setThread c.who (stepped (writePreds m (writeRegs l c.h))) s) := rfl

theorem tag_writeRegs (l : List (Nat × W64)) (h : Thread) : (writeRegs l h).tag = h.tag := by rw [writeRegs_regs]

theorem g_writeReg (h : Thread) (rd r : Reg) (v : W64) : (writeRegs [(rd.val, v)] h).g r.val = if r = rd ∧ r ≠ 0 then v else h.g r.val := by
  rw [writeRegs, writeRegs, g_setG]
  simp only [Fin.ext_iff, ne_eq]
  rfl

/-- Two predicates written, of which the first is p0 or not the second. -/
theorem p_writeTwo (h : Thread) {pt pf : Prd} (hne : pt ≠ pf ∨ pt = 0) (v w : Bool) (p : Prd) :
    (writePreds [(pt.val, v), (pf.val, w)] h).p p.val = if p = 0 then true else if p = pt then v else if p = pf then w else h.p p.val := by
  rw [writePreds, writePreds, writePreds, p_setP, p_setP]
  simp only [← Fin.ext_iff, ne_eq, Fin.val_eq_zero_iff]
  by_cases h0 : p = 0
  · simp [h0]
  · by_cases ht : p = pt
    · have hf : p ≠ pf := fun hf => hne.elim (fun h => h (ht.symm.trans hf)) (fun h => h0 (ht.trans h))
      rw [if_neg fun x => hf x.1, if_pos ⟨ht, h0⟩, if_neg h0, if_pos ht]
    · simp [h0, ht]

/-! Lookup (R189, R238) -/

/-- The peer table after a lookup: a hit is stamped. -/
def stampedPeers (key : Nat) (s : State) : Table Peer :=
  match findPeer s key with
  | some (i, p) => tset s.cls.peers i { p with hit := tblStamp s }
  | none => s.cls.peers

theorem lookPeer_snd (key : Nat) (s : State) : (lookPeer key s).2 = { s with cls := { s.cls with peers := stampedPeers key s } } := by
  unfold lookPeer stampedPeers
  cases findPeer s key <;> rfl

theorem findPeer_setThread (who : Thr) (h : Thread) (s : State) (key : Nat) : findPeer (setThread who h s) key = findPeer s key := by rw [findPeer, setThread_cls, findPeer]
theorem stampedPeers_setThread (who : Thr) (h : Thread) (s : State) (key : Nat) : stampedPeers key (setThread who h s) = stampedPeers key s := by
  unfold stampedPeers tblStamp
  rw [findPeer_setThread, setThread_cls, setThread_time]

theorem lkpRes_peer (rd ra : Reg) (pt pf : Prd) (c : Ctx) (h : (c.h.g ra.val).toNat < 2 ^ 60) : lkpRes rd ra 0 pt pf [] c =
    lkpAnswer rd pt pf ((findPeer c.s (c.h.g ra.val).toNat).map (fun e => e.2.res)) (fun s => (lookPeer (c.h.g ra.val).toNat s).2) := if_neg (Nat.not_le.2 h)

theorem lkpRes_key (rd ra : Reg) (pt pf : Prd) (c : Ctx) (h : 2 ^ 60 ≤ (c.h.g ra.val).toNat) : lkpRes rd ra 0 pt pf [] c = bad FC.TABLE_KEY (c.h.g ra.val) := if_pos h

theorem lkpRes_rule (rd ra : Reg) (pt pf : Prd) (c : Ctx) : lkpRes rd ra 1 pt pf [] c =
    match c.item with
    | some it => lkpAnswer rd pt pf ((matchRule c.s (ruleKey c.s (descriptor it c.h.wlen 0x001) it.flags c.h.win)).map (fun e => e.2.res)) id
    | none => bad FC.CONTEXT 0 := rfl

/-! Meter (R190) -/

theorem mtrRes_ok (rd ra rb : Reg) {c : Ctx} {it : Item} (hi : c.item = some it) (h : (c.h.g ra.val).toNat < 65536) : mtrRes rd ra rb c =
    .ok { noEff with
      regs := [(rd.val, BitVec.ofNat 64 (meterFrame (c.h.g ra.val).toNat (if rb = 0 then it.len else (c.h.g rb.val).toNat) it.color c.s).1)]
      act := fun s => onItem c.who (fun x => { x with color := (meterFrame (c.h.g ra.val).toNat (if rb = 0 then it.len else (c.h.g rb.val).toNat) it.color c.s).1 })
        (meterFrame (c.h.g ra.val).toNat (if rb = 0 then it.len else (c.h.g rb.val).toNat) it.color s).2 } := by
  have hrb : (rb = 0) = (rb.val = 0) := propext Fin.ext_iff
  unfold mtrRes
  simp only [hi, if_neg (Nat.not_le.2 h), hrb]

theorem meterFrame_setThread (m b pre : Nat) (who : Thr) (h : Thread) (s : State) :
    meterFrame m b pre (setThread who h s) = ((meterFrame m b pre s).1, setMeter m (meterStep (meterOf s m) s.time.up b pre).2 (setThread who h s)) := by
  unfold meterFrame meterOf
  rw [setThread_wnd, setThread_time]

theorem threadOf_setMeter (m : Nat) (x : Meter) (s : State) (who : Thr) : threadOf (setMeter m x s) who = threadOf s who := by cases who <;> rfl

/-! Counters (R191) -/

theorem bumpBank_logged (k n : Nat) (s : State) :
    Logged { s with gal := { s.gal with pcnt := tput nat0 s.gal.pcnt k (count40 (tget nat0 s.gal.pcnt k) n) } } (bumpBank k n s) := by
  unfold bumpBank
  dsimp only
  split
  · exact (event_raised _ _ (by decide)).1
  · exact .refl _

theorem Logged.withGal {s t : State} (h : Logged s t) (x : Galleries) : Logged { s with gal := x } { t with gal := x } := by
  obtain ⟨e, r, p, o⟩ := h
  exact ⟨by rw [e], r, p, o⟩

/-- Two entries of the bank counted one after the other: only they change, and the rest is what recording events leaves. -/
theorem bumpBank_pair (k n : Nat) (s : State) :
    ∃ m, Logged { s with gal := { s.gal with pcnt := m } } (bumpBank (2 * k + 1) n (bumpBank (2 * k) 1 s)) ∧
      tget nat0 (bumpBank (2 * k + 1) n (bumpBank (2 * k) 1 s)).gal.pcnt (2 * k) = count40 (tget nat0 s.gal.pcnt (2 * k)) 1 ∧
      tget nat0 (bumpBank (2 * k + 1) n (bumpBank (2 * k) 1 s)).gal.pcnt (2 * k + 1) = count40 (tget nat0 s.gal.pcnt (2 * k + 1)) n ∧
      ∀ j, j ≠ 2 * k → j ≠ 2 * k + 1 → tget nat0 (bumpBank (2 * k + 1) n (bumpBank (2 * k) 1 s)).gal.pcnt j = tget nat0 s.gal.pcnt j := by
  have h1 := bumpBank_logged (2 * k) 1 s
  have h2 := bumpBank_logged (2 * k + 1) n (bumpBank (2 * k) 1 s)
  rw [h1.gal] at h2
  refine ⟨_, (h1.withGal _).trans h2, ?_, ?_, fun j ha hb => ?_⟩ <;> rw [h2.gal]
  · rw [tget_tput_ne _ _ _ (by omega), tget_tput_same]
  · rw [tget_tput_same, tget_tput_ne _ _ _ (by omega)]
  · rw [tget_tput_ne _ _ _ hb, tget_tput_ne _ _ _ ha]

theorem cntRes_ok (ra rb : Reg) {c : Ctx} {it : Item} (hi : c.item = some it) (h : (c.h.g ra.val).toNat < 131072) : cntRes ra rb c =
    .ok { noEff with
      act := fun s => bumpBank (2 * (c.h.g ra.val).toNat + 1) (if rb = 0 then it.len else (c.h.g rb.val).toNat) (bumpBank (2 * (c.h.g ra.val).toNat) 1 s) } := by
  have hrb : (rb = 0) = (rb.val = 0) := propext Fin.ext_iff
  unfold cntRes
  simp only [hi, if_neg (Nat.not_le.2 h), hrb]

/-! Queue choice (R192) -/

theorem windowRo_item {c : Ctx} {it : Item} (hi : c.item = some it) : windowRo c = true ↔ 32 ≤ it.dom ∧ it.dom < 96 := by
  simp only [windowRo, Ctx.dom, hi, Bool.and_eq_true, decide_eq_true_eq]

theorem putRes_ok {ra : Reg} {c : Ctx} {it : Item} (hi : c.item = some it) (hd : it.dom < 64 ∨ 96 ≤ it.dom) (hq : (c.h.g ra.val).toNat < 1024)
    (he : egressOf (c.h.g ra.val).toNat = it.target) : putRes ra c = .ok { noEff with act := onItem c.who (fun x => { x with queue := (c.h.g ra.val).toNat }) } := by
  have hno : ¬ (1024 ≤ (c.h.g ra.val).toNat ∨ windowRo c = true ∧ 64 ≤ it.dom ∨ egressOf (c.h.g ra.val).toNat ≠ it.target) := by
    rw [windowRo_item hi]; omega
  unfold putRes
  simp only [hi, if_neg hno]

theorem putRes_queue {ra : Reg} {c : Ctx} {it : Item} (hi : c.item = some it) (h : 1024 ≤ (c.h.g ra.val).toNat ∨ egressOf (c.h.g ra.val).toNat ≠ it.target) :
    putRes ra c = bad FC.QUEUE (c.h.g ra.val) := by
  unfold putRes
  simp only [hi, if_pos (h.imp_right Or.inr)]

/-! The statement -/

section
variable {who : Thr} {gd : Prd} {c : Ctx} {s : State} (hr : Ready who gd c s)
include hr

theorem lkp_peer {rd ra : Reg} {pt pf : Prd} (hne : pt ≠ pf ∨ pt = 0) {key : Nat} (hk : key = (c.h.g ra.val).toNat) (hlt : key < 2 ^ 60) :
    Issues c (.lkp who gd rd ra 0 pt pf [] slotNop) s (fun t => ∃ h, t = { setThread who (stepped h) s with cls := { s.cls with peers := stampedPeers key s } } ∧
      h = { c.h with regs := h.regs, preds := h.preds } ∧
      (∀ r : Reg, h.g r.val = if r = rd ∧ r ≠ 0 then ((findPeer s key).map (fun e => e.2.res)).getD 0 else c.h.g r.val) ∧
      ∀ p : Prd, h.p p.val = if p = 0 then true else if p = pt then (findPeer s key).isSome else if p = pf then (findPeer s key).isNone else c.h.p p.val) := by
  obtain ⟨hw, -, hs⟩ := ctxOf_some hr.ctx
  subst hk
  refine issues_ok hr rfl rfl (lkpRes_peer rd ra pt pf c hlt) ?_
  rw [commit_writes, lookPeer_snd, stampedPeers_setThread, hs, setThread_cls, hw]
  refine ⟨_, rfl, (onlyWrites_writeRegs _ c.h).trans (onlyWrites_writePreds _ _), fun r => ?_, fun p => ?_⟩
  · rw [g_writePreds, g_writeReg]
  · rw [p_writeTwo _ hne, p_writeRegs, Option.isSome_map, Option.isNone_map]

theorem lkp_rule {rd ra : Reg} {pt pf : Prd} {it : Item} (hit : c.item = some it) :
    Issues c (.lkp who gd rd ra 1 pt pf [] slotNop) s (fun t => ∃ h, t = setThread who (stepped h) s ∧ h = { c.h with regs := h.regs, preds := h.preds } ∧
      ∀ r : Reg, h.g r.val = if r = rd ∧ r ≠ 0 then
        ((matchRule s (ruleKey s (descriptor it c.h.wlen 0x001) it.flags c.h.win)).map (fun e => e.2.res)).getD 0 else c.h.g r.val) := by
  obtain ⟨hw, -, hs⟩ := ctxOf_some hr.ctx
  refine issues_ok hr rfl rfl ((lkpRes_rule rd ra pt pf c).trans (by rw [hit]; rfl)) ?_
  rw [commit_writes, hw, hs]
  refine ⟨_, rfl, (onlyWrites_writeRegs _ c.h).trans (onlyWrites_writePreds _ _), fun r => ?_⟩
  rw [g_writePreds, g_writeReg]

/-- A meter colours its item and the register that asks, and takes its own tokens. -/
theorem mtr_ok {rd ra rb : Reg} {it : Item} {k n : Nat} (hit : c.item = some it) (htag : c.h.tag = some it.tag) (hi : itemOf s it.tag = some it)
    (hk : k = (c.h.g ra.val).toNat) (hn : n = if rb = 0 then it.len else (c.h.g rb.val).toNat) (h : k < 65536) :
    Issues c (.mtr who gd rd ra rb slotNop) s (fun t => ∃ h col m, t = { setItem it.tag (some { it with color := col }) (setThread who (stepped h) s) with
        wnd := { s.wnd with meters := tput meter0 s.wnd.meters k m } } ∧
      (col, m) = meterStep (tget meter0 s.wnd.meters k) s.time.up n it.color ∧
      h = { c.h with regs := h.regs } ∧ ∀ r : Reg, h.g r.val = if r = rd ∧ r ≠ 0 then BitVec.ofNat 64 col else c.h.g r.val) := by
  obtain ⟨hw, -, hs⟩ := ctxOf_some hr.ctx
  subst hk
  refine issues_ok hr rfl rfl (mtrRes_ok rd ra rb hit h) ?_
  rw [← hn, hs]
  refine ⟨writeRegs [(rd.val, _)] c.h, _, (meterStep (meterOf s (c.h.g ra.val).toNat) s.time.up n it.color).2, ?_, rfl, writeRegs_regs _ _, fun r => g_writeReg ..⟩
  rw [commit_writes, meterFrame_setThread, hw, onItem_of (it := it)]
  · unfold setMeter setItem
    rw [setThread_wnd]
    rfl
  · rw [threadOf_setMeter, threadOf_setThread]
    exact (tag_writeRegs _ c.h).trans htag
  · exact (itemOf_setThread ..).trans hi

/-- Both counters of a pair, the second by the bytes that the instruction names. -/
theorem cnt_ok {ra rb : Reg} {it : Item} {k n : Nat} (hit : c.item = some it) (hk : k = (c.h.g ra.val).toNat) (hn : n = if rb = 0 then it.len else (c.h.g rb.val).toNat)
    (h : k < 131072) : Issues c (.cnt who gd ra rb slotNop) s (fun t =>
      tget nat0 t.gal.pcnt (2 * k) = (tget nat0 s.gal.pcnt (2 * k) + 1) % 2 ^ 40 ∧ tget nat0 t.gal.pcnt (2 * k + 1) = (tget nat0 s.gal.pcnt (2 * k + 1) + n) % 2 ^ 40 ∧
      (∀ j, j ≠ 2 * k → j ≠ 2 * k + 1 → tget nat0 t.gal.pcnt j = tget nat0 s.gal.pcnt j) ∧
      ∃ m, Logged { setThread who (stepped c.h) s with gal := { (setThread who (stepped c.h) s).gal with pcnt := m } } t) := by
  subst hk
  refine issues_ok hr rfl rfl (cntRes_ok ra rb hit h) ?_
  rw [← hn, commit_writes, (ctxOf_some hr.ctx).1]
  obtain ⟨m, hlog, h1, h2, h3⟩ := bumpBank_pair (c.h.g ra.val).toNat n (setThread who (stepped c.h) s)
  rw [setThread_pcnt] at h1 h2 h3
  exact ⟨h1, h2, h3, m, hlog⟩

end

/-- Settles O12, an instruction at a time; the foreman has no item, so what needs one faults there. -/
theorem nianoTables : Obligations.NianoTables := by
  intro who gd c s hr g
  refine ⟨fun rd ra pt pf hne hk => ?peer, fun rd ra pt pf b hk => ?key, fun rd ra pt pf it hit _ => lkp_rule hr hit,
    fun rd ra rb it hit htag hi hm => mtr_ok hr hit htag hi rfl rfl hm, fun rd ra rb b hit hm => ?meter, fun ra rb it hit hk => cnt_ok hr hit rfl rfl hk,
    fun ra rb b hit hk => ?counter, fun ra it hit htag hi hd => ⟨fun hq he => ?put, fun b h => ?queue⟩, fun hf rd ra rb pt pf b => ?fore⟩
  case peer =>
    intro hi
    obtain ⟨t, ht, h, e, he, hg, hp⟩ := lkp_peer hr (rd := rd) (pf := pf) hne (ra := ra) rfl hk hi
    refine ⟨t, ht, h, _, e, he, hg, hp, ?_⟩
    unfold stampedPeers
    cases findPeer s (c.h.g ra.val).toNat <;> rfl
  case key => exact issues_fault hr rfl rfl (lkpRes_key rd ra pt pf c hk)
  case meter =>
    obtain ⟨it, hit⟩ := Option.isSome_iff_exists.1 hit
    exact issues_fault hr rfl rfl (a := mtrRes rd ra rb) (by unfold mtrRes; rw [hit]; exact if_pos hm)
  case counter =>
    obtain ⟨it, hit⟩ := Option.isSome_iff_exists.1 hit
    exact issues_fault hr rfl rfl (a := cntRes ra rb) (by unfold cntRes; rw [hit]; exact if_pos hk)
  case put => exact issues_onItem hr rfl rfl (putRes_ok hit hd hq he) htag hi
  case queue => exact issues_fault hr rfl rfl (putRes_queue hit h)
  case fore =>
    have hno := item_none_of_isFore hr.ctx hf
    refine ⟨?_, ?_, ?_, ?_⟩
    · exact issues_fault hr rfl rfl (a := mtrRes rd ra rb) (by unfold mtrRes; rw [hno]; rfl)
    · exact issues_fault hr rfl rfl (a := cntRes ra rb) (by unfold cntRes; rw [hno]; rfl)
    · exact issues_fault hr rfl rfl (a := putRes ra) (by unfold putRes; rw [hno]; rfl)
    · exact issues_fault hr rfl rfl ((lkpRes_rule rd ra pt pf c).trans (by rw [hno]; rfl))

end Sys2Proof.Machine
end

section
/-! PROOFS. The register map (R390, R391): which description an offset has, and what the order-writable fields of a word read as once an order has written it. -/
namespace Sys2Proof.Machine

/-! Where a description's words lie -/

/-- The end of the range of offsets that a description's words lie in. -/
def RegDesc.reach (d : RegDesc) : Nat := if d.s1 = 0 then d.base + 1 else d.base + d.s1 * d.n1

/-- Two descriptions share no word: their ranges do not meet, or they are rows of one stride at different places in it. -/
def RegDesc.apart (x d : RegDesc) : Bool :=
  decide (x.reach ≤ d.base) || decide (d.reach ≤ x.base) ||
  (decide (x.s1 = d.s1) && decide (x.s1 ≠ 0) && decide (x.s2 = 0) && decide (d.s2 = 0) && decide (x.base % x.s1 ≠ d.base % d.s1))

namespace RegDesc

/-- A description covers offsets of its range only. -/
theorem covers_range {d : RegDesc} {off : Nat} (h : d.covers off = true) : d.base ≤ off ∧ off < d.reach := by
  unfold covers at h
  unfold reach
  split at h
  · cases h
  · next hb =>
    refine ⟨Nat.not_lt.1 hb, ?_⟩
    split at h
    · next hs =>
      rw [if_pos hs, eq_of_beq h]
      exact Nat.lt_succ_self _
    · next hs =>
      rw [Bool.and_eq_true, decide_eq_true_eq, Nat.div_lt_iff_lt_mul (Nat.pos_of_ne_zero hs), Nat.mul_comm] at h
      rw [if_neg hs]
      omega

/-- The words of a row lie at one place in its stride. -/
theorem covers_stride {d : RegDesc} {off : Nat} (h : d.covers off = true) (h1 : d.s1 ≠ 0) (h2 : d.s2 = 0) : off % d.s1 = d.base % d.s1 := by
  obtain ⟨k, hk⟩ := Nat.exists_eq_add_of_le (covers_range h).1
  unfold covers at h
  rw [if_neg (by omega), if_neg h1, if_pos h2, Bool.and_eq_true, beq_iff_eq, hk, Nat.add_sub_cancel_left] at h
  rw [hk, Nat.add_mod, h.2, Nat.add_zero, Nat.mod_mod]

/-- A row covers each of its words. -/
theorem covers_row {d : RegDesc} {i : Nat} (h1 : d.s1 ≠ 0) (h2 : d.s2 = 0) (hi : i < d.n1) : d.covers (d.base + d.s1 * i) = true := by
  unfold covers
  rw [if_neg (by omega), if_neg h1, if_pos h2, Nat.add_sub_cancel_left, Nat.mul_div_cancel_left _ (Nat.pos_of_ne_zero h1), Nat.mul_mod_right]
  simpa using hi

theorem covers_of_apart {x d : RegDesc} {off : Nat} (h : x.apart d = true) (hd : d.covers off = true) : x.covers off = false := by
  rw [Bool.eq_false_iff]
  intro hx
  obtain ⟨hx1, hx2⟩ := covers_range hx
  obtain ⟨hd1, hd2⟩ := covers_range hd
  simp only [apart, Bool.or_eq_true, Bool.and_eq_true, decide_eq_true_eq] at h
  rcases h with (h | h) | ⟨⟨⟨⟨hs, h1⟩, hx0⟩, hd0⟩, hne⟩
  · omega
  · omega
  · exact hne ((covers_stride hx h1 hx0).symm.trans (hs ▸ covers_stride hd (hs ▸ h1) hd0))

end RegDesc

/-- A description that shares no word with the others is found at each of its words. -/
theorem descAt_of_apart {d : RegDesc} {off : Nat} (h : regDescs.filter (fun x => !x.apart d) = [d]) (hc : d.covers off = true) : descAt off = some d := by
  have hd : d ∈ regDescs := (List.mem_filter.1 (h ▸ List.mem_singleton.2 rfl)).1
  obtain ⟨x, hx⟩ := Option.isSome_iff_exists.1 (List.find?_isSome.2 ⟨d, hd, hc⟩ : (regDescs.find? (fun d => d.covers off)).isSome = true)
  have hxc : x.covers off = true := List.find?_some (p := fun d : RegDesc => d.covers off) hx
  have hxd : x ∈ regDescs.filter (fun x => !x.apart d) := by
    refine List.mem_filter.2 ⟨List.mem_of_find?_eq_some hx, ?_⟩
    rw [Bool.not_eq_true', Bool.eq_false_iff]
    intro ha
    rw [RegDesc.covers_of_apart ha hc] at hxc
    cases hxc
  rw [h, List.mem_singleton] at hxd
  rw [descAt, hx, hxd]

/-! The order-writable bits of a word -/

/-- A field whose bits a mask holds reads from the word the mask takes it from. -/
theorem fget_mask (w v m : W64) (f : Fld) (h : fget m f = 2 ^ f.len - 1) : fget ((w &&& ~~~ m) ||| (v &&& m)) f = fget v f := by
  apply Nat.eq_of_testBit_eq
  intro i
  have hm := congrArg (fun n => n.testBit i) h
  simp only [fget, nbits, Nat.testBit_mod_two_pow, Nat.testBit_div_two_pow, Nat.testBit_two_pow_sub_one, BitVec.testBit_toNat] at hm ⊢
  by_cases hi : i < f.len
  · have hk : m.getLsbD (i + f.lo) = true := by simpa [hi] using hm
    simp [hk]
  · simp [hi]

theorem owPut_of_descAt {off : Nat} {d : RegDesc} (h : descAt off = some d) (s : State) (v : W64) :
    owPut s off v = (s.reg off &&& ~~~ typeMask .ow d.fields) ||| (v &&& typeMask .ow d.fields) := by
  rw [owPut, h]

/-- An order-writable field reads as an order has written it. -/
theorem fld_setOw_same {off : Nat} {d : RegDesc} {f : Fld} (h : descAt off = some d) (s : State) (v : W64) (hf : fget (typeMask .ow d.fields) f = 2 ^ f.len - 1) :
    (setOw off v s).fld off f = fget v f := by
  rw [State.fld, setOw, reg_setReg_same, owPut_of_descAt h, fget_mask _ _ _ _ hf]

theorem fld_setOw_ne {off k : Nat} (s : State) (v : W64) (f : Fld) (h : k ≠ off) : (setOw off v s).fld k f = s.fld k f := by
  rw [State.fld, setOw, reg_setReg_ne _ _ h, State.fld]

theorem setOw_regsBut (s : State) (off : Nat) (v : W64) : RegsBut [off] s (setOw off v s) :=
  fun _ hk => reg_setReg_ne s _ (List.ne_of_not_mem_cons hk)

theorem RegsBut.mono {l m : List Nat} {s t : State} (h : RegsBut l s t) (hl : l ⊆ m) : RegsBut m s t := fun o ho => h o (fun hm => ho (hl hm))

/-! The words of a queue (Table 09.11) -/

def descQLimits : RegDesc := ⟨"Q_LIMITS", 0x901000, 0x80, 1024, 0x0, 1, [⟨0, 20, .ow, 0x200⟩, ⟨20, 20, .ow, 0x180⟩, ⟨40, 8, .ow, 0x0⟩, ⟨48, 1, .ow, 0x1⟩]⟩
def descQFlow : RegDesc := ⟨"Q_FLOW", 0x901008, 0x80, 1024, 0x0, 1, [⟨0, 20, .ow, 0x100⟩, ⟨20, 20, .ow, 0xC0⟩, ⟨40, 1, .ow, 0x0⟩]⟩
def descQSched : RegDesc := ⟨"Q_SCHED", 0x901010, 0x80, 1024, 0x0, 1, [⟨0, 8, .ow, 0x1⟩, ⟨8, 32, .ow, 0x0⟩]⟩

section
variable {n : Nat} (h : n < 1024)
include h

theorem descAt_qLimits : descAt (Reg.Q_LIMITS n) = some descQLimits :=
  descAt_of_apart (by decide +kernel) (RegDesc.covers_row (d := descQLimits) (by decide) rfl h)
theorem descAt_qFlow : descAt (Reg.Q_FLOW n) = some descQFlow :=
  descAt_of_apart (by decide +kernel) (RegDesc.covers_row (d := descQFlow) (by decide) rfl h)
theorem descAt_qSched : descAt (Reg.Q_SCHED n) = some descQSched :=
  descAt_of_apart (by decide +kernel) (RegDesc.covers_row (d := descQSched) (by decide) rfl h)

end

theorem qFlow_ne_qLimits (n : Nat) : Reg.Q_FLOW n ≠ Reg.Q_LIMITS n := by unfold Reg.Q_FLOW Reg.Q_LIMITS; omega
theorem qSched_ne_qLimits (n : Nat) : Reg.Q_SCHED n ≠ Reg.Q_LIMITS n := by unfold Reg.Q_SCHED Reg.Q_LIMITS; omega
theorem qSched_ne_qFlow (n : Nat) : Reg.Q_SCHED n ≠ Reg.Q_FLOW n := by unfold Reg.Q_SCHED Reg.Q_FLOW; omega

end Sys2Proof.Machine
end

section
/-! PROOFS. The orders on the winder (Table 07.9; R257, R258, R262, R265, R266, R272, R274, R276): what each operation leaves, and what each body does with arguments that fit and with those that do not. -/
namespace Sys2Proof.Machine

/-! A queue's parameters (R272, R276) -/

/-- The three words of a queue as QUEUE_CFG writes them. -/
def withQueue (n : Nat) (limits flow sched : W64) (s : State) : State := setOw (Reg.Q_SCHED n) sched (setOw (Reg.Q_FLOW n) flow (setOw (Reg.Q_LIMITS n) limits s))

section
variable {n : Nat} (hn : n < 1024) (limits flow sched : W64) (s : State)
include hn

theorem fld_withQueue_limits {f : Fld} (hf : fget (typeMask .ow descQLimits.fields) f = 2 ^ f.len - 1) :
    (withQueue n limits flow sched s).fld (Reg.Q_LIMITS n) f = fget limits f := by
  rw [withQueue, fld_setOw_ne _ _ _ (qSched_ne_qLimits n).symm, fld_setOw_ne _ _ _ (qFlow_ne_qLimits n).symm, fld_setOw_same (descAt_qLimits hn) _ _ hf]

theorem fld_withQueue_flow {f : Fld} (hf : fget (typeMask .ow descQFlow.fields) f = 2 ^ f.len - 1) :
    (withQueue n limits flow sched s).fld (Reg.Q_FLOW n) f = fget flow f := by
  rw [withQueue, fld_setOw_ne _ _ _ (qSched_ne_qFlow n).symm, fld_setOw_same (descAt_qFlow hn) _ _ hf]

theorem fld_withQueue_sched {f : Fld} (hf : fget (typeMask .ow descQSched.fields) f = 2 ^ f.len - 1) :
    (withQueue n limits flow sched s).fld (Reg.Q_SCHED n) f = fget sched f := fld_setOw_same (descAt_qSched hn) _ _ hf

end

theorem withQueue_regsBut (n : Nat) (limits flow sched : W64) (s : State) :
    RegsBut [Reg.Q_LIMITS n, Reg.Q_FLOW n, Reg.Q_SCHED n] s (withQueue n limits flow sched s) :=
  (((setOw_regsBut s _ _).mono (by simp)).trans ((setOw_regsBut _ _ _).mono (by simp))).trans ((setOw_regsBut _ _ _).mono (by simp))

theorem withQueue_eq (n : Nat) (limits flow sched : W64) (s : State) :
    withQueue n limits flow sched s = { s with regs := (withQueue n limits flow sched s).regs } := by
  unfold withQueue setOw State.setReg; rfl

/-! The instant a list waits for (R266) -/

/-- A number rounded up to a multiple of c is the first multiple that is not below it. -/
theorem ceilDiv_mul_bounds (x : Nat) {c : Nat} (hc : 0 < c) : x ≤ ceilDiv x c * c ∧ ceilDiv x c * c < x + c := by
  have hdiv := Nat.div_add_mod (x + (c - 1)) c
  have hmod := Nat.mod_lt (x + (c - 1)) hc
  rw [ceilDiv, Nat.mul_comm]
  omega

/-- A list starts at the first instant base + n · CYCLE that is not before now. -/
theorem startFrom_first (l : GList) (now : Nat) :
    now ≤ l.startFrom now ∧ l.base ≤ l.startFrom now ∧ (l.startFrom now - l.base) % max 1 l.cycle = 0 ∧
      (l.startFrom now = l.base ∨ l.startFrom now < now + max 1 l.cycle) := by
  unfold GList.startFrom
  split
  · next h => exact ⟨h, Nat.le_refl _, by rw [Nat.sub_self, Nat.zero_mod], .inl rfl⟩
  · next h =>
    obtain ⟨hle, hlt⟩ := ceilDiv_mul_bounds (now - l.base) (c := max 1 l.cycle) (by omega)
    exact ⟨by omega, by omega, by rw [Nat.add_sub_cancel_left, Nat.mul_mod_left], .inr (by omega)⟩

theorem listEntries_eq_nil (b : Bytes) (n : Nat) : listEntries b n = [] ↔ n = 0 := by simp [listEntries]

/-! Drop notifications (R274) -/

/-- Tokens of the notification bucket that DROP_NOTIFY starts from: those of now where notifications are on, else a full bucket (log entry 78). -/
def notifyTokens (s : State) : Nat := if s.flag Reg.WND_DN_CFG Fd.WND_DN_CFG_EN then noteTokens s else 64000000000

/-- The notification bucket holds those tokens from now on. -/
def rebucketed (s : State) : State := { s with wnd := { s.wnd with dnTokens := notifyTokens s, dnLast := s.time.up } }

/-- WND_DN_CFG as DROP_NOTIFY writes it. -/
def withNotify (fn rate : Nat) (s : State) : State :=
  ((s.setFld Reg.WND_DN_CFG Fd.WND_DN_CFG_FN fn).setFld Reg.WND_DN_CFG Fd.WND_DN_CFG_RATE rate).setFld Reg.WND_DN_CFG Fd.WND_DN_CFG_EN (b2n (rate != 0))

theorem withNotify_regsBut (fn rate : Nat) (s : State) : RegsBut [Reg.WND_DN_CFG] s (withNotify fn rate s) :=
  ((setFld_regsBut s _ _ _).trans (setFld_regsBut _ _ _ _)).trans (setFld_regsBut _ _ _ _)

theorem withNotify_eq (fn rate : Nat) (s : State) : withNotify fn rate s = { s with regs := (withNotify fn rate s).regs } := by
  unfold withNotify State.setFld State.setReg; rfl

theorem fn_withNotify {fn : Nat} (rate : Nat) (s : State) (h : fn < 16) : (withNotify fn rate s).fld Reg.WND_DN_CFG Fd.WND_DN_CFG_FN = fn := by
  rw [withNotify, fld_setFld_ne _ _ _ _ _ (by decide), fld_setFld_ne _ _ _ _ _ (by decide), fld_setFld_same _ _ _ _ (by decide)]
  exact Nat.mod_eq_of_lt h

theorem rate_withNotify (fn : Nat) {rate : Nat} (s : State) (h : rate ≤ 1000000) : (withNotify fn rate s).fld Reg.WND_DN_CFG Fd.WND_DN_CFG_RATE = rate := by
  rw [withNotify, fld_setFld_ne _ _ _ _ _ (by decide), fld_setFld_same _ _ _ _ (by decide)]
  exact Nat.mod_eq_of_lt (Nat.lt_of_le_of_lt h (by decide))

/-- Notifications are on where the rate is not zero. -/
theorem enabled_withNotify (fn rate : Nat) (s : State) : (withNotify fn rate s).flag Reg.WND_DN_CFG Fd.WND_DN_CFG_EN = decide (rate ≠ 0) := by
  rw [State.flag, withNotify, fld_setFld_same _ _ _ _ (by decide)]
  by_cases h : rate = 0 <;> simp [h, b2n, Fd.WND_DN_CFG_EN]

theorem reasons_withNotify (fn rate : Nat) (s : State) :
    (withNotify fn rate s).fld Reg.WND_DN_CFG Fd.WND_DN_CFG_REASON_MASK = s.fld Reg.WND_DN_CFG Fd.WND_DN_CFG_REASON_MASK := by
  rw [withNotify, fld_setFld_ne _ _ _ _ _ (by decide), fld_setFld_ne _ _ _ _ _ (by decide), fld_setFld_ne _ _ _ _ _ (by decide)]

/-! The bodies -/

section
variable {q : OrdReq} {s : State}

theorem queueCfgBody_ok (hn : q.arg 0 < 1024) (hf : queueFits s (q.arg 0) (q.argW 1) (q.argW 2) (q.argW 3) = true) (hc : claimOn s (.queue (q.arg 0)) = none) :
    queueCfgBody q s = (.done St.OK [], withQueue (q.arg 0) (q.argW 1) (q.argW 2) (q.argW 3) s) := by
  unfold queueCfgBody
  dsimp only
  rw [hf, if_neg (by simpa using hn), hc]
  rfl

theorem queueCfgBody_unfit (hf : queueFits s (q.arg 0) (q.argW 1) (q.argW 2) (q.argW 3) = false) : queueCfgBody q s = (.done St.UNSUPPORTED [], s) :=
  if_pos (.inr (by rw [hf]; rfl))

theorem meterCfgBody_ok (h0 : q.arg 0 < 2 ^ 18) (h1 : q.arg 1 ≤ 1600000000) (h2 : q.arg 2 < 2 ^ 24) (h3 : q.arg 3 ≤ 1600000000) (h4 : q.arg 4 < 2 ^ 24) :
    meterCfgBody q s = (.done St.OK [], setMeter (q.arg 0 % 2 ^ 16) (meterSet (meterOf s (q.arg 0 % 2 ^ 16)) q s.time.up) s) :=
  if_neg (by omega)

theorem shaperCfgBody_ok (h0 : q.arg 0 < 1088) (h1 : q.arg 1 ≤ 1600000000) (h2 : q.arg 2 < 2 ^ 24) :
    shaperCfgBody q s = (.done St.OK [], setShaper (q.arg 0) ((shaperOf s (q.arg 0)).set (q.arg 1) (q.arg 2)) s) :=
  if_neg (by omega)

theorem shaperCfgBody_unfit (h : 1088 ≤ q.arg 0 ∨ 1600000000 < q.arg 1 ∨ 2 ^ 24 ≤ q.arg 2) : shaperCfgBody q s = (.done St.UNSUPPORTED [], s) := if_pos h

/-- A list of a port that awaits no other is read, and taken or refused by its count and its entries. -/
theorem gateListBody_read {b : Bytes} (he : q.arg 0 < 64) (hc : claimOn s (.gateList (q.arg 0)) = none) (hn : (egressAt s (q.arg 0)).next = none)
    (hr : ordRead q s (q.arg 1) 2064 = some b) :
    gateListBody q s = if 256 < be b 4 2 ∨ (be b 4 2 ≠ 0 ∧ !listFits (be b 0 4) (listEntries b (be b 4 2))) then ordSt St.UNSUPPORTED s
      else ordOk (addClaim (q.claim (.gateList (q.arg 0))) (gateListSet (q.arg 0) (be b 0 4) (q.arg 2) (listEntries b (be b 4 2)) s)) := by
  unfold gateListBody
  dsimp only
  rw [if_neg (Nat.not_le.2 he), hc, hn, hr]
  rfl

theorem dropNotifyBody_ok (h0 : q.arg 0 < 16) (h1 : q.arg 1 ≤ 1000000) :
    dropNotifyBody q s = (.done St.OK [], withNotify (q.arg 0) (q.arg 1) (rebucketed s)) :=
  if_neg (by omega)

end

end Sys2Proof.Machine
end

section
/-! PROOFS. The statement on the winder orders, a lemma for each clause's command. -/
namespace Sys2Proof.Machine

/-! What these orders find in the state they begin from -/

theorem begun_wnd (q : OrdReq) (s : State) : (begun q s).wnd = s.wnd := by rw [begun_eq]
theorem begun_time (q : OrdReq) (s : State) : (begun q s).time = s.time := by rw [begun_eq]
theorem begun_meterOf (q : OrdReq) (s : State) (m : Nat) : meterOf (begun q s) m = meterOf s m := by rw [meterOf, begun_wnd, meterOf]
theorem begun_shaperOf (q : OrdReq) (s : State) (i : Nat) : shaperOf (begun q s) i = shaperOf s i := by rw [shaperOf, begun_wnd, shaperOf]
theorem begun_egressAt (q : OrdReq) (s : State) (e : Nat) : egressAt (begun q s) e = egressAt s e := by rw [egressAt, begun_wnd, egressAt]
theorem begun_queueFits (q : OrdReq) (s : State) (n : Nat) (limits flow sched : W64) : queueFits (begun q s) n limits flow sched = queueFits s n limits flow sched := by
  rw [begun_eq]; rfl
theorem begun_notifyTokens (q : OrdReq) (s : State) : notifyTokens (begun q s) = notifyTokens s := by rw [begun_eq]; rfl

theorem ordered_argW (code : Nat) (o : OrdBy) (args : List W64) (s : State) (k : Nat) : (ordered code o args s).argW k = args.getD k 0 := by
  rw [OrdReq.argW, ordered_args]

/-! QUEUE_CFG -/

section
variable {o : OrdBy} {s : State} {queue limits flow sched : W64} {q : OrdReq} (hq : q = ordered 0x601 o [queue, limits, flow, sched] s) (hacc : Accepted q s)
include hq hacc

theorem queueCfg_ok (hn : queue.toNat < 1024) (hf : queueFits s queue.toNat limits flow sched = true) (hc : claimOn s (.queue queue.toNat) = none) :
    exec (.queueCfg o queue limits flow sched) s = .next (orderEnds q St.OK [] (withQueue queue.toNat limits flow sched (begun q s))) := by
  have hbody := queueCfgBody_ok (q := q) (s := begun q s)
  rw [begun_queueFits, begun_claimOn, hq, ordered_arg, ordered_argW, ordered_argW, ordered_argW, ← hq] at hbody
  subst hq
  exact congrArg _ (orderRow_done hacc (hbody hn hf hc))

theorem queueCfg_unfit (hf : queueFits s queue.toNat limits flow sched = false) :
    exec (.queueCfg o queue limits flow sched) s = .next (orderEnds q St.UNSUPPORTED [] (begun q s)) := by
  have hbody := queueCfgBody_unfit (q := q) (s := begun q s)
  rw [begun_queueFits, hq, ordered_arg, ordered_argW, ordered_argW, ordered_argW, ← hq] at hbody
  subst hq
  exact congrArg _ (orderRow_done hacc (hbody hf))

end

/-! METER_CFG -/

/-- A meter as METER_CFG sets it: one that it enables starts with both buckets full, one that was enabled keeps what fits in them (R258). -/
def meterWith (x : Meter) (meter cir cbs eir ebs : W64) (now : Nat) : Meter :=
  let fresh := meter.getLsbD 17 && !x.enable
  { enable := meter.getLsbD 17, aware := meter.getLsbD 16, cir := cir.toNat, cbs := cbs.toNat, eir := eir.toNat, ebs := ebs.toNat
    tc := if fresh then cbs.toNat * 8000000 else min x.tc (cbs.toNat * 8000000)
    te := if fresh then ebs.toNat * 8000000 else min x.te (ebs.toNat * 8000000)
    last := if fresh then now else x.last }

theorem meterSet_ordered (x : Meter) (code : Nat) (o : OrdBy) (meter cir cbs eir ebs : W64) (s : State) (now : Nat) :
    meterSet x (ordered code o [meter, cir, cbs, eir, ebs] s) now = meterWith x meter cir cbs eir ebs now := by
  simp only [meterSet, ordered_arg]
  rfl

theorem meterCfg_ok {o : OrdBy} {s : State} {meter cir cbs eir ebs : W64} {q : OrdReq} (hq : q = ordered 0x602 o [meter, cir, cbs, eir, ebs] s) (hacc : Accepted q s)
    (h0 : meter.toNat < 2 ^ 18) (h1 : cir.toNat ≤ 1600000000) (h2 : cbs.toNat < 2 ^ 24) (h3 : eir.toNat ≤ 1600000000) (h4 : ebs.toNat < 2 ^ 24) :
    exec (.meterCfg o meter cir cbs eir ebs) s = .next (orderEnds q St.OK [] { begun q s with wnd := { s.wnd with
      meters := tput meter0 s.wnd.meters (meter.toNat % 2 ^ 16) (meterWith (meterOf s (meter.toNat % 2 ^ 16)) meter cir cbs eir ebs s.time.up) } }) := by
  have hbody := meterCfgBody_ok (q := q) (s := begun q s)
  rw [begun_meterOf, begun_time, setMeter, begun_wnd, hq, ordered_arg, ordered_arg, ordered_arg, ordered_arg, ordered_arg, meterSet_ordered, ← hq] at hbody
  subst hq
  exact congrArg _ (orderRow_done hacc (hbody h0 h1 h2 h3 h4))

/-! SHAPER_CFG -/

section
variable {o : OrdBy} {s : State} {shaper rate burst : W64} {q : OrdReq} (hq : q = ordered 0x603 o [shaper, rate, burst] s) (hacc : Accepted q s)
include hq hacc

theorem shaperCfg_ok (h0 : shaper.toNat < 1088) (h1 : rate.toNat ≤ 1600000000) (h2 : burst.toNat < 2 ^ 24) :
    exec (.shaperCfg o shaper rate burst) s = .next (orderEnds q St.OK [] { begun q s with wnd := { s.wnd with
      shapers := tput shaper0 s.wnd.shapers shaper.toNat ((shaperOf s shaper.toNat).set rate.toNat burst.toNat) } }) := by
  have hbody := shaperCfgBody_ok (q := q) (s := begun q s)
  rw [begun_shaperOf, setShaper, begun_wnd, hq, ordered_arg, ordered_arg, ordered_arg, ← hq] at hbody
  subst hq
  exact congrArg _ (orderRow_done hacc (hbody h0 h1 h2))

theorem shaperCfg_unfit (h : 1088 ≤ shaper.toNat ∨ 1600000000 < rate.toNat ∨ 2 ^ 24 ≤ burst.toNat) :
    exec (.shaperCfg o shaper rate burst) s = .next (orderEnds q St.UNSUPPORTED [] (begun q s)) := by
  have hbody := shaperCfgBody_unfit (q := q) (s := begun q s)
  rw [hq, ordered_arg, ordered_arg, ordered_arg, ← hq] at hbody
  subst hq
  exact congrArg _ (orderRow_done hacc (hbody h))

end

/-! GATE_LIST -/

section
variable {o : OrdBy} {s : State} {port cell base : W64} {q : OrdReq} {b : Bytes} (hq : q = ordered 0x604 o [port, cell, base] s) (hacc : Accepted q s)
  (he : port.toNat < 64) (hc : claimOn s (.gateList port.toNat) = none) (hn : (egressAt s port.toNat).next = none) (hr : ordRead q s cell.toNat 2064 = some b)
include hq he hc hn hr

/-- What the body answers on the state the order begins from. -/
theorem gateListBody_begun : gateListBody q (begun q s) =
    if 256 < be b 4 2 ∨ (be b 4 2 ≠ 0 ∧ !listFits (be b 0 4) (listEntries b (be b 4 2))) then ordSt St.UNSUPPORTED (begun q s)
    else ordOk (addClaim (q.claim (.gateList port.toNat)) (gateListSet port.toNat (be b 0 4) base.toNat (listEntries b (be b 4 2)) (begun q s))) := by
  have h0 : q.arg 0 = port.toNat := by rw [hq, ordered_arg]; rfl
  have h1 : q.arg 1 = cell.toNat := by rw [hq, ordered_arg]; rfl
  have h2 : q.arg 2 = base.toNat := by rw [hq, ordered_arg]; rfl
  have hbody := gateListBody_read (q := q) (s := begun q s) (b := b)
  rw [h0, h1, h2, begun_claimOn, begun_egressAt, begun_ordRead] at hbody
  exact hbody he hc hn hr

include hacc

theorem gateList_ok (h256 : be b 4 2 ≤ 256) (hf : be b 4 2 = 0 ∨ listFits (be b 0 4) (listEntries b (be b 4 2)) = true) :
    exec (.gateList o port cell base) s = .next (orderEnds q St.OK []
      (addClaim (q.claim (.gateList port.toNat)) (gateListSet port.toNat (be b 0 4) base.toNat (listEntries b (be b 4 2)) (begun q s)))) := by
  have hbody := gateListBody_begun hq he hc hn hr
  have hfits : ¬ (256 < be b 4 2 ∨ (be b 4 2 ≠ 0 ∧ (!listFits (be b 0 4) (listEntries b (be b 4 2))) = true)) := by
    rintro (h | ⟨h, hl⟩)
    · exact Nat.not_lt.2 h256 h
    · rw [hf.resolve_left h] at hl
      cases hl
  rw [if_neg hfits] at hbody
  subst hq
  exact congrArg _ (orderRow_done hacc hbody)

theorem gateList_unfit (h : 256 < be b 4 2 ∨ (be b 4 2 ≠ 0 ∧ listFits (be b 0 4) (listEntries b (be b 4 2)) = false)) :
    exec (.gateList o port cell base) s = .next (orderEnds q St.UNSUPPORTED [] (begun q s)) := by
  have hbody := gateListBody_begun hq he hc hn hr
  rw [if_pos (h.imp_right fun h => ⟨h.1, by rw [h.2]; rfl⟩)] at hbody
  subst hq
  exact congrArg _ (orderRow_done hacc hbody)

end

/-- The state a new list leaves: it waits at its port for its instant, and the order holds the port's gate list. -/
theorem addClaim_gateListSet (q : OrdReq) (e cycle base : Nat) (b : Bytes) (n : Nat) (s : State) :
    addClaim (q.claim (.gateList e)) (gateListSet e cycle base (listEntries b n) (begun q s)) = { begun q s with
      fore := { (begun q s).fore with claims := q.claim (.gateList e) :: s.fore.claims }
      wnd := { s.wnd with egress := tput egress0 s.wnd.egress e { egressAt s e with
        next := some (if n = 0 then none else some ⟨cycle, base, listEntries b n⟩, GList.startFrom ⟨cycle, base, listEntries b n⟩ s.time.now) } } } := by
  simp only [addClaim, gateListSet, setEgress, begun_egressAt, begun_time, begun_wnd, begun_claims, listEntries_eq_nil]

/-! DROP_NOTIFY -/

theorem begun_rebucketed (q : OrdReq) (s : State) :
    rebucketed (begun q s) = { begun q s with wnd := { s.wnd with dnTokens := notifyTokens s, dnLast := s.time.up } } := by
  simp only [rebucketed, begun_notifyTokens, begun_time, begun_wnd]

theorem dropNotify_ok {o : OrdBy} {s : State} {fn rate : W64} {q : OrdReq} (hq : q = ordered 0x607 o [fn, rate] s) (hacc : Accepted q s)
    (h0 : fn.toNat < 16) (h1 : rate.toNat ≤ 1000000) :
    exec (.dropNotify o fn rate) s = .next (orderEnds q St.OK []
      (withNotify fn.toNat rate.toNat { begun q s with wnd := { s.wnd with dnTokens := notifyTokens s, dnLast := s.time.up } })) := by
  have hbody := dropNotifyBody_ok (q := q) (s := begun q s)
  rw [begun_rebucketed, hq, ordered_arg, ordered_arg, ← hq] at hbody
  subst hq
  exact congrArg _ (orderRow_done hacc (hbody h0 h1))

/-- Settles O25, an order at a time: the accepted order runs its body on the state it begins from, where the winder is as before, and what it writes reads back. -/
theorem winderOrders : Obligations.WinderOrders := by
  intro o s
  refine ⟨?queue, ?meter, ?shaper, ?gate, ?notify⟩
  case queue =>
    rintro queue limits flow sched n rfl q hacc hn
    refine ⟨fun hf hc => ?_, queueCfg_unfit rfl hacc⟩
    refine ⟨_, queueCfg_ok rfl hacc hn hf hc, _, rfl, fun f hf => ?_, fun f hf => ?_, fun f hf => ?_, fun k hk => ?_, withQueue_eq _ _ _ _ _⟩
    · exact fld_withQueue_limits hn _ _ _ _ (by revert f; decide)
    · exact fld_withQueue_flow hn _ _ _ _ (by revert f; decide)
    · exact fld_withQueue_sched hn _ _ _ _ (by revert f; decide)
    · rw [withQueue_regsBut _ _ _ _ _ k hk, begun_reg]
  case meter =>
    rintro meter cir cbs eir ebs m rfl q on fresh hacc h0 h1 h2 h3 h4
    exact meterCfg_ok rfl hacc h0 h1 h2 h3 h4
  case shaper =>
    rintro shaper rate burst i rfl q hacc
    exact ⟨shaperCfg_ok rfl hacc, shaperCfg_unfit rfl hacc⟩
  case gate =>
    rintro port cell base e b rfl q n cycle hacc he hc hn hr
    refine ⟨fun h256 hf => ⟨_, ?_, startFrom_first ⟨cycle, base.toNat, listEntries b n⟩ s.time.now⟩, gateList_unfit rfl hacc he hc hn hr⟩
    rw [gateList_ok rfl hacc he hc hn hr h256 hf, addClaim_gateListSet]
  case notify =>
    intro fn rate q hacc h0 h1
    refine ⟨_, dropNotify_ok rfl hacc h0 h1, _, rfl, fn_withNotify _ _ h0, rate_withNotify _ _ h1, enabled_withNotify _ _ _, ?_, fun k hk => ?_, withNotify_eq _ _ _⟩
    · rw [reasons_withNotify]
      exact congrArg (fget · _) (begun_reg q s _)
    · rw [withNotify_regsBut _ _ _ k hk]
      exact begun_reg q s k

end Sys2Proof.Machine
end

section
/-! PROOFS. The statement on the host's rings (O53): a transmit entry whose read fails is skipped, and everything but the ring, its cells and its signal is then as the failed read left it, not as it was
before: where MEM_CHECK stands at L2 that read squelches the part. -/
namespace Sys2Proof.Machine

/-! What counting and passing over an entry may change -/

/-- Only registers, user pages, messages, tokens and moderation times differ. -/
def RingFrame (s t : State) : Prop :=
  t = { s with regs := t.regs, page := t.page, out := t.out, host := { s.host with tokens := t.host.tokens, moderating := t.host.moderating } }

theorem RingFrame.trans {s t u : State} (h : RingFrame s t) (h' : RingFrame t u) : RingFrame s u := by
  unfold RingFrame at h h' ⊢
  rw [h', h]

theorem RingFrame.gal {s t : State} (h : RingFrame s t) : t.gal = s.gal := by rw [h]
theorem RingFrame.mem {s t : State} (h : RingFrame s t) : t.mem = s.mem := by rw [h]
theorem RingFrame.vault {s t : State} (h : RingFrame s t) : t.vault = s.vault := by rw [h]
theorem RingFrame.wnd {s t : State} (h : RingFrame s t) : t.wnd = s.wnd := by rw [h]

theorem setPg_ringFrame (s : State) (fn off : Nat) (w : W64) : RingFrame s (s.setPg fn off w) := by unfold State.setPg; rfl
theorem setReg_ringFrame (s : State) (off : Nat) (w : W64) : RingFrame s (s.setReg off w) := by unfold State.setReg; rfl
theorem setToken_ringFrame (c v : Nat) (s : State) : RingFrame s (setToken c v s) := by unfold setToken; rfl
theorem moderating_ringFrame (s : State) (m : Table (Option (Bool × Nat))) : RingFrame s { s with host := { s.host with moderating := m } } := rfl

theorem msixSend_ringFrame (fn v : Nat) (s : State) : RingFrame s (msixSend fn v s) := by
  unfold msixSend
  split
  · exact setPg_ringFrame s fn _ _
  · rfl

theorem irq_ringFrame (fn v : Nat) (s : State) : RingFrame s (irq fn v s) := by
  unfold irq
  refine (setPg_ringFrame s fn pgCause (s.pg fn pgCause ||| BitVec.ofNat 64 (2 ^ v))).trans ?_
  generalize s.setPg fn pgCause _ = u
  dsimp only
  split
  · split
    · exact moderating_ringFrame u _
    · refine (msixSend_ringFrame fn v u).trans ?_
      split
      · rfl
      · exact moderating_ringFrame _ _
  · exact msixSend_ringFrame fn v _

theorem bumpPg_ringFrame (fn off n : Nat) (s : State) : RingFrame s (bumpPg fn off n s) := by
  unfold bumpPg
  refine (setPg_ringFrame s fn off (BitVec.ofNat 64 (count40 (s.pg fn off).toNat n))).trans ?_
  dsimp only
  split
  · exact (setReg_ringFrame _ _ _).trans (irq_ringFrame 0 3 _)
  · rfl

theorem handBack_ringFrame (cells : List Nat) (s : State) : RingFrame s (handBack cells s) := by
  induction cells generalizing s with
  | nil => rfl
  | cons c cells ih =>
    refine RingFrame.trans ?_ (ih _)
    dsimp only
    split
    · exact setToken_ringFrame c 0 s
    · rfl

theorem txAdvance_ringFrame (fn w0 : Nat) (s : State) : RingFrame s (txAdvance fn w0 s) :=
  (setPg_ringFrame s fn pgTxDb _).trans ((handBack_ringFrame _ _).trans (irq_ringFrame fn 2 _))

/-! TRANSMIT_ENTRY_READ of an entry whose cells do not read (R398) -/

section
variable {s v : State} {fn : Fin 16} {ecc : Ecc} {w0 w1 : Nat} (hon : trafficOn s = true) (hflr : s.host.flr.contains fn.val = false)
  (hne : s.pgFld fn.val pgTxDb RF.TX_HEAD ≠ s.pgFld fn.val pgTxDb RF.TX_TAIL)
  (hw0 : txWord s fn.val (s.pgFld fn.val pgTxDb RF.TX_HEAD) 0 = w0) (hw1 : txWord s fn.val (s.pgFld fn.val pgTxDb RF.TX_HEAD) 1 = w1)
  (hok : txEntryOk s fn.val w0 w1 = true) (hroom : backlogRoom s (96 + fn.val) (nbits w0 16 14) = true)
  (hread : readCells (cellsOf (landingAt (nbits w0 0 16)) (nbits w0 16 14)) ecc s = (false, v))

include hon hflr hne hw0 hw1 hok hroom hread

/-- The entry at the head of the ring is skipped and counted, on the state that the failed read left. -/
theorem transmitEntryRead_readFails : exec (.transmitEntryRead fn ecc) s = .next (txAdvance fn.val w0 (bumpPg fn.val pgRingFault 1 v)) := by
  have hgo : (trafficOn s && !busyFlr s fn.val && s.pgFld fn.val pgTxDb RF.TX_HEAD != s.pgFld fn.val pgTxDb RF.TX_TAIL) = true := by
    rw [hon, busyFlr, hflr, bne_iff_ne.2 hne]; rfl
  have htake : txTake fn.val w0 w1 ecc s = txAdvance fn.val w0 (bumpPg fn.val pgRingFault 1 v) := by
    simp only [txTake, hok, hroom, hread, Bool.not_true, Bool.not_false, Bool.false_eq_true, if_false, if_true]
  show execTransmitEntryRead fn ecc s = _
  rw [execTransmitEntryRead, onlyIf, if_pos hgo, hw0, hw1, htake]

/-- The galleries, the memory, the vault and the winder stay as the failed read left them: what the clause of O53 on such an entry can ask of these four. -/
theorem transmitEntryRead_readFails_keeps : Completes (.transmitEntryRead fn ecc) s (fun t => t.gal = v.gal ∧ t.mem = v.mem ∧ t.vault = v.vault ∧ t.wnd = v.wnd) := by
  have hf : RingFrame v (txAdvance fn.val w0 (bumpPg fn.val pgRingFault 1 v)) := (bumpPg_ringFrame _ _ _ v).trans (txAdvance_ringFrame _ _ _)
  exact ⟨_, transmitEntryRead_readFails hon hflr hne hw0 hw1 hok hroom hread, hf.gal, hf.mem, hf.vault, hf.wnd⟩

end

/-- A read of one sector that meets an uncorrectable error fails the check of that sector. -/
theorem readCells_bad_one {n : Nat} {s : State} (hk : keyHeld s.drew (sectorAt s.drew n).mkey (sectorAt s.drew n).kgen = true)
    (hp : (sectorAt s.drew n).poison = false) : readCells [n] .bad s = (false, checkFail n s.drew) := by
  have hread : readSector n .bad s.drew = (false, checkFail n s.drew) := by
    simp only [readSector, hk, hp, Bool.not_true, Bool.false_eq_true, if_false]
  have hmax : max 1 [n].length = 1 := rfl
  rw [readCells, if_pos rfl, hmax, Nat.mod_one, readSectors, if_pos rfl, hread]
  rfl

/-! The refuting state -/

/-- The first word of a transmit entry: 60 bytes of landing cell 100, for client port 0. -/
def cell100Entry : Nat := 100 + 60 * 2 ^ 16

/-- A part in Service with MEM_CHECK set to L2. Function 1 owns landing cell 100, has handed it over and named it in the one entry of its transmit ring; a client frame waits in the backlog of domain 0. -/
def entryAtL2 : State :=
  let s := (State.reset.setFld Reg.PWR_STATUS Fd.PWR_STATUS_MODE 2).setFld (Reg.TMP_LEVEL 0x0F) Fd.TMP_LEVEL_LEVEL 2
  let s := (s.setFld (Reg.HST_FN_CELLS 1) Fd.HST_FN_CELLS_CELL_BASE 100).setFld (Reg.HST_FN_CELLS 1) Fd.HST_FN_CELLS_CELL_COUNT 1
  let s := (s.setPgFld 1 pgTxDb RF.TX_TAIL 1).setPg 1 0x2000 (BitVec.ofNat 64 cell100Entry)
  { s with
    mem := { s.mem with noKey := false }
    vault := { s.vault with memPresent := true, checkPresent := true }
    host := { s.host with tokens := [(100, 1)], access := [(0x40 * 32 + 1, 2)] }
    gal := { s.gal with backlog := [(0, [newItem 0 0 (zeros 60) 0])] } }

/-- The one sector of the entry's bytes. -/
def cell100Sector : Nat := landingAt 100 / 256

theorem entryAtL2_readFails : readCells (cellsOf (landingAt (nbits cell100Entry 0 16)) (nbits cell100Entry 16 14)) .bad entryAtL2 =
    (false, checkFail cell100Sector entryAtL2.drew) := by
  have hcells : cellsOf (landingAt (nbits cell100Entry 0 16)) (nbits cell100Entry 16 14) = [cell100Sector] := by decide +kernel
  rw [hcells]
  exact readCells_bad_one (by decide +kernel) (by decide +kernel)

/-- The failed check squelches the part (R27): the client frame is discarded. -/
theorem entryAtL2_squelched : (checkFail cell100Sector entryAtL2.drew).gal.backlog = [] := by decide +kernel

/-- Refutes O53: its clause on a transmit entry whose read fails asks that the galleries and the winder be as they were before the read. The read's check failure fires MEM_CHECK, and at a level of L2 or
above that monitor squelches the part, which discards what the galleries hold: here the frame that waits in domain 0. What holds is the clause with the state after the failed read in their place
(`transmitEntryRead_readFails_keeps`), as the statement already has it for the memory and the vault. -/
theorem not_hostRings : ¬ Obligations.HostRings := by
  unfold Obligations.HostRings
  intro h
  obtain ⟨-, -, htx, -⟩ := h entryAtL2 1
  have hhead : entryAtL2.pgFld (1 : Fin 16).val pgTxDb RF.TX_HEAD = 0 := by decide +kernel
  have hw0 : txWord entryAtL2 (1 : Fin 16).val 0 0 = cell100Entry := by decide +kernel
  have hw1 : txWord entryAtL2 (1 : Fin 16).val 0 1 = 0 := by decide +kernel
  have hon : trafficOn entryAtL2 = true := by decide +kernel
  have hflr : entryAtL2.host.flr.contains (1 : Fin 16).val = false := by decide +kernel
  have hne : 0 ≠ entryAtL2.pgFld (1 : Fin 16).val pgTxDb RF.TX_TAIL := by decide +kernel
  have hok : txEntryOk entryAtL2 (1 : Fin 16).val cell100Entry 0 = true := by decide +kernel
  have hroom : backlogRoom entryAtL2 (96 + (1 : Fin 16).val) (nbits cell100Entry 16 14) = true := by decide +kernel
  simp only [hhead, hw0, hw1] at htx
  obtain ⟨-, hentry⟩ := htx
  obtain ⟨-, -, hfails, -⟩ := hentry .bad hon hflr hne
  obtain ⟨t, ht, -, -, hgal, -⟩ := hfails _ hok hroom entryAtL2_readFails
  obtain ⟨t', ht', hgal', -⟩ := transmitEntryRead_readFails_keeps hon hflr (hhead.symm ▸ hne) (hhead.symm ▸ hw0) (hhead.symm ▸ hw1) hok hroom entryAtL2_readFails
  obtain rfl : t = t' := Host.Outcome.next.inj (ht.symm.trans ht')
  have hkept : entryAtL2.gal.backlog = [] := by rw [← hgal, hgal', entryAtL2_squelched]
  revert hkept
  decide +kernel

end Sys2Proof.Machine
end

section
/-! PROOFS. The severity rule of the tally's ring and of the lamp room's tail (R428, R434): which record a full area gives up. -/
namespace Sys2Proof.Machine

/-- The first record of the severity or below is the one that goes. -/
theorem ringEvict_first {sev : Nat} {a b : List TRec} {o : TRec} (ha : ∀ x ∈ a, sev < x.sev) (ho : o.sev ≤ sev) :
    ringEvict sev (a ++ o :: b) = some (o, a ++ b) := by
  induction a with
  | nil => rw [List.nil_append, ringEvict, if_pos ho, List.nil_append]
  | cons x a ih =>
    obtain ⟨hx, ha⟩ := List.forall_mem_cons.1 ha
    rw [List.cons_append, ringEvict, if_neg (Nat.not_le.2 hx), ih ha]
    rfl

/-- Where every record is more severe, none goes. -/
theorem ringEvict_none {sev : Nat} {l : List TRec} (h : ∀ x ∈ l, sev < x.sev) : ringEvict sev l = none := by
  induction l with
  | nil => rfl
  | cons x l ih =>
    obtain ⟨hx, hl⟩ := List.forall_mem_cons.1 h
    rw [ringEvict, if_neg (Nat.not_le.2 hx), ih hl]
    rfl

end Sys2Proof.Machine
end

section
/-! PROOFS. The lamp room while main supplies are off (O51): a record goes to the tail and changes nothing else of the room, so a trigger at L4, or a poll that finds one loop broken, is made of such records. -/
namespace Sys2Proof.Machine

/-! Records in the tail -/

/-- A record changes the tail, its SEQ and the count of records lost, and nothing else. -/
theorem lampRecord_eq (code level : Nat) (vals : List Nat) (s : State) :
    let t := lampRecord code level vals s
    t = { s with lamp := { s.lamp with tail := t.lamp.tail, tailSeq := t.lamp.tailSeq, tailLost := t.lamp.tailLost } } := by
  unfold lampRecord tailAppend
  dsimp only
  split
  · rfl
  · split <;> rfl

theorem lampRecord_root (code level : Nat) (vals : List Nat) (s : State) : (lampRecord code level vals s).lamp.root = s.lamp.root := by rw [lampRecord_eq]
theorem lampRecord_cfg (code level : Nat) (vals : List Nat) (s : State) : (lampRecord code level vals s).lamp.cfg = s.lamp.cfg := by rw [lampRecord_eq]

/-- With room in the tail the record is its last. -/
theorem lampRecord_tailed {s : State} (code level : Nat) (vals : List Nat) (h : s.lamp.tail.length < 64) : Tailed code level vals s (lampRecord code level vals s) := by
  unfold lampRecord tailAppend
  dsimp only
  rw [if_pos h]
  exact ⟨_, rfl, rfl, rfl, rfl, rfl, rfl, rfl, rfl⟩

theorem Tailed.tail_length {code level : Nat} {vals : List Nat} {s t : State} (h : Tailed code level vals s t) : t.lamp.tail.length = s.lamp.tail.length + 1 := by
  obtain ⟨r, rfl, -⟩ := h
  simp

/-- A full tail gives up its oldest record of the severity or below, and the new one takes its slot. -/
theorem lampRecord_full_evicts {s : State} {a b : List TRec} {o : TRec} (code level : Nat) (vals : List Nat) (hfull : 64 ≤ s.lamp.tail.length)
    (htail : s.lamp.tail = a ++ o :: b) (ha : ∀ x ∈ a, (evInfo code).1 < x.sev) (ho : o.sev ≤ (evInfo code).1) :
    let t := lampRecord code level vals s
    t.lamp.tailLost = s.lamp.tailLost ∧
    ∃ r, t.lamp.tail = a ++ b ++ [r] ∧ r.code = code ∧ r.slot = o.slot ∧ r.seq = s.lamp.tailSeq % 65536 ∧ r.time = s.lamp.rtc ∧ r.data = evData vals := by
  unfold lampRecord tailAppend
  dsimp only
  rw [if_neg (Nat.not_lt.2 hfull), htail, ringEvict_first ha ho]
  exact ⟨rfl, _, rfl, rfl, rfl, rfl, rfl, rfl⟩

/-- A full tail of more severe records keeps them; the new record is counted as lost. -/
theorem lampRecord_full_lost {s : State} (code level : Nat) (vals : List Nat) (hfull : 64 ≤ s.lamp.tail.length) (h : ∀ x ∈ s.lamp.tail, (evInfo code).1 < x.sev) :
    let t := lampRecord code level vals s
    t.lamp.tail = s.lamp.tail ∧ t.lamp.tailLost = min (s.lamp.tailLost + 1) 0xFFFF := by
  unfold lampRecord tailAppend
  dsimp only
  rw [if_neg (Nat.not_lt.2 hfull), ringEvict_none h]
  exact ⟨rfl, rfl⟩

/-! Triggers -/

theorem lampTrigger_below {m : Nat} {s : State} (h : tget nat0 s.lamp.levels m ≠ 4) : lampTrigger m s = lampRecord (monCode m) (tget nat0 s.lamp.levels m) [m] s := by
  unfold lampTrigger
  exact if_neg h

theorem lampTrigger_four {m : Nat} {s : State} (h : tget nat0 s.lamp.levels m = 4) :
    lampTrigger m s = lampRecord Ev.ROOT_ERASED 4 [m] (eraseRoot (lampRecord (monCode m) 4 [m] s)) := by
  unfold lampTrigger
  rw [h]
  rfl

/-- At L4 the root key goes, whether or not the tail has room (R426). -/
theorem lampTrigger_four_root {m : Nat} {s : State} (h : tget nat0 s.lamp.levels m = 4) : (lampTrigger m s).lamp.root = none := by
  rw [lampTrigger_four h, lampRecord_root]
  rfl

theorem lampTrigger_loopOn (m i : Nat) (s : State) : loopOn (lampTrigger m s) i = loopOn s i := by
  have hcfg : (lampTrigger m s).lamp.cfg = s.lamp.cfg := by
    by_cases h : tget nat0 s.lamp.levels m = 4
    · rw [lampTrigger_four h, lampRecord_cfg]
      exact lampRecord_cfg ..
    · rw [lampTrigger_below h, lampRecord_cfg]
  unfold loopOn
  rw [hcfg]

section
variable {m : Nat} {s : State} (hroom : s.lamp.tail.length < 63)
include hroom

theorem lampTrigger_below_tailed (h : tget nat0 s.lamp.levels m < 4) :
    Tailed (monCode m) (tget nat0 s.lamp.levels m) [m] s (lampTrigger m s) := by
  rw [lampTrigger_below (Nat.ne_of_lt h)]
  exact lampRecord_tailed _ _ _ (by omega)

/-- At L4 the trigger's record is followed by that of the erased root key. -/
theorem lampTrigger_four_tailed (h : tget nat0 s.lamp.levels m = 4) : (lampTrigger m s).lamp.root = none ∧
    ∃ u, Tailed (monCode m) 4 [m] s u ∧ Tailed Ev.ROOT_ERASED 4 [m] { u with lamp := { u.lamp with root := none } } (lampTrigger m s) := by
  have hfirst := lampRecord_tailed (monCode m) 4 [m] (Nat.lt_succ_of_lt hroom)
  refine ⟨lampTrigger_four_root h, _, hfirst, ?_⟩
  rw [lampTrigger_four h]
  refine lampRecord_tailed _ _ _ ?_
  have hlen := hfirst.tail_length
  show (lampRecord (monCode m) 4 [m] s).lamp.tail.length < 64
  omega

end

/-! LAMP_MONITOR_TRIGGER -/

/-- The monitors the room runs, a tamper loop only where LR_CFG enables it. -/
def lampArmed (m : Fin 32) (s : State) : Bool := lampMonitors.contains m.val && (!(decide (9 ≤ m.val) && decide (m.val ≤ 12)) || loopOn s (m.val - 9))

/-- The RTC's monitor fires because the RTC has stopped. -/
def rtcStopped (m : Fin 32) (s : State) : State := { s with lamp := { s.lamp with rtcRun := s.lamp.rtcRun && m.val != 0x17 } }

theorem lampArmed_of {m : Fin 32} {s : State} (hm : lampMonitors.contains m.val = true) (hloop : 9 ≤ m.val → m.val ≤ 12 → loopOn s (m.val - 9) = true) :
    lampArmed m s = true := by
  rw [lampArmed, hm, Bool.true_and]
  by_cases h9 : 9 ≤ m.val
  · by_cases h12 : m.val ≤ 12
    · rw [hloop h9 h12, Bool.or_true]
    · rw [decide_eq_false h12, Bool.and_false]
      rfl
  · rw [decide_eq_false h9]
    rfl

theorem lampArmed_eq_false {m : Fin 32} {s : State} (h : lampMonitors.contains m.val = false ∨ 9 ≤ m.val ∧ m.val ≤ 12 ∧ loopOn s (m.val - 9) = false) :
    lampArmed m s = false := by
  rcases h with h | ⟨h9, h12, hloop⟩
  · rw [lampArmed, h, Bool.false_and]
  · rw [lampArmed, hloop, decide_eq_true h9, decide_eq_true h12, Bool.and_true, Bool.not_true, Bool.or_false, Bool.and_false]

/-- An armed monitor fires. -/
theorem lampMonitorTrigger_fires {m : Fin 32} {s : State} (hoff : s.mainOn = false) (harmed : lampArmed m s = true) :
    exec (.lampMonitorTrigger m) s = .next (lampTrigger m.val (rtcStopped m s)) := by
  have hstop : (if m.val = 0x17 then { s with lamp := { s.lamp with rtcRun := false } } else s) = rtcStopped m s := by
    unfold rtcStopped
    split
    · next h => rw [h, bne_self_eq_false, Bool.and_false]
    · next h => rw [bne_iff_ne.2 h, Bool.and_true]
  rw [← hstop]
  exact congrArg Host.Outcome.next (onlyIf_true (by rw [hoff]; exact harmed))

theorem lampMonitorTrigger_idles {m : Fin 32} {s : State} (h : s.mainOn = true ∨ lampArmed m s = false) : Idles (.lampMonitorTrigger m) s := by
  refine congrArg Host.Outcome.next (if_neg (ne_true_of_eq_false ?_))
  show (!s.mainOn && lampArmed m s) = false
  rcases h with hon | harmed
  · rw [hon, Bool.not_true, Bool.false_and]
  · rw [harmed, Bool.and_false]

/-! LAMP_LOOP_POLL -/

/-- What a poll does about one loop. -/
def pollLoop (b : BitVec 4) (s : State) (i : Nat) : State := if nbit b.toNat i && loopOn s i then lampTrigger (9 + i) s else s

theorem lampLoopPoll_due {s : State} (b : BitVec 4) (hoff : s.mainOn = false) (hdue : pollDue s = true) :
    exec (.lampLoopPoll b) s = .next ((List.range 4).foldl (pollLoop b) s) :=
  congrArg Host.Outcome.next (onlyIf_true (by rw [hoff, hdue]; rfl))

theorem lampLoopPoll_idles {s : State} (b : BitVec 4) (h : s.mainOn = true ∨ s.lamp.rtcRun = false ∨ pollDue s = false) : Idles (.lampLoopPoll b) s := by
  refine congrArg Host.Outcome.next (if_neg (ne_true_of_eq_false ?_))
  rcases h with hon | hstop | hdue
  · rw [hon, Bool.not_true, Bool.false_and]
  · rw [pollDue, hstop, Bool.false_and, Bool.and_false]
  · rw [hdue, Bool.and_false]

/-- Loops that are whole or not enabled change nothing. -/
theorem pollLoops_whole {b : BitVec 4} {s : State} {l : List Nat} (h : ∀ i ∈ l, (nbit b.toNat i && loopOn s i) = false) : l.foldl (pollLoop b) s = s := by
  induction l with
  | nil => rfl
  | cons i l ih =>
    obtain ⟨hi, hl⟩ := List.forall_mem_cons.1 h
    have hstep : pollLoop b s i = s := if_neg (ne_true_of_eq_false hi)
    rw [List.foldl_cons, hstep, ih hl]

/-- One broken loop among the four fires its monitor once. -/
theorem pollLoops_one {b : BitVec 4} {s : State} (i : Fin 4) (h : ∀ j, j < 4 → (nbit b.toNat j && loopOn s j) = (j == i.val)) :
    (List.range 4).foldl (pollLoop b) s = lampTrigger (9 + i.val) s := by
  obtain ⟨before, after, hl⟩ := List.append_of_mem (List.mem_range.2 i.isLt)
  have hnodup : (before ++ i.val :: after).Nodup := hl ▸ List.nodup_range
  have hwhole : ∀ j ∈ List.range 4, j ≠ i.val → (nbit b.toNat j && loopOn s j) = false := fun j hj hne => by
    rw [h j (List.mem_range.1 hj), beq_eq_false_iff_ne.2 hne]
  rw [hl] at hwhole ⊢
  obtain ⟨hafter, -⟩ := List.nodup_cons.1 (List.nodup_append.1 hnodup).2.1
  have hbefore := (List.nodup_append.1 hnodup).2.2
  have hfires : pollLoop b s i.val = lampTrigger (9 + i.val) s := if_pos (by rw [h i.val i.isLt, beq_self_eq_true])
  rw [List.foldl_append, pollLoops_whole fun j hj => hwhole j (by simp [hj]) (hbefore j hj i.val (by simp)), List.foldl_cons, hfires]
  refine pollLoops_whole fun j hj => ?_
  rw [lampTrigger_loopOn]
  exact hwhole j (by simp [hj]) fun e => hafter (e ▸ hj)

theorem monCode_loop (i : Fin 4) : monCode (9 + i.val) = Ev.TAMPER_LOOP := by
  revert i
  decide

/-! VBAT and the room's supply -/

theorem vbatRootErase_off {s : State} (hoff : s.mainOn = false) :
    exec .vbatRootErase s = .next (lampRecord Ev.ROOT_ERASED 0 [8] { s with lamp := { s.lamp with root := none, vbatOk := false } }) :=
  congrArg Host.Outcome.next (onlyIf_true (by rw [hoff]; rfl))

theorem lampSupplySwitch_toVbat_on {s : State} (hon : s.mainOn = true) :
    exec (.lampSupplySwitch true) s = .next { sealedOff s with lamp := { s.lamp with onVbat := true } } := by
  show execLampSupplySwitch true s = _
  rw [execLampSupplySwitch, if_pos rfl, if_pos hon]
  rfl

theorem lampSupplySwitch_toVbat_off {s : State} (hoff : s.mainOn = false) :
    exec (.lampSupplySwitch true) s = .next { s with lamp := { s.lamp with onVbat := true } } := by
  show execLampSupplySwitch true s = _
  rw [execLampSupplySwitch, if_pos rfl, if_neg (ne_true_of_eq_false hoff)]

/-- Settles O51, a command at a time: what a record, a trigger and a poll leave, and what a part that loses its main supplies keeps. -/
theorem lampRoom : Obligations.LampRoom := by
  intro s
  refine ⟨?trigger, ?erased, ?unarmed, ?full, lampLoopPoll_idles, ?poll, ?vbat, ?vbatOn, rfl, lampSupplySwitch_toVbat_off, ?toVbatOn⟩
  case trigger =>
    intro hoff hroom m hm hloop
    have hexec := lampMonitorTrigger_fires hoff (lampArmed_of hm hloop)
    have hroom' : (rtcStopped m s).lamp.tail.length < 63 := hroom
    exact ⟨fun h => ⟨_, hexec, lampTrigger_below_tailed hroom' h⟩, fun h => ⟨_, hexec, lampTrigger_four_tailed hroom' h⟩⟩
  case erased =>
    intro hoff m hm hloop h
    exact ⟨_, lampMonitorTrigger_fires hoff (lampArmed_of hm hloop), lampTrigger_four_root h⟩
  case unarmed => exact fun m h => lampMonitorTrigger_idles (h.imp_right lampArmed_eq_false)
  case full =>
    intro code level vals hfull
    exact ⟨fun a o b => lampRecord_full_evicts code level vals hfull, lampRecord_full_lost code level vals hfull⟩
  case poll =>
    intro b hoff hdue
    have hexec := lampLoopPoll_due b hoff hdue
    refine ⟨fun h => ?none, fun i hone hroom => ?one⟩
    case none =>
      refine hexec.trans (congrArg _ (pollLoops_whole fun i hi => ?_))
      cases hb : nbit b.toNat i
      · rfl
      · exact h i (List.mem_range.1 hi) hb
    case one =>
      rw [pollLoops_one i hone] at hexec
      rw [← monCode_loop i]
      exact ⟨fun h => ⟨_, hexec, lampTrigger_below_tailed hroom h⟩, fun h => ⟨_, hexec, lampTrigger_four_tailed hroom h⟩⟩
  case vbat =>
    intro hoff hroom
    exact ⟨_, vbatRootErase_off hoff, lampRecord_root .., lampRecord_tailed _ _ _ hroom⟩
  case vbatOn =>
    intro hon
    exact congrArg Host.Outcome.next (if_neg (by rw [hon]; decide))
  case toVbatOn =>
    intro hon
    exact ⟨_, lampSupplySwitch_toVbat_on hon, rfl, rfl, rfl, rfl, rfl, rfl, rfl, rfl, fun _ => rfl, rfl, rfl, rfl⟩

end Sys2Proof.Machine
end

section
/-! PROOFS. Counters and the tally (O59): a count that reaches half its range says so, and an event is suppressed, refused its place or written, each with its own effect on the rate limits and on SEQ. -/
namespace Sys2Proof.Machine

/-! A count at half its range (R312) -/

theorem nbit_or_two_pow (w : W64) {k : Nat} (h : k < 64) : nbit (w ||| BitVec.ofNat 64 (2 ^ k)).toNat k = true := by
  rw [nbit, BitVec.toNat_or, Nat.testBit_or, BitVec.toNat_ofNat, Nat.testBit_mod_two_pow, Nat.testBit_two_pow_self, decide_eq_true h, Bool.and_true, Bool.or_true]

/-- A message or a pending bit leaves the words of causes alone. -/
theorem msixSend_pgCause (fn v : Nat) (s : State) : (msixSend fn v s).pg fn pgCause = s.pg fn pgCause := by
  unfold msixSend
  split
  · exact pg_setPg_ne _ _ (by simp only [pgCause, pgPba]; omega)
  · rfl

theorem irq_cause {fn v : Nat} (s : State) (h1 : v ≠ 1) (h2 : v ≠ 2) (hv : v < 64) : nbit ((irq fn v s).pg fn pgCause).toNat v = true := by
  unfold irq
  rw [if_neg (by omega), msixSend_pgCause, pg_setPg_same]
  exact nbit_or_two_pow _ hv

theorem bump_crossed {off n : Nat} {s : State} (h : crossedHalf (s.reg off).toNat n = true) :
    bump off n s = halfPending off (s.setReg off (BitVec.ofNat 64 (count40 (s.reg off).toNat n))) := by
  unfold bump
  exact if_pos h

theorem bump_not_crossed {off n : Nat} {s : State} (h : crossedHalf (s.reg off).toNat n = false) :
    bump off n s = s.setReg off (BitVec.ofNat 64 (count40 (s.reg off).toNat n)) := by
  unfold bump
  exact if_neg (ne_true_of_eq_false h)

theorem halfPending_bit (off : Nat) (s : State) : nbit ((halfPending off s).reg (halfWord off)).toNat (off % 0x100000 / 8 % 64) = true := by
  have hoff : off - off / 0x100000 * 0x100000 = off % 0x100000 := by omega
  unfold halfPending halfWord
  dsimp only
  rw [(irq_signalled 3 _ (by decide) (by decide)).reg, reg_setReg_same, hoff]
  exact nbit_or_two_pow _ (Nat.mod_lt _ (by decide))

theorem halfPending_cause (off : Nat) (s : State) : nbit ((halfPending off s).pg 0 pgCause).toNat 3 = true := irq_cause _ (by decide) (by decide) (by decide)

/-! The ring (R434) -/

/-- A full ring gives up its oldest record of the severity or below, and the new one takes its slot. -/
theorem ringAppend_full_evicts {r o : TRec} {s : State} {a b : List TRec} (hro : atticRO s 1 = false) (hfull : s.attic.ring.length = 65536)
    (hring : s.attic.ring = a ++ o :: b) (ha : ∀ x ∈ a, r.sev < x.sev) (ho : o.sev ≤ r.sev) :
    (ringAppend r s).attic.ring = a ++ b ++ [{ r with slot := o.slot }] ∧
    (ringAppend r s).reg Reg.TLY_CNT_APPENDED = BitVec.ofNat 64 (count40 (s.reg Reg.TLY_CNT_APPENDED).toNat 1) := by
  have he : ringEvict r.sev s.attic.ring = some (o, a ++ b) := by rw [hring, ringEvict_first ha ho]
  rw [ringAppend, if_neg (ne_true_of_eq_false hro), if_neg (by omega), he]
  dsimp only
  refine ⟨by rw [bump_attic], ?_⟩
  obtain ⟨-, -, hcount, -⟩ := bump_counted Reg.TLY_CNT_APPENDED 1 { s with attic := { s.attic with ring := a ++ b ++ [{ r with slot := o.slot }] } } (by decide)
  exact hcount

/-- A full ring of more severe records keeps them; the new record is counted as discarded. -/
theorem ringAppend_full_discards {r : TRec} {s : State} (hro : atticRO s 1 = false) (hfull : s.attic.ring.length = 65536) (h : ∀ x ∈ s.attic.ring, r.sev < x.sev) :
    (ringAppend r s).attic = s.attic ∧
    (ringAppend r s).reg Reg.TLY_CNT_RING_DISCARD = BitVec.ofNat 64 (count40 (s.reg Reg.TLY_CNT_RING_DISCARD).toNat 1) := by
  rw [ringAppend, if_neg (ne_true_of_eq_false hro), if_neg (by omega), ringEvict_none h]
  obtain ⟨-, -, hcount, -⟩ := bump_counted Reg.TLY_CNT_RING_DISCARD 1 s (by decide)
  exact ⟨bump_attic .., hcount⟩

theorem ringAppend_prefix (r : TRec) {s : State} (hroom : s.attic.ring.length < 65536) : s.attic.ring <+: (ringAppend r s).attic.ring := by
  cases hro : atticRO s 1
  · rw [ringAppend_mem r s hro hroom]
    exact List.prefix_append ..
  · rw [ringAppend, if_pos hro, bump_attic]

/-- The wear of a record's block takes no record out of a ring with room: a remap adds one behind it. -/
theorem wearTally_ring_prefix (r : TRec) {s : State} (hroom : s.attic.ring.length < 65536) : s.attic.ring <+: (wearTally r s).attic.ring := by
  unfold wearTally
  obtain ⟨-, hring⟩ := wearStep_attic 1 (recBlock { r with slot := if r.evid then s.attic.evid.length - 1 else s.attic.ring.length - 1 }) s
  split <;> rename_i heq <;> rw [heq] at hring
  · exact hring ▸ List.prefix_rfl
  · rw [(store_areas _ _).2, if_neg (by simp), ← hring]
    exact ringAppend_prefix _ (hring ▸ hroom)

/-! SEQ (R431) -/

theorem ringAppend_nextSeq (r : TRec) (s : State) : (ringAppend r s).attic.nextSeq = s.attic.nextSeq := by
  unfold ringAppend
  repeat' split
  all_goals rw [bump_attic]

theorem evidAppend_nextSeq (r : TRec) (s : State) : (evidAppend r s).attic.nextSeq = s.attic.nextSeq := by
  unfold evidAppend
  split
  · rfl
  · rw [bump_attic]

/-- A record that is written takes the next SEQ; no other does. -/
theorem store_nextSeq (r : TRec) (s : State) : (store r s).attic.nextSeq = s.attic.nextSeq + if written r s then 1 else 0 := by
  unfold store
  dsimp only
  generalize hu : (if r.evid then evidAppend { r with seq := s.attic.nextSeq } s else ringAppend { r with seq := s.attic.nextSeq } s) = u
  have hseq : u.attic.nextSeq = s.attic.nextSeq := by
    rw [← hu]
    split
    · exact evidAppend_nextSeq ..
    · exact ringAppend_nextSeq ..
  have hw : written { r with seq := s.attic.nextSeq } s = written r s := rfl
  rw [hw]
  cases written r s
  · exact hseq
  · have htake : (takeSeq u).attic.nextSeq = s.attic.nextSeq + 1 := congrArg (· + 1) hseq
    simp only [Bool.not_true, Bool.false_eq_true, if_false, if_true]
    split
    · rw [irq_attic 0 4 _ (by decide) (by decide), htake]
    · exact htake

theorem wearTally_nextSeq_le (r : TRec) (s : State) : s.attic.nextSeq ≤ (wearTally r s).attic.nextSeq := by
  have hwear : ∀ b, (wearStep 1 b s).1.attic.nextSeq = s.attic.nextSeq := fun b => by
    unfold wearStep
    repeat' split
    all_goals rfl
  unfold wearTally
  split <;> rename_i heq
  · rw [← hwear, heq]
  · rw [store_nextSeq, ← hwear, heq]
    exact Nat.le_add_right ..

/-! Rate limits (R435): no write to the tally touches them -/

theorem Signalled.guard {s t : State} (h : Signalled s t) : t.guard = s.guard := by rw [h.1]

theorem bump_guard (off n : Nat) (s : State) : (bump off n s).guard = s.guard := by
  unfold bump halfPending
  dsimp only
  split
  · rw [(irq_signalled 3 _ (by decide) (by decide)).guard, setReg_guard, setReg_guard]
  · rw [setReg_guard]

theorem ringAppend_guard (r : TRec) (s : State) : (ringAppend r s).guard = s.guard := by
  unfold ringAppend
  repeat' split
  all_goals rw [bump_guard]

theorem evidAppend_guard (r : TRec) (s : State) : (evidAppend r s).guard = s.guard := by
  unfold evidAppend
  split
  · rfl
  · rw [bump_guard]

theorem store_guard (r : TRec) (s : State) : (store r s).guard = s.guard := by
  unfold store
  dsimp only
  generalize hu : (if r.evid then evidAppend { r with seq := s.attic.nextSeq } s else ringAppend { r with seq := s.attic.nextSeq } s) = u
  have hguard : u.guard = s.guard := by
    rw [← hu]
    split
    · exact evidAppend_guard ..
    · exact ringAppend_guard ..
  split
  · exact hguard
  · split
    · rw [(irq_signalled 4 _ (by decide) (by decide)).guard]
      exact hguard
    · exact hguard

theorem wearTally_guard (r : TRec) (s : State) : (wearTally r s).guard = s.guard := by
  have hwear : ∀ b, (wearStep 1 b s).1.guard = s.guard := fun b => by
    unfold wearStep
    repeat' split
    all_goals rfl
  unfold wearTally
  split <;> rename_i heq
  · rw [← hwear, heq]
  · rw [store_guard, ← hwear, heq]

theorem append_guard (r : TRec) (s : State) : (append r s).guard = s.guard := by
  unfold append
  split
  · rw [wearTally_guard, store_guard]
  · exact store_guard ..

theorem tokens_congr {s t : State} (h : t.guard = s.guard) (code : Nat) : tokens t code = tokens s code := by rw [tokens, h, tokens]

/-! The two ways of an event's record -/

/-- The record of an event. -/
def eventRec (code level : Nat) (vals : List Nat) (s : State) : TRec := mkRec code (evInfo code).1 (evInfo code).2 level 0 0 (evData vals) s

theorem event0_eq (code level : Nat) (vals : List Nat) (s : State) : event0 code level vals s = record (eventRec code level vals s) s := rfl

/-- The rate limits once a record has found its place: it took a token, where its code has a bucket, and the number suppressed. -/
def charged (code : Nat) (s : State) : State :=
  { s with guard := { s.guard with
      buckets := if exempt code then s.guard.buckets else tput (fun _ => s.guard.bucketBase) s.guard.buckets code (tokens s code - 1)
      suppressed := tput nat0 s.guard.suppressed code 0 } }

/-- The rate limits once a record has found no place: it took its token, and the number suppressed stays. -/
def tokenTaken (code : Nat) (s : State) : State := if exempt code then s else setTokens code (tokens s code - 1) s

theorem tokenTaken_attic (code : Nat) (s : State) : (tokenTaken code s).attic = s.attic := by
  unfold tokenTaken
  split <;> rfl

theorem written_congr {s t : State} (h : t.attic = s.attic) (r : TRec) : written r t = written r s := by
  simp only [written, evidFull, atticRO, h]

theorem written_charged (r : TRec) (code : Nat) (s : State) : written r (charged code s) = written r s := written_congr rfl r

theorem mayRecord_iff (code : Nat) (s : State) : (exempt code || tokens s code != 0) = true ↔ (!exempt code && tokens s code == 0) = false := by
  cases exempt code <;> simp

theorem record_suppressed {r : TRec} {s : State} (hex : exempt r.code = false) (htok : tokens s r.code = 0) : record r s = suppress r.code s := by
  unfold record
  exact if_pos (by rw [hex, htok]; rfl)

section
variable {r : TRec} {s : State} (htok : (exempt r.code || tokens s r.code != 0) = true)
include htok

theorem record_written (hw : written r s = true) : record r s = append r (charged r.code s) := by
  unfold record
  rw [if_neg (ne_true_of_eq_false ((mayRecord_iff _ _).1 htok))]
  show append r (if written r (tokenTaken r.code s) then _ else _) = _
  rw [written_congr (tokenTaken_attic _ _), if_pos hw]
  unfold charged
  cases exempt r.code <;> rfl

theorem record_unwritten (hw : written r s = false) : record r s = append r (tokenTaken r.code s) := by
  unfold record
  rw [if_neg (ne_true_of_eq_false ((mayRecord_iff _ _).1 htok))]
  show append r (if written r (tokenTaken r.code s) then _ else tokenTaken r.code s) = _
  rw [written_congr (tokenTaken_attic _ _), if_neg (ne_true_of_eq_false hw)]

end

theorem tokens_charged_same (code : Nat) (s : State) : tokens (charged code s) code = tokens s code - (if exempt code then 0 else 1) := by
  unfold charged
  cases exempt code
  · exact tget_tput_same ..
  · rfl

theorem tokens_charged_ne {code k : Nat} (s : State) (h : k ≠ code) : tokens (charged code s) k = tokens s k := by
  unfold charged
  cases exempt code
  · exact tget_tput_ne _ _ _ h
  · rfl

/-! A suppressed event -/

/-- An event of a code without a token is counted, under its code and in the tally's counter, and leaves no record. -/
theorem event0_suppressed {code level : Nat} {vals : List Nat} {s : State} (hex : exempt code = false) (htok : tokens s code = 0) :
    event0 code level vals s = suppress code s := record_suppressed hex htok

theorem suppress_attic (code : Nat) (s : State) : (suppress code s).attic = s.attic := bump_attic ..

theorem suppress_guard (code : Nat) (s : State) :
    (suppress code s).guard = { s.guard with suppressed := tput nat0 s.guard.suppressed code (min (tget nat0 s.guard.suppressed code + 1) 0xFFFF) } := bump_guard ..

theorem suppress_count (code : Nat) (s : State) :
    (suppress code s).reg Reg.TLY_CNT_SUPPRESSED = BitVec.ofNat 64 (count40 (s.reg Reg.TLY_CNT_SUPPRESSED).toNat 1) := by
  obtain ⟨-, -, hcount, -⟩ := bump_counted Reg.TLY_CNT_SUPPRESSED 1
    { s with guard := { s.guard with suppressed := tput nat0 s.guard.suppressed code (min (tget nat0 s.guard.suppressed code + 1) 0xFFFF) } } (by decide)
  exact hcount

/-! A written event -/

section
variable {code : Nat} {s : State} (h : takes code s = true)
include h

theorem takes_parts : (exempt code || tokens s code != 0) = true ∧ atticRO s 1 = false ∧
    (if (evInfo code).2 then s.attic.evid.length < 16384 else s.attic.ring.length < 65535) := by
  simp only [takes, Bool.and_eq_true, Bool.not_eq_true'] at h
  obtain ⟨⟨htok, hro⟩, hroom⟩ := h
  refine ⟨htok, hro, ?_⟩
  cases he : (evInfo code).2 <;> rw [he] at hroom
  · exact of_decide_eq_true hroom
  · exact of_decide_eq_true hroom

theorem written_of_takes {r : TRec} (hr : r.evid = (evInfo code).2) : written r s = true := by
  obtain ⟨-, hro, hroom⟩ := takes_parts h
  refine written_room r s hro ?_
  rw [hr]
  cases he : (evInfo code).2 <;> rw [he] at hroom
  · exact Nat.lt_succ_of_lt hroom
  · exact hroom

theorem event0_written (level : Nat) (vals : List Nat) : event0 code level vals s =
    wearTally (eventRec code level vals s) (store (eventRec code level vals s) (charged code s)) := by
  have hw : written (eventRec code level vals s) s = true := written_of_takes h rfl
  obtain ⟨htok, -⟩ := takes_parts h
  rw [event0_eq, record_written htok hw, append, written_charged, if_pos hw]
  rfl

/-- The record stands at the end of its area, before that of a remap. -/
theorem event0_placed (level : Nat) (vals : List Nat) :
    ∃ r, (if (evInfo code).2 then s.attic.evid ++ [r] <+: (event0 code level vals s).attic.evid else s.attic.ring ++ [r] <+: (event0 code level vals s).attic.ring) ∧
      r.code = code ∧ r.level = level ∧ r.seq = s.attic.nextSeq ∧ r.data = evData vals ∧ r.time = s.time.now ∧ r.suppressed = tget nat0 s.guard.suppressed code ∧
      r.sev = (evInfo code).1 ∧ r.evid = (evInfo code).2 ∧ r.valid = true := by
  obtain ⟨-, hro, hroom⟩ := takes_parts h
  rw [event0_written h]
  generalize hm : eventRec code level vals s = m
  have hm' : m.evid = (evInfo code).2 := by rw [← hm]; rfl
  cases he : (evInfo code).2 <;> rw [he] at hroom hm'
  · have hstore : (store m (charged code s)).attic.ring = s.attic.ring ++ [{ m with seq := s.attic.nextSeq, slot := s.attic.ring.length }] :=
      store_ring _ _ hm' hro (Nat.lt_succ_of_lt hroom)
    refine ⟨{ m with seq := s.attic.nextSeq, slot := s.attic.ring.length }, ?_, by rw [← hm]; exact ⟨rfl, rfl, rfl, rfl, rfl, rfl, rfl, he, rfl⟩⟩
    rw [if_neg Bool.false_ne_true, ← hstore]
    exact wearTally_ring_prefix _ (by rw [hstore, List.length_append]; exact Nat.succ_lt_succ hroom)
  · have hstore : (store m (charged code s)).attic.evid = s.attic.evid ++ [{ m with seq := s.attic.nextSeq, slot := s.attic.evid.length }] :=
      store_evid _ _ hm' hro hroom
    refine ⟨{ m with seq := s.attic.nextSeq, slot := s.attic.evid.length }, ?_, by rw [← hm]; exact ⟨rfl, rfl, rfl, rfl, rfl, rfl, rfl, he, rfl⟩⟩
    rw [if_pos rfl, wearTally_evid, hstore]

theorem event0_nextSeq_lt (level : Nat) (vals : List Nat) : s.attic.nextSeq < (event0 code level vals s).attic.nextSeq := by
  rw [event0_written h]
  refine Nat.lt_of_lt_of_le ?_ (wearTally_nextSeq_le ..)
  rw [store_nextSeq, written_charged, if_pos (written_of_takes h rfl)]
  exact Nat.lt_succ_self _

theorem event0_guard (level : Nat) (vals : List Nat) : (event0 code level vals s).guard = (charged code s).guard := by
  rw [event0_written h, wearTally_guard, store_guard]

end

/-! Evidence that is lost -/

/-- Evidence that finds its area full is counted as lost and not written (R434). -/
theorem event0_lost {code : Nat} {s : State} (h : losesEvidence code s = true) (level : Nat) (vals : List Nat) :
    (event0 code level vals s).attic = { s.attic with evidLost := min (s.attic.evidLost + 1) (2 ^ 32 - 1) } := by
  simp only [losesEvidence, Bool.and_eq_true] at h
  obtain ⟨⟨hev, hfull⟩, htok⟩ := h
  rw [event0_eq]
  generalize hm : eventRec code level vals s = m
  have hcode : m.code = code := by rw [← hm]; rfl
  have hmev : m.evid = true := by rw [← hm]; exact hev
  have hw : written m s = false := by rw [written, if_pos hmev, hfull]; rfl
  rw [record_unwritten (by rw [hcode]; exact htok) hw, append]
  have ha := tokenTaken_attic m.code s
  have hw' : written m (tokenTaken m.code s) = false := (written_congr ha m).trans hw
  have hfull' : evidFull (tokenTaken m.code s) = true := by rw [← hfull, evidFull, atticRO, ha]; rfl
  have hstore : store m (tokenTaken m.code s) = evidAppend { m with seq := (tokenTaken m.code s).attic.nextSeq } (tokenTaken m.code s) := by
    unfold store
    dsimp only
    have hw'' : written { m with seq := (tokenTaken m.code s).attic.nextSeq } (tokenTaken m.code s) = false := hw'
    rw [hw'', if_pos hmev]
    rfl
  rw [if_neg (ne_true_of_eq_false hw'), hstore, evidAppend, if_pos hfull', ha]

theorem event_lost {code : Nat} {s : State} (h : losesEvidence code s = true) (vals : List Nat) :
    event code vals s = trigger0 0x14 [s.attic.evidLost + 1] (event0 code 0 vals s) := by
  unfold event
  exact if_pos h

/-- Settles O59, a rule at a time: a count, then an event that is suppressed, one that is written and one whose evidence is lost, then the ring with room and the full ring. -/
theorem tallyRules : Obligations.TallyRules := by
  intro s
  refine ⟨?counts, ?suppressed, ?written, ?lost, by decide, by decide, ?room, ?full⟩
  case counts =>
    intro off n hoff
    refine ⟨bump_counted off n s hoff, fun h => ?_, fun h => ?_⟩
    · rw [bump_crossed h]
      exact ⟨halfPending_bit .., halfPending_cause ..⟩
    · rw [bump_not_crossed h]
      exact ⟨fun k hk => reg_setReg_ne s _ (by simpa using hk), rfl, rfl⟩
  case suppressed =>
    intro code level vals hex htok
    have hlogged := event0_logged code level vals s
    rw [event0_suppressed hex htok] at hlogged ⊢
    refine ⟨suppress_attic code s, ?_, ?_, fun k hk => ?_, suppress_count code s, hlogged⟩
    · rw [tokens, suppress_guard]
      exact htok
    · rw [suppress_guard]
      exact tget_tput_same nat0 s.guard.suppressed code _
    · rw [suppress_guard]
      exact tget_tput_ne _ _ _ hk
  case written =>
    intro code level vals h
    have hguard := event0_guard h level vals
    refine ⟨event0_logged code level vals s, event0_placed h level vals, event0_nextSeq_lt h level vals, ?_, ?_, fun k hk => ?_⟩
    · rw [hguard]
      exact tget_tput_same nat0 s.guard.suppressed code 0
    · rw [tokens_congr hguard, tokens_charged_same]
    · rw [tokens_congr hguard, tokens_charged_ne s hk]
  case lost =>
    intro code vals h
    exact ⟨event_lost h vals, by rw [event0_lost h], by rw [event0_lost h]⟩
  case room => exact fun r hro hroom => ringAppend_mem r s hro hroom
  case full => exact fun r hro hfull => ⟨fun a o b => ringAppend_full_evicts hro hfull, ringAppend_full_discards hro hfull⟩

end Sys2Proof.Machine
end

section
/-! PROOFS. The statement on the management port and the test port (O58; R412, R475): what a command does where its condition holds, what a read from the pointer answers and acts on, and where the test port honours an instruction. -/
namespace Sys2Proof.Machine

/-! Commands with a condition -/

section
variable {c : Instr} {s : State} {b : Bool} {f : State → State} (hc : exec c s = .next (onlyIf b f s))
include hc

/-- A command whose condition does not hold changes nothing. -/
theorem idles_of_guard (hb : b = false) : Idles c s := by
  rw [Idles, hc, onlyIf, hb]
  rfl

theorem exec_of_guard {t : State} (hb : b = true) (ht : f s = t) : exec c s = .next t := by rw [hc, onlyIf_true hb, ht]

theorem completes_of_guard {P : State → Prop} (hb : b = true) (hp : P (f s)) : Completes c s P := ⟨_, exec_of_guard hc hb rfl, hp⟩

end

/-! The codes of the I3C bus (R412) -/

/-- What the part sends in ENTDAA before it takes its address. -/
def entdaaBytes : Bytes := natBe 6 Config.i3cPid ++ natBe 1 i3cBcr ++ [Config.i3cDcr]

theorem entdaaBytes_length : entdaaBytes.length = 8 := by
  rw [entdaaBytes, List.length_append, List.length_append, natBe_length, natBe_length]
  rfl

section
variable {s : State}

/-- The port answers nothing in Sealed or in reset. -/
theorem i3c_idles_of_not_live (hoff : s.live = false) (a b : BitVec 7) (d : Bytes) (n : Nat) :
    ∀ c ∈ [Instr.setdasa a b, .entdaa b, .setnewda b, .rstdaa, .getpid, .getbcr, .getdcr, .getstatus, .getmrl, .i3cPrivateWrite d, .i3cPrivateRead n], Idles c s := by
  simp only [List.forall_mem_cons]
  refine ⟨?_, ?_, ?_, ?_, ?_, ?_, ?_, ?_, ?_, ?_, ?_, List.forall_mem_nil _⟩
  all_goals exact idles_of_guard rfl (by simp only [hoff, Bool.false_and])

/-- A directed code finds no target without a dynamic address. -/
theorem directed_idles (hdyn : hasDyn s = false) (b : BitVec 7) :
    ∀ c ∈ [Instr.setnewda b, .getpid, .getbcr, .getdcr, .getstatus, .getmrl], Idles c s := by
  simp only [List.forall_mem_cons]
  refine ⟨?_, ?_, ?_, ?_, ?_, ?_, List.forall_mem_nil _⟩
  all_goals exact idles_of_guard rfl (by rw [hdyn, Bool.and_false])

theorem setdasa_idles {a : BitVec 7} (b : BitVec 7) (h : hasDyn s = true ∨ a.toNat ≠ i3cStatic s) : Idles (.setdasa a b) s := by
  refine idles_of_guard rfl ?_
  rcases h with hdyn | hne
  · rw [hdyn, Bool.not_true, Bool.and_false, Bool.false_and]
  · rw [beq_eq_false_iff_ne.2 hne, Bool.and_false]

theorem entdaa_idles (b : BitVec 7) (hdyn : hasDyn s = true) : Idles (.entdaa b) s :=
  idles_of_guard rfl (by rw [hdyn, Bool.not_true, Bool.and_false])

section
variable (hlive : s.live = true)
include hlive

theorem setdasa_gives {a : BitVec 7} (b : BitVec 7) (hdyn : hasDyn s = false) (ha : a.toNat = i3cStatic s) :
    exec (.setdasa a b) s = .next (setDyn (some b.toNat) s) :=
  exec_of_guard rfl (by rw [hlive, hdyn, ha, beq_self_eq_true]; rfl) rfl

theorem entdaa_gives (b : BitVec 7) (hdyn : hasDyn s = false) : exec (.entdaa b) s = .next (setDyn (some b.toNat) (i3cSay entdaaBytes s)) :=
  exec_of_guard rfl (by rw [hlive, hdyn]; rfl) rfl

theorem setnewda_gives (b : BitVec 7) (hdyn : hasDyn s = true) : exec (.setnewda b) s = .next (setDyn (some b.toNat) s) :=
  exec_of_guard rfl (by rw [hlive, hdyn]; rfl) rfl

/-- The condition of the directed codes. -/
theorem directed_guard (hdyn : hasDyn s = true) : (s.live && hasDyn s) = true := by rw [hlive, hdyn]; rfl

end

/-! I3C_PRIVATE_WRITE -/

theorem i3cPrivateWrite_moves {d : Bytes} (hlive : s.live = true) (h4 : d.length = 4) (h8 : beNat d % 8 = 0) (hlt : beNat d < 0x1000000) :
    exec (.i3cPrivateWrite d) s = .next { s with host := { s.host with i3cPtr := beNat d } } :=
  exec_of_guard rfl (by rw [hlive, h4, h8, decide_eq_true hlt]; rfl) rfl

theorem i3cPrivateWrite_idles {d : Bytes} (h : d.length ≠ 4 ∨ beNat d % 8 ≠ 0 ∨ 0x1000000 ≤ beNat d) : Idles (.i3cPrivateWrite d) s := by
  refine idles_of_guard rfl ?_
  rcases h with h4 | h8 | hle
  · rw [beq_eq_false_iff_ne.2 h4, Bool.and_false, Bool.false_and, Bool.false_and]
  · rw [beq_eq_false_iff_ne.2 h8, Bool.and_false, Bool.false_and]
  · rw [decide_eq_false (Nat.not_lt.2 hle), Bool.and_false]

end

/-! What a read leaves in its register -/

/-- Only registers differ. -/
def RegsOnly (s t : State) : Prop := t = { s with regs := t.regs }

theorem RegsOnly.trans {s t u : State} (h : RegsOnly s t) (h' : RegsOnly t u) : RegsOnly s u := by
  unfold RegsOnly at h h' ⊢
  rw [h', h]

theorem RegsOnly.out {s t : State} (h : RegsOnly s t) : t.out = s.out := by rw [h]
theorem RegsOnly.host {s t : State} (h : RegsOnly s t) : t.host = s.host := by rw [h]
theorem RegsOnly.attic {s t : State} (h : RegsOnly s t) : t.attic = s.attic := by rw [h]
theorem RegsOnly.guard {s t : State} (h : RegsOnly s t) : t.guard = s.guard := by rw [h]

theorem setFld_regsOnly (s : State) (off : Nat) (f : Fld) (v : Nat) : RegsOnly s (s.setFld off f v) := setReg_eq s off _

theorem afterRead_regsOnly (off : Nat) (s : State) : RegsOnly s (afterRead off s) := by
  unfold afterRead
  split_ifs
  · exact setFld_regsOnly ..
  · exact setFld_regsOnly ..
  · exact setReg_eq ..
  · exact (setFld_regsOnly ..).trans (setFld_regsOnly ..)
  · exact setFld_regsOnly ..
  · exact rfl

theorem afterReads_regsOnly (words : List Nat) (s : State) : RegsOnly s (words.foldl (fun s w => afterRead w s) s) := by
  induction words generalizing s with
  | nil => rfl
  | cons w words ih => exact (afterRead_regsOnly w s).trans (ih _)

/-! I3C_PRIVATE_READ -/

/-- The address of the i-th byte of a read from the pointer. -/
def i3cAt (s : State) (i : Nat) : Nat := (s.host.i3cPtr + i) % 0x1000000
def i3cAddrs (n : Nat) (s : State) : List Nat := (List.range n).map (i3cAt s)
/-- The bytes a read answers. -/
def i3cData (n : Nat) (s : State) : Bytes := (i3cAddrs n s).map (i3cByte s)
/-- The words a read of n bytes touches. -/
def i3cWords (n : Nat) (s : State) : List Nat := (List.range ((s.host.i3cPtr % 8 + n + 7) / 8)).map (fun i => (s.host.i3cPtr / 8 * 8 + 8 * i) % 0x1000000)
/-- The state once the bytes are sent and the registers that a read clears are cleared. -/
def i3cSent (n : Nat) (s : State) : State := ((i3cWords n s).filter (i3cMay s)).foldl (fun s w => afterRead w s) (i3cSay (i3cData n s) s)
def setPtr (p : Nat) (s : State) : State := { s with host := { s.host with i3cPtr := p } }

theorem setPtr_host {s t : State} (p : Nat) (h : t.host = s.host) : (setPtr p t).host = { s.host with i3cPtr := p } := by
  rw [← h]
  rfl

/-- Where registers and messages differ, a new pointer adds the host's part. -/
theorem setPtr_eq {s t : State} (p : Nat) (h : t = { s with regs := t.regs, out := t.out }) :
    setPtr p t = { s with regs := (setPtr p t).regs, out := (setPtr p t).out, host := (setPtr p t).host } := by
  obtain ⟨regs, out, rfl⟩ : ∃ r o, t = { s with regs := r, out := o } := ⟨_, _, h⟩
  rfl

theorem i3cSent_regsOnly (n : Nat) (s : State) : RegsOnly (i3cSay (i3cData n s) s) (i3cSent n s) := afterReads_regsOnly _ _

theorem i3cSent_out (n : Nat) (s : State) : (i3cSent n s).out = .i3c (i3cData n s) :: s.out := (i3cSent_regsOnly n s).out

theorem i3cSent_host (n : Nat) (s : State) : (i3cSent n s).host = s.host := (i3cSent_regsOnly n s).host

theorem i3cSent_eq (n : Nat) (s : State) : i3cSent n s = { s with regs := (i3cSent n s).regs, out := (i3cSent n s).out } := by
  have h : i3cSent n s = { i3cSay (i3cData n s) s with regs := (i3cSent n s).regs } := i3cSent_regsOnly n s
  rw [i3cSent_out]
  exact h

theorem i3cData_length (n : Nat) (s : State) : (i3cData n s).length = n := by
  rw [i3cData, List.length_map, i3cAddrs, List.length_map, List.length_range]

theorem i3cData_getElem? {n i : Nat} (s : State) (hi : i < n) : (i3cData n s)[i]? = some (i3cByte s (i3cAt s i)) := by
  rw [i3cData, i3cAddrs, List.getElem?_map, List.getElem?_map, List.getElem?_range hi]
  rfl

theorem i3cByte_of_may {s : State} {a : Nat} (h : i3cMay s a = true) : i3cByte s a = BitVec.ofNat 8 ((readReg s (a / 8 * 8)).toNat / 256 ^ (a % 8)) := if_pos h

theorem i3cByte_of_not_may {s : State} {a : Nat} (h : i3cMay s a = false) : i3cByte s a = if a % 2 = 0 then 0xAD else 0xDE := if_neg (ne_true_of_eq_false h)

/-- The first address that the master may not read decides whether there is a violation. -/
theorem i3cRead_eq (n : Nat) (s : State) : i3cRead n s = setPtr (i3cAt s n)
    (match (i3cAddrs n s).find? (fun a => !i3cMay s a) with | some a => violation mI3c (0x30 + a / 0x100000) a (i3cSent n s) | none => i3cSent n s) := rfl

theorem i3cRead_allowed {n : Nat} {s : State} (h : ∀ i, i < n → i3cMay s (i3cAt s i) = true) : i3cRead n s = setPtr (i3cAt s n) (i3cSent n s) := by
  have hnone : (i3cAddrs n s).find? (fun a => !i3cMay s a) = none := by
    rw [i3cAddrs, List.find?_eq_none, List.forall_mem_map]
    intro i hi
    rw [h i (List.mem_range.1 hi)]
    exact Bool.false_ne_true
  rw [i3cRead_eq, hnone]

theorem i3cRead_refused {n : Nat} {s : State} (hn : 0 < n) (h : i3cMay s (i3cAt s 0) = false) :
    i3cRead n s = setPtr (i3cAt s n) (violation mI3c (0x30 + i3cAt s 0 / 0x100000) (i3cAt s 0) (i3cSent n s)) := by
  have hsome : (i3cAddrs n s).find? (fun a => !i3cMay s a) = some (i3cAt s 0) := by
    obtain ⟨m, rfl⟩ := Nat.exists_eq_succ_of_ne_zero hn.ne'
    rw [i3cAddrs, List.range_succ_eq_map, List.map_cons]
    exact List.find?_cons_of_pos (by rw [h]; rfl)
  rw [i3cRead_eq, hsome]

theorem i3cPrivateRead_reads {len n : Nat} {s : State} (hlive : s.live = true) (hlen : 0 < len) (hn : n = min len 64) :
    exec (.i3cPrivateRead len) s = .next (i3cRead n s) := by
  rw [hn]
  exact exec_of_guard rfl (by rw [hlive, decide_eq_true hlen]; rfl) rfl

theorem i3cPrivateRead_zero_idles (s : State) : Idles (.i3cPrivateRead 0) s := idles_of_guard rfl (by rw [decide_eq_false (Nat.lt_irrefl 0), Bool.and_false])

/-! Events and monitors on a state that differs where they do not look -/

/-- An event whose evidence is not lost is its record and nothing more. -/
theorem event_raised_of_kept {code : Nat} {s : State} (vals : List Nat) (h : losesEvidence code s = false) : Raised code vals s (event code vals s) := by
  have e : event code vals s = event0 code 0 vals s := by
    unfold event
    exact if_neg (ne_true_of_eq_false h)
  rw [e]
  exact ⟨event0_logged _ _ _ _, event0_recorded⟩

theorem losesEvidence_congr {s t : State} (ha : t.attic = s.attic) (hg : t.guard = s.guard) (code : Nat) : losesEvidence code t = losesEvidence code s := by
  simp only [losesEvidence, evidFull, atticRO, tokens, ha, hg]

theorem effective_congr {s t : State} (hr : t.regs = s.regs) (ha : t.attic = s.attic) (m : Nat) : effective t m = effective s m := by
  unfold effective floorOf State.mode State.fld State.reg
  rw [hr, ha]

/-- Recording an event leaves the pointer alone, so it does not matter when the pointer moves. -/
theorem Raised.setPtr {code : Nat} {vals : List Nat} {s t : State} (h : Raised code vals s t) (p : Nat) :
    Raised code vals s { Machine.setPtr p t with host := s.host } := by
  have e : ({ Machine.setPtr p t with host := s.host } : State) = t := by
    rw [← h.1.host]
    rfl
  rw [e]
  exact h

/-- A read whose first byte is not allowed raises the violation on the state it has sent its bytes from. -/
theorem i3cSent_violation_raised {s : State} (n a : Nat) (h : losesEvidence Ev.ACCESS_VIOLATION s = false) :
    Raised Ev.ACCESS_VIOLATION [mI3c, 0x30 + a / 0x100000, a] (i3cSent n s) (violation mI3c (0x30 + a / 0x100000) a (i3cSent n s)) :=
  event_raised_of_kept _ ((losesEvidence_congr (i3cSent_regsOnly n s).attic (i3cSent_regsOnly n s).guard _).trans h)

/-! The test port (R475) -/

section
variable {s : State} {ir : Byte}

theorem tapMay_iff : tapMay s = true ↔ s.attic.lifecycle = 0 ∨ s.mode = 1 := by simp [tapMay]

/-- The code of BYPASS is the only one whose number is all ones. -/
theorem toNat_ne_tapBypass (h : ir ≠ 0xFF) : ir.toNat ≠ tapBypass := fun e => h (BitVec.eq_of_toNat_eq e)

section
variable (hon : s.mainOn = true)
include hon

theorem tapInstruction_bypass : exec (.tapInstruction 0xFF) s = exec .bypass s := by
  rw [exec_of_guard (c := .tapInstruction 0xFF) rfl hon (if_pos rfl), exec_of_guard (c := .bypass) rfl hon rfl]

theorem tapInstruction_honoured (hir : ir ≠ 0xFF) (hmay : tapMay s = true) : exec (.tapInstruction ir) s = .next (setIr ir.toNat s) := by
  refine exec_of_guard rfl hon ?_
  rw [if_neg (toNat_ne_tapBypass hir), if_pos hmay]

theorem tapInstruction_refused (hir : ir ≠ 0xFF) (hmay : tapMay s = false) (hlive : s.live = true) :
    exec (.tapInstruction ir) s = .next (trigger 0x15 [ir.toNat] (bypass s)) := by
  refine exec_of_guard rfl hon ?_
  rw [if_neg (toNat_ne_tapBypass hir), if_neg (ne_true_of_eq_false hmay), onlyIf_true hlive]

end

/-- The monitor of a refused debug request warns at level 0 or 1. -/
theorem bypass_refusal_warned (hl : effective s 0x15 ≤ 1) (ht : takes (monCode 0x15) s = true) :
    Warned 0x15 [ir.toNat] (bypass s) (trigger 0x15 [ir.toNat] (bypass s)) := by
  have hl' : effective (bypass s) 0x15 ≤ 1 := (effective_congr rfl rfl _).trans_le hl
  have ht' : takes (monCode 0x15) (bypass s) = true := (takes_congr rfl rfl).trans ht
  exact trigger_warned ht' hl' (by decide)

end

/-- Settles O58, a command at a time: the codes of the bus, the pointer and the read from it, then the test port. -/
theorem managementPorts : Obligations.ManagementPorts := by
  intro s has dyn
  refine ⟨i3c_idles_of_not_live, directed_idles, fun a b => setdasa_idles b, entdaa_idles, fun hlive => ?live, ?tapOff, fun hon => ⟨?idcode, ?bypass, fun ir => ?instruction⟩⟩
  case live =>
    refine ⟨fun a b hdyn ha => ⟨_, setdasa_gives hlive b hdyn ha, rfl⟩, fun b hdyn => ⟨_, entdaa_gives hlive b hdyn, _, entdaaBytes_length, rfl, rfl⟩,
      fun b hdyn => ⟨_, setnewda_gives hlive b hdyn, rfl⟩, completes_of_guard rfl hlive rfl, ?directed,
      fun d => ⟨i3cPrivateWrite_moves hlive, i3cPrivateWrite_idles⟩, i3cPrivateRead_zero_idles s, ?read⟩
    case directed =>
      intro hdyn
      have hg := directed_guard hlive hdyn
      exact ⟨exec_of_guard rfl hg rfl, exec_of_guard rfl hg rfl, exec_of_guard rfl hg rfl, exec_of_guard rfl hg rfl, completes_of_guard rfl hg ⟨_, natBe_length 2 _, rfl⟩⟩
    case read =>
      intro len n hlen hn
      have hexec := i3cPrivateRead_reads hlive hlen hn
      have hpos : 0 < n := by omega
      refine ⟨fun hmay => ?allowed, fun hmay hkept => ?refused⟩
      case allowed =>
        rw [i3cRead_allowed hmay] at hexec
        refine ⟨_, hexec, i3cData n s, i3cSent_out n s, i3cData_length n s, fun i hi => ?_, ?_, ?_⟩
        · exact (i3cData_getElem? s hi).trans (congrArg some (i3cByte_of_may (hmay i hi)))
        · exact setPtr_host _ (i3cSent_host n s)
        · exact setPtr_eq _ (i3cSent_eq n s)
      case refused =>
        rw [i3cRead_refused hpos hmay] at hexec
        have hraised := i3cSent_violation_raised n (i3cAt s 0) hkept
        have hhost := hraised.1.host
        refine ⟨_, hexec, i3cData n s, i3cSent n s, ?_, i3cSent_out n s, i3cSent_eq n s, ?_, ?_⟩
        · exact (i3cData_getElem? s hpos).trans (congrArg some (i3cByte_of_not_may hmay))
        · exact hraised.setPtr _
        · exact setPtr_host _ (hhost.trans (i3cSent_host n s))
  case tapOff => exact fun hoff ir => ⟨idles_of_guard rfl hoff, idles_of_guard rfl hoff, idles_of_guard rfl hoff⟩
  case idcode => exact exec_of_guard rfl hon rfl
  case bypass => exact exec_of_guard rfl hon rfl
  case instruction =>
    have hrefused : s.attic.lifecycle ≠ 0 → s.mode ≠ 1 → tapMay s = false := fun hlife hmode =>
      Bool.eq_false_iff.2 fun hmay => (tapMay_iff.1 hmay).elim hlife hmode
    refine ⟨fun hir => ?_, fun hir hmay => tapInstruction_honoured hon hir (tapMay_iff.2 hmay),
      fun hir hlife hmode => tapInstruction_refused hon hir (hrefused hlife hmode), fun hir hlife hmode hlive hl ht => ?_⟩
    · subst hir
      exact tapInstruction_bypass hon
    · exact ⟨_, tapInstruction_refused hon hir (hrefused hlife hmode) hlive, bypass_refusal_warned hl ht⟩

end Sys2Proof.Machine
end
